-- ==== Sys2Proof/Word.lean ====
section
/-! DEFINITION. The word types of the machine and the type of its sparse tables. -/

namespace Sys2Proof

/-- One byte, the smallest addressable unit (00 R4). -/
abbrev Byte := BitVec 8
/-- One 32-bit register or memory word. -/
abbrev W32 := BitVec 32
/-- One 64-bit value: an instruction word, a PC, an address, a register pair. -/
abbrev W64 := BitVec 64

/-- A sparse table from natural keys, kept as a list with strictly rising keys.
The functions that read and write it, and its canonical form, stand in Sys2Proof/Machine/Map.lean. -/
abbrev SMap (α : Type) := List (Nat × α)

end Sys2Proof
end

