-- ==== Sys2Proof/Syntax.lean ====
section
/-! DEFINITION. The instruction set as syntax: one constructor of Instr for each row of the opcode table.
A core word, a pair half and a Sluice word each carry the fields that their reference entry names, and a
step of the device that no word encodes carries the parameters that name its occasion.
A pair word is one constructor, that of its first half, and carries both halves (log entry 14). -/

namespace Sys2Proof

/-- Guard G of 04 R76: `neg` is G[3] and `p` is G[2:0]. -/
structure Guard where
  neg : Bool
  p : BitVec 3
  deriving DecidableEq, Repr

/-- Type codes of 04 Table 4-3. -/
inductive Ty where
  | i32 | n32 | i64 | n64 | f32 | bf16x2 | f16x2 | b32
  deriving DecidableEq, Repr

/-- The rounding selector FX[2:0] of 21 R348. -/
inductive Rnd where
  | fpmode | rne | rtz | rup | rdn | sr
  deriving DecidableEq, Repr

/-- Integer comparisons (21 R365, 22 R377). -/
inductive Cmp where
  | eq | ne | lt | le | gt | ge
  deriving DecidableEq, Repr

/-- Float comparisons of 21 Table 21-17. -/
inductive FCmp where
  | eq | ne | lt | le | gt | ge | num | equ | neu | ltu | leu | gtu | geu | nan
  deriving DecidableEq, Repr

/-- Scopes of 08 Table 8-3. -/
inductive Scope where
  | grp | team | clus | dev | ten | sys
  deriving DecidableEq, Repr

/-- Ordering codes ORD of 04 Table 4-4. -/
inductive MemOrd where
  | plain | acq | rel | ar | rlx
  deriving DecidableEq, Repr

/-- Access sizes SZ of 04 Table 4-4. -/
inductive Sz where
  | b8 | b16 | b32 | b64 | b128
  deriving DecidableEq, Repr

/-- Atomic operations AOP of 04 Table 4-5. -/
inductive AOp where
  | add | mins | maxs | minu | maxu | and | or | xor | exch | cas | fadd | bfadd
  deriving DecidableEq, Repr

/-- Half-opcodes of 04 Table 4-8. -/
inductive HOp where
  | iadd | isub | and | or | xor | shl | shr | sar | imin | imax | mov | imul | fadd | fsub | fmul | fmin | fmax
  deriving DecidableEq, Repr

/-! ### Payloads of the core words -/

/-- D, A with a uniform form (BREV, CLZ, NOT, POPC). -/
structure Un where
  g : Guard
  uni : Bool
  d : BitVec 8
  a : BitVec 8
  deriving DecidableEq, Repr

/-- D, A with a type and a uniform form (IABS, INEG, FABS, FNEG). -/
structure UnT where
  g : Guard
  uni : Bool
  ty : Ty
  d : BitVec 8
  a : BitVec 8
  deriving DecidableEq, Repr

/-- D, A per lane, no uniform form (FCLASS). -/
structure UnV where
  g : Guard
  d : BitVec 8
  a : BitVec 8
  deriving DecidableEq, Repr

/-- D, A, B with uniform form and broadcast B (AND, OR, XOR, FMIN, FMAX). -/
structure Bin where
  g : Guard
  uni : Bool
  bu : Bool
  d : BitVec 8
  a : BitVec 8
  b : BitVec 8
  deriving DecidableEq, Repr

/-- D, A, B with a type (IMAX, IMIN, IMUL, IMULH). -/
structure BinT where
  g : Guard
  uni : Bool
  bu : Bool
  ty : Ty
  d : BitVec 8
  a : BitVec 8
  b : BitVec 8
  deriving DecidableEq, Repr

/-- D, A, B with a type and SAT (IADD, ISUB). -/
structure BinS where
  g : Guard
  uni : Bool
  bu : Bool
  ty : Ty
  sat : Bool
  d : BitVec 8
  a : BitVec 8
  b : BitVec 8
  deriving DecidableEq, Repr

/-- D, A, B, C with a type (IMAD). -/
structure TriT where
  g : Guard
  uni : Bool
  bu : Bool
  ty : Ty
  d : BitVec 8
  a : BitVec 8
  b : BitVec 8
  c : BitVec 8
  deriving DecidableEq, Repr

/-- D, A, #imm24 (ANDI, ORI, XORI; 20 R312). -/
structure ImmB where
  g : Guard
  uni : Bool
  d : BitVec 8
  a : BitVec 8
  imm : BitVec 24
  deriving DecidableEq, Repr

/-- D, A, #imm24 with a type and SAT (IADDI; 21 R363). -/
structure ImmT where
  g : Guard
  uni : Bool
  ty : Ty
  sat : Bool
  d : BitVec 8
  a : BitVec 8
  imm : BitVec 24
  deriving DecidableEq, Repr

/-- BFI D, A, B, #pos, #len (20 R325); `len` 0 stands for 32. -/
structure BitIns where
  g : Guard
  uni : Bool
  bu : Bool
  d : BitVec 8
  a : BitVec 8
  b : BitVec 8
  pos : BitVec 5
  len : BitVec 5
  deriving DecidableEq, Repr

/-- BFX D, A, #pos, #len (20 R326); `signed` is the I32 form. -/
structure BitExt where
  g : Guard
  uni : Bool
  signed : Bool
  d : BitVec 8
  a : BitVec 8
  pos : BitVec 5
  len : BitVec 5
  deriving DecidableEq, Repr

/-- ISETP pD, A, B (21 R365). -/
structure SetpI where
  g : Guard
  bu : Bool
  ty : Ty
  cmp : Cmp
  p : BitVec 3
  a : BitVec 8
  b : BitVec 8
  deriving DecidableEq, Repr

/-- FSETP pD, A, B (21 R360). -/
structure SetpF where
  g : Guard
  bu : Bool
  cmp : FCmp
  p : BitVec 3
  a : BitVec 8
  b : BitVec 8
  deriving DecidableEq, Repr

/-- LEA D, A, B, #sh (21 R371). -/
structure LeaF where
  g : Guard
  uni : Bool
  bu : Bool
  signed : Bool
  d : BitVec 8
  a : BitVec 8
  b : BitVec 8
  sh : BitVec 5
  deriving DecidableEq, Repr

/-- The three forms of MOV (22 R375). -/
inductive MovKind where
  | vv | vs | ss
  deriving DecidableEq, Repr

/-- MOV D, source (22 R375). -/
structure MovF where
  g : Guard
  kind : MovKind
  d : BitVec 8
  src : BitVec 8
  deriving DecidableEq, Repr

/-- MOVI D, #imm32 (22 R376). -/
structure MovImm where
  g : Guard
  uni : Bool
  d : BitVec 8
  imm : BitVec 32
  deriving DecidableEq, Repr

/-- PLOP pD, pA, pB, #lut (22 R396). -/
structure PlopF where
  g : Guard
  p : BitVec 3
  a : BitVec 3
  b : BitVec 3
  lut : BitVec 4
  deriving DecidableEq, Repr

/-- The type of a shift word, which does not change its result (22 R404). -/
inductive ShTy where
  | i32 | n32 | b32
  deriving DecidableEq, Repr

/-- The amount of a shift word: a register, perhaps broadcast, or an immediate (22 R404). -/
inductive ShAmt where
  | reg (bu : Bool) (b : BitVec 8)
  | imm (n : BitVec 5)
  deriving DecidableEq, Repr

/-- ROT, SAR, SHL, SHR (22 R404). -/
structure Shift where
  g : Guard
  uni : Bool
  ty : ShTy
  d : BitVec 8
  a : BitVec 8
  amt : ShAmt
  deriving DecidableEq, Repr

/-- SEL D, A, B, pC (22 R408). -/
structure SelF where
  g : Guard
  bu : Bool
  d : BitVec 8
  a : BitVec 8
  b : BitVec 8
  pc : BitVec 3
  deriving DecidableEq, Repr

/-- FADD, FSUB, FMUL (21 R348). -/
structure FBin where
  g : Guard
  uni : Bool
  bu : Bool
  rm : Rnd
  d : BitVec 8
  a : BitVec 8
  b : BitVec 8
  deriving DecidableEq, Repr

/-- FFMA (21 R348). -/
structure FFmaF where
  g : Guard
  uni : Bool
  bu : Bool
  rm : Rnd
  d : BitVec 8
  a : BitVec 8
  b : BitVec 8
  c : BitVec 8
  deriving DecidableEq, Repr

/-- FDOT2 (21 R355). -/
structure FTri where
  g : Guard
  bu : Bool
  rm : Rnd
  d : BitVec 8
  a : BitVec 8
  b : BitVec 8
  c : BitVec 8
  deriving DecidableEq, Repr

/-- HFMA2 (21 R362); `f16` is the F16X2 form. -/
structure HTri where
  g : Guard
  bu : Bool
  f16 : Bool
  rm : Rnd
  d : BitVec 8
  a : BitVec 8
  b : BitVec 8
  c : BitVec 8
  deriving DecidableEq, Repr

/-- FCOS, FEXP2, FLOG2, FSIN, FTANH (21 R352). -/
structure FLong where
  la : BitVec 4
  g : Guard
  d : BitVec 8
  a : BitVec 8
  deriving DecidableEq, Repr

/-- FRCP, FRSQ, FSQRT (21 R352). -/
structure FLongR where
  la : BitVec 4
  g : Guard
  rm : Rnd
  d : BitVec 8
  a : BitVec 8
  deriving DecidableEq, Repr

/-- FDIV (21 R352). -/
structure FDivF where
  la : BitVec 4
  g : Guard
  bu : Bool
  rm : Rnd
  d : BitVec 8
  a : BitVec 8
  b : BitVec 8
  deriving DecidableEq, Repr

/-- FRND (21 R359). -/
structure FRndF where
  g : Guard
  uni : Bool
  rm : Rnd
  d : BitVec 8
  a : BitVec 8
  deriving DecidableEq, Repr

/-- AMAXRD sD, #slot (20 R309). -/
structure AmaxrdF where
  d : BitVec 8
  slot : BitVec 3
  clr : Bool
  deriving DecidableEq, Repr

/-- CVT format codes of 20 Table 20-26. -/
inductive CvtFmt where
  | f32 | bf16 | f16 | e4m3 | e5m2 | e2m1 | i8 | i4 | i32 | n32
  deriving DecidableEq, Repr

/-- CVT D, A (20 R340). -/
structure CvtF where
  g : Guard
  uni : Bool
  sat : Bool
  rm : Rnd
  dst : CvtFmt
  src : CvtFmt
  d : BitVec 8
  a : BitVec 8
  deriving DecidableEq, Repr

/-- CVTD D, A, B, #slot (20 R342). -/
structure CvtdF where
  g : Guard
  bu : Bool
  d : BitVec 8
  a : BitVec 8
  b : BitVec 8
  slot : BitVec 3
  deriving DecidableEq, Repr

/-- CVTQ D, A, C, #slot (20 R343). -/
structure CvtqF where
  g : Guard
  d : BitVec 8
  a : BitVec 8
  c : BitVec 8
  slot : BitVec 3
  deriving DecidableEq, Repr

/-- FMODE #m or sA (21 R357). -/
inductive FmodeF where
  | imm (m : BitVec 8)
  | reg (a : BitVec 8)
  deriving DecidableEq, Repr

/-- PACK D, A, B, #slot, #pos (22 R395). -/
structure PackF where
  g : Guard
  bu : Bool
  d : BitVec 8
  a : BitVec 8
  b : BitVec 8
  slot : BitVec 3
  pos : BitVec 2
  deriving DecidableEq, Repr

/-- A guard and one v register (SEED 22 R407, ITEMQ 21 R366). -/
structure GA where
  g : Guard
  a : BitVec 8
  deriving DecidableEq, Repr

/-- UNPK D, A, #slot, #idx (23 R439). -/
structure UnpkF where
  g : Guard
  d : BitVec 8
  a : BitVec 8
  slot : BitVec 3
  idx : BitVec 3
  deriving DecidableEq, Repr

/-- BCAST sD, vA, #lane (20 R324). -/
structure BcastF where
  d : BitVec 8
  a : BitVec 8
  lane : BitVec 5
  deriving DecidableEq, Repr

/-- LTILE #w (21 R373). -/
structure LtileF where
  w : BitVec 6
  deriving DecidableEq, Repr

/-- Operations of REDUX and SCAN (22 Table 22-22). -/
inductive ROp where
  | add | fadd | min | max | and | or | xor
  deriving DecidableEq, Repr

/-- REDUX.op.type D, A (22 R400). -/
structure LaneOp where
  g : Guard
  op : ROp
  ty : Ty
  d : BitVec 8
  a : BitVec 8
  deriving DecidableEq, Repr

/-- SCAN.op[.EXCL].type D, A (22 R400). -/
structure ScanF where
  g : Guard
  op : ROp
  ty : Ty
  excl : Bool
  d : BitVec 8
  a : BitVec 8
  deriving DecidableEq, Repr

/-- Shuffle modes (22 R409). -/
inductive ShMode where
  | idx | up | down | xor
  deriving DecidableEq, Repr

/-- SHFL.mode D, A, B or #k (22 R409). -/
structure ShflF where
  g : Guard
  mode : ShMode
  d : BitVec 8
  a : BitVec 8
  amt : ShAmt
  deriving DecidableEq, Repr

/-- VOTE forms (23 R441). -/
inductive VoteKind where
  | all | any | ballot
  deriving DecidableEq, Repr

/-- VOTE D, pA (23 R441); D is a predicate for ALL and ANY and a v register for BALLOT. -/
structure VoteF where
  g : Guard
  kind : VoteKind
  d : BitVec 8
  a : BitVec 3
  deriving DecidableEq, Repr

/-- XRECV vD, #slot (23 R444). -/
structure XrecvF where
  la : BitVec 4
  d : BitVec 8
  slot : BitVec 5
  deriving DecidableEq, Repr

/-- XSEND #slot, vA (23 R444). -/
structure XsendF where
  a : BitVec 8
  slot : BitVec 5
  deriving DecidableEq, Repr

/-- BRA label (20 R331). -/
structure BraF where
  g : Guard
  off : BitVec 24
  deriving DecidableEq, Repr

/-- BRAU sA, label (20 R332); `eq` is M[0]. -/
structure BrauF where
  a : BitVec 8
  eq : Bool
  off : BitVec 24
  deriving DecidableEq, Repr

/-- A branch offset alone (CALL, MJOIN). -/
structure Off where
  off : BitVec 24
  deriving DecidableEq, Repr

/-- LOOPH vD, label (21 R372). -/
structure LoophF where
  d : BitVec 8
  off : BitVec 24
  deriving DecidableEq, Repr

/-- REP of 02 Table 2-3. -/
structure RepF where
  n : BitVec 6
  sd : BitVec 3
  sa : BitVec 3
  sb : BitVec 3
  sc : BitVec 3
  deriving DecidableEq, Repr

/-- ATOM and ATOMS (20 R314, R319). -/
structure AtomF where
  la : BitVec 4
  g : Guard
  op : AOp
  sz : Sz
  scope : Scope
  ord : MemOrd
  as : Bool
  d : BitVec 8
  a : BitVec 8
  b : BitVec 8
  off : BitVec 9
  deriving DecidableEq, Repr

/-- CCTL operations (20 R337). -/
inductive CctlOp where
  | wb | inv | wbinv
  deriving DecidableEq, Repr

/-- CCTL.op [A + off] or [A + off], B (20 R337); `range` is SZ 1. -/
structure CctlF where
  g : Guard
  op : CctlOp
  range : Bool
  as : Bool
  a : BitVec 8
  b : BitVec 8
  off : BitVec 13
  deriving DecidableEq, Repr

/-- LD and LDS (21 R368). -/
structure LoadF where
  la : BitVec 4
  g : Guard
  sz : Sz
  scope : Scope
  ord : MemOrd
  as : Bool
  d : BitVec 8
  a : BitVec 8
  off : BitVec 13
  deriving DecidableEq, Repr

/-- LDU, uniform, AS = 1 (21 R368). -/
structure LduF where
  la : BitVec 4
  sz : Sz
  scope : Scope
  ord : MemOrd
  d : BitVec 8
  a : BitVec 8
  off : BitVec 13
  deriving DecidableEq, Repr

/-- MWAIT (22 R377). -/
structure MwaitF where
  la : BitVec 4
  ty : Ty
  cmp : Cmp
  p : BitVec 3
  off : BitVec 4
  d : BitVec 8
  a : BitVec 8
  b : BitVec 8
  c : BitVec 8
  deriving DecidableEq, Repr

/-- PREF (22 R398). -/
structure PrefF where
  g : Guard
  cls : BitVec 2
  as : Bool
  a : BitVec 8
  off : BitVec 13
  deriving DecidableEq, Repr

/-- ST and STS (23 R433). -/
structure StoreF where
  g : Guard
  sz : Sz
  scope : Scope
  ord : MemOrd
  as : Bool
  a : BitVec 8
  b : BitVec 8
  off : BitVec 13
  deriving DecidableEq, Repr

/-- BARV [sA], #n (20 Table 20-10). -/
structure BarvF where
  a : BitVec 8
  n : BitVec 10
  deriving DecidableEq, Repr

/-- BINIT pD, [sA], sB (20 Table 20-10). -/
structure BinitF where
  p : BitVec 3
  a : BitVec 8
  b : BitVec 8
  deriving DecidableEq, Repr

/-- One s register (BINV, MX.REVOKE, and the even pair of A2AV, AREDC, ESORT, SCATTER). -/
structure SReg where
  a : BitVec 8
  deriving DecidableEq, Repr

/-- BWAIT pD, [sA], #ph (20 Table 20-10). -/
structure BwaitF where
  p : BitVec 3
  a : BitVec 8
  ph : Bool
  deriving DecidableEq, Repr

/-- FENCE.scope[.SPEC] (21 R356). -/
structure FenceF where
  scope : Scope
  spec : Bool
  deriving DecidableEq, Repr

/-- Signal operations (23 R410). -/
inductive SigKind where
  | add | sub | set
  deriving DecidableEq, Repr

/-- SIGOP.op[.scope] [sA], sB (23 R410). -/
structure SigopF where
  op : SigKind
  sys : Bool
  a : BitVec 8
  b : BitVec 8
  deriving DecidableEq, Repr

/-- XFENCE #from, #to (23 R442). -/
structure XfenceF where
  src : BitVec 8
  dst : BitVec 8
  deriving DecidableEq, Repr

/-- NBND pD, #dim, sA (22 R389). -/
structure NbndF where
  p : BitVec 3
  dim : BitVec 2
  a : BitVec 8
  deriving DecidableEq, Repr

/-- NLAUNCH pD, sA, sB, sC, #hdr (22 R390). -/
structure NlaunchF where
  p : BitVec 3
  a : BitVec 8
  b : BitVec 8
  c : BitVec 8
  hdr : BitVec 5
  deriving DecidableEq, Repr

/-- NQRY sD, #what (22 R393). -/
structure NqryF where
  la : BitVec 4
  what : BitVec 2
  d : BitVec 8
  deriving DecidableEq, Repr

/-- MX.RUN and MX.DIST (22 R380). -/
structure MxRunF where
  g : Guard
  a : BitVec 8
  b : BitVec 8
  c : BitVec 8
  slot : BitVec 3
  deriving DecidableEq, Repr

/-- MX.DRAIN, MX.TOPK, MX.ZERO: an s pair and an s register (22 R383). -/
structure SPairReg where
  a : BitVec 8
  b : BitVec 8
  deriving DecidableEq, Repr

/-- LA, sD, sA (MX.RALLOC, MX.RQRY 22 R384; GATHER 21 R361). -/
structure LaDA where
  la : BitVec 4
  d : BitVec 8
  a : BitVec 8
  deriving DecidableEq, Repr

/-- MX.RLOAD (22 R384). -/
structure MxRloadF where
  a : BitVec 8
  b : BitVec 8
  c : BitVec 8
  slot : BitVec 3
  deriving DecidableEq, Repr

/-- MX.RPIN (22 R384). -/
structure MxRpinF where
  a : BitVec 8
  pin : Bool
  deriving DecidableEq, Repr

/-- FORK sD, sA, sB (21 R358). -/
structure ForkF where
  la : BitVec 4
  d : BitVec 8
  a : BitVec 8
  b : BitVec 8
  deriving DecidableEq, Repr

/-- RDV pD, sA (22 R399). -/
structure RdvF where
  p : BitVec 3
  a : BitVec 8
  deriving DecidableEq, Repr

/-- BKPT and TRAP #code (20 R329, 23 R437). -/
structure TrapF where
  g : Guard
  imm : BitVec 24
  deriving DecidableEq, Repr

/-- SRD D, #sel (23 R431). -/
structure SrdF where
  g : Guard
  uni : Bool
  d : BitVec 8
  sel : BitVec 10
  deriving DecidableEq, Repr

/-- SWR #sel, sA (23 R436). -/
structure SwrF where
  a : BitVec 8
  sel : BitVec 10
  deriving DecidableEq, Repr

/-! ### Pair words (04 R81) -/

/-- The operands of one half of a pair word (04 Table 4-7). -/
structure Half where
  d : BitVec 8
  s : BitVec 8
  im : Bool
  g : Guard
  deriving DecidableEq, Repr

/-- A pair word: the operands of the first half, and the whole second half. -/
structure PairF where
  h1 : Half
  op2 : HOp
  h2 : Half
  deriving DecidableEq, Repr

/-! ### Payloads of the Sluice words (11 Table 11-3) -/

/-- The B operand of a Sluice word: a register or the immediate. -/
inductive SlB where
  | reg (b : BitVec 4)
  | imm (v : BitVec 32)
  deriving DecidableEq, Repr

/-- SL.ADD wD, wA, B. -/
structure SlAluF where
  d : BitVec 4
  a : BitVec 4
  b : SlB
  deriving DecidableEq, Repr

/-- SL.ARRIVE [wA], #n. -/
structure SlArriveF where
  a : BitVec 4
  n : BitVec 16
  deriving DecidableEq, Repr

/-- SL.BMEXP #src, #dst, wA. -/
structure SlBmexpF where
  src : BitVec 2
  dst : BitVec 2
  a : BitVec 4
  deriving DecidableEq, Repr

/-- Branch conditions of SL.BR. -/
inductive SlCond where
  | al | t | f
  deriving DecidableEq, Repr

/-- SL.BR.cond label. -/
structure SlBrF where
  cond : SlCond
  off : BitVec 32
  deriving DecidableEq, Repr

/-- A descriptor number (SL.CBLOAD). -/
structure SlDesc where
  desc : BitVec 2
  deriving DecidableEq, Repr

/-- SL.CMP.cond wA, B. -/
structure SlCmpF where
  cmp : Cmp
  a : BitVec 4
  b : SlB
  deriving DecidableEq, Repr

/-- SL.END #status. -/
structure SlEndF where
  status : BitVec 8
  deriving DecidableEq, Repr

/-- SL.IDX wD, [wA + off], #size; `size` holds log2 of the bytes. -/
structure SlIdxF where
  size : BitVec 2
  d : BitVec 4
  a : BitVec 4
  off : BitVec 32
  deriving DecidableEq, Repr

/-- SL.LOOP wA, label. -/
structure SlLoopF where
  a : BitVec 4
  off : BitVec 32
  deriving DecidableEq, Repr

/-- SL.MAD wD, wA, wB, wC. -/
structure SlMadF where
  d : BitVec 4
  a : BitVec 4
  b : BitVec 4
  c : BitVec 4
  deriving DecidableEq, Repr

/-- SL.MOV wD, wA or #imm32. -/
structure SlMovF where
  d : BitVec 4
  src : SlB
  deriving DecidableEq, Repr

/-- SL.SEGNEXT wD, wA. -/
structure SlDA where
  d : BitVec 4
  a : BitVec 4
  deriving DecidableEq, Repr

/-- SL.SETD #desc, #field, wA. -/
structure SlSetdF where
  desc : BitVec 2
  field : BitVec 4
  a : BitVec 4
  deriving DecidableEq, Repr

/-- SL.SIGNAL.op[.scope] [wA], wB. -/
structure SlSignalF where
  op : SigKind
  sys : Bool
  a : BitVec 4
  b : BitVec 4
  deriving DecidableEq, Repr

/-- SL.STAMP [wA], wB. -/
structure SlAB where
  a : BitVec 4
  b : BitVec 4
  deriving DecidableEq, Repr

/-- SL.WAIT [wA], #phase. -/
structure SlWaitF where
  a : BitVec 4
  ph : Bool
  deriving DecidableEq, Repr

/-- Modes of SL.XFER. -/
inductive XMode where
  | copy | decode | convert
  deriving DecidableEq, Repr

/-- SL.XFER #src, #dst, mode. -/
structure SlXferF where
  src : BitVec 2
  dst : BitVec 2
  mode : XMode
  deriving DecidableEq, Repr

/-! ### Registers that only a control register write of the driver reaches (00 R6) -/

/-- The control registers that REGISTER_WRITE writes: every one that has no step of its own. -/
inductive CtlReg where
  | rangeBase (ten basin n : Nat)
  | rangeLimit (ten basin n : Nat)
  | rangeCtl (ten basin n : Nat)
  | tenMacros (ten : Nat)
  | keyTenLo (key : Nat)
  | keyTenHi (key : Nat)
  | ctxRoot (ctx : Nat)
  | ctxSave (ctx : Nat)
  | ctxFault (ctx : Nat)
  | ctxHandler (ctx : Nat)
  | ctxCfg (ctx : Nat)
  | sdBase (ch : Nat)
  | qhdr (q : Nat)
  | commCfg (vd comm : Nat) (packages : List Nat) (rank timeout : Nat)
  | ctxCmd
  | readOnly (offset : Nat)
  deriving DecidableEq, Repr

/-- The control registers that have steps of their own or that only the device writes, as a read of the host names them. -/
inductive StatReg where
  | regionBase (basin entry : Nat)
  | regionLimit (basin entry : Nat)
  | regionMap (basin entry : Nat)
  | regionCtl (basin : Nat)
  | port (n : Nat)
  | vdCfg (vd : Nat)
  | vdPolicy (vd : Nat)
  | vdStat (vd : Nat)
  | tenWays (ten basin : Nat)
  | hits (ten basin : Nat)
  | misses (ten basin : Nat)
  | fhits (ten basin : Nat)
  | ctxCmd
  | sdCtl (ch : Nat)
  | qctl (q : Nat)
  | doorbell (q : Nat)
  | key (key : Nat)
  deriving DecidableEq, Repr

/-- What the host reads: device memory from an address on, a control register, or an offset of BAR0 of a virtual function (19
Tables 19-1 and 19-2). -/
inductive HostSpace where
  | mem (addr : Nat)
  | ctl (r : CtlReg)
  | stat (r : StatReg)
  | vf (v off : Nat)
  deriving DecidableEq, Repr

/-- An offset of BAR0 of a virtual function (19 Table 19-2). -/
structure VfOffset where
  vf : Nat
  off : Nat
  deriving DecidableEq, Repr

/-- A frame of the replica pool of a basin (01 R27). -/
structure PoolFrame where
  basin : Nat
  frame : Nat
  deriving DecidableEq, Repr

/-- QCTL of a queue as the driver writes it, but for ENABLE (16 Table 16-1). -/
structure QueueCtl where
  q : Nat
  ctx : BitVec 16
  vd : BitVec 7
  deriving DecidableEq, Repr

/-- The temperatures that the controller samples: each die, and the cold plate inlet and outlet (19 R302). -/
structure Temps where
  dies : List Int
  inlet : Int
  outlet : Int
  deriving DecidableEq, Repr

/-! ### The instructions and steps -/

/-- One constructor for each row of the opcode table: the 128 core words of 04 Table 4-11, the 17 pair halves of
04 Table 4-8, the 17 Sluice words of 11 Table 11-3 and the 88 steps of the device that no word encodes. -/
inductive Instr where
  | and (f : Bin)
  | andi (f : ImmB)
  | bfi (f : BitIns)
  | bfx (f : BitExt)
  | brev (f : Un)
  | clz (f : Un)
  | iabs (f : UnT)
  | iadd (f : BinS)
  | iaddi (f : ImmT)
  | imad (f : TriT)
  | imax (f : BinT)
  | imin (f : BinT)
  | imul (f : BinT)
  | imulh (f : BinT)
  | ineg (f : UnT)
  | isetp (f : SetpI)
  | isub (f : BinS)
  | lea (f : LeaF)
  | mov (f : MovF)
  | movi (f : MovImm)
  | not (f : Un)
  | or (f : Bin)
  | ori (f : ImmB)
  | plop (f : PlopF)
  | popc (f : Un)
  | rot (f : Shift)
  | sar (f : Shift)
  | sel (f : SelF)
  | shl (f : Shift)
  | shr (f : Shift)
  | xor (f : Bin)
  | xori (f : ImmB)
  | fabs (f : UnT)
  | fadd (f : FBin)
  | fclass (f : UnV)
  | fcos (f : FLong)
  | fdiv (f : FDivF)
  | fdot2 (f : FTri)
  | fexp2 (f : FLong)
  | ffma (f : FFmaF)
  | flog2 (f : FLong)
  | fmax (f : Bin)
  | fmin (f : Bin)
  | fmul (f : FBin)
  | fneg (f : UnT)
  | frcp (f : FLongR)
  | frnd (f : FRndF)
  | frsq (f : FLongR)
  | fsetp (f : SetpF)
  | fsin (f : FLong)
  | fsqrt (f : FLongR)
  | fsub (f : FBin)
  | ftanh (f : FLong)
  | hfma2 (f : HTri)
  | amaxrd (f : AmaxrdF)
  | cvt (f : CvtF)
  | cvtd (f : CvtdF)
  | cvtq (f : CvtqF)
  | fmode (f : FmodeF)
  | pack (f : PackF)
  | seed (f : GA)
  | unpk (f : UnpkF)
  | bcast (f : BcastF)
  | ltile (f : LtileF)
  | redux (f : LaneOp)
  | scan (f : ScanF)
  | shfl (f : ShflF)
  | vote (f : VoteF)
  | xrecv (f : XrecvF)
  | xsend (f : XsendF)
  | bra (f : BraF)
  | brau (f : BrauF)
  | call (f : Off)
  | endw
  | exitw (f : Guard)
  | itemq (f : GA)
  | joinw
  | looph (f : LoophF)
  | mjoin (f : Off)
  | nop (f : Guard)
  | rep (f : RepF)
  | ret
  | atom (f : AtomF)
  | atoms (f : AtomF)
  | cctl (f : CctlF)
  | ld (f : LoadF)
  | lds (f : LoadF)
  | ldu (f : LduF)
  | mwait (f : MwaitF)
  | pref (f : PrefF)
  | st (f : StoreF)
  | sts (f : StoreF)
  | bar
  | barv (f : BarvF)
  | binit (f : BinitF)
  | binv (f : SReg)
  | bwait (f : BwaitF)
  | cbar
  | fence (f : FenceF)
  | nbar
  | sigop (f : SigopF)
  | xfence (f : XfenceF)
  | nbnd (f : NbndF)
  | nlaunch (f : NlaunchF)
  | nqry (f : NqryF)
  | mxDist (f : MxRunF)
  | mxDrain (f : SPairReg)
  | mxRalloc (f : LaDA)
  | mxRevoke (f : SReg)
  | mxRload (f : MxRloadF)
  | mxRpin (f : MxRpinF)
  | mxRqry (f : LaDA)
  | mxRun (f : MxRunF)
  | mxTopk (f : SPairReg)
  | mxZero (f : SPairReg)
  | fork (f : ForkF)
  | rdv (f : RdvF)
  | a2av (f : SReg)
  | aredc (f : SReg)
  | esort (f : SReg)
  | gather (f : LaDA)
  | scatter (f : SReg)
  | bkpt (f : TrapF)
  | srd (f : SrdF)
  | swr (f : SwrF)
  | trapw (f : TrapF)
  | tret
  | yieldw
  -- pair words, by their first half
  | halfIadd (f : PairF)
  | halfIsub (f : PairF)
  | halfAnd (f : PairF)
  | halfOr (f : PairF)
  | halfXor (f : PairF)
  | halfShl (f : PairF)
  | halfShr (f : PairF)
  | halfSar (f : PairF)
  | halfImin (f : PairF)
  | halfImax (f : PairF)
  | halfMov (f : PairF)
  | halfImul (f : PairF)
  | halfFadd (f : PairF)
  | halfFsub (f : PairF)
  | halfFmul (f : PairF)
  | halfFmin (f : PairF)
  | halfFmax (f : PairF)
  -- Sluice words
  | slAdd (f : SlAluF)
  | slArrive (f : SlArriveF)
  | slBmexp (f : SlBmexpF)
  | slBr (f : SlBrF)
  | slCbload (f : SlDesc)
  | slCmp (f : SlCmpF)
  | slEnd (f : SlEndF)
  | slIdx (f : SlIdxF)
  | slLoop (f : SlLoopF)
  | slMad (f : SlMadF)
  | slMov (f : SlMovF)
  | slSegnext (f : SlDA)
  | slSetd (f : SlSetdF)
  | slSignal (f : SlSignalF)
  | slStamp (f : SlAB)
  | slWait (f : SlWaitF)
  | slXfer (f : SlXferF)
  -- steps of the device
  /-- LONG_LATENCY_RESULT: the result `id` of a long-latency word of a group is written (04 R80). -/
  | longLatencyResult (team grp id : Nat)
  /-- REJECTED_REISSUE: a rejected word may issue again (08 R153). -/
  | rejectedReissue (team grp : Nat) (slot : Bool)
  /-- REQUEST_AGED: a request rejected for 256 cycles ages (08 R154). -/
  | requestAged (team grp : Nat) (slot : Bool)
  /-- PRESENCE_BIT_SET: the presence bit of a scratchpad line is set again (08 R148). -/
  | presenceBitSet (team line : Nat)
  /-- PAGE_WALK: a walker fills the TLBs with a translation (01 R25). -/
  | pageWalk (core ctx page : Nat)
  /-- BARRIER_COMPLETE: a barrier at which the groups of `team` wait completes (02 R46). -/
  | barrierComplete (team : Nat)
  /-- RENDEZVOUS_SERVE: the first waiter of a rendezvous slot is served (02 R45). -/
  | rendezvousServe (team slotNo : Nat)
  /-- ITEMQ_PUSH_SERVED: the first waiting push of an item queue is served (02 R42). -/
  | itemqPushServed (team : Nat)
  /-- MWAIT_WAKE: a monitored line was written and MWAIT reads again (22 R378). -/
  | mwaitWake (team grp : Nat) (slot : Bool)
  /-- MWAIT_TIMEOUT: the limit of an MWAIT is reached (22 R378). -/
  | mwaitTimeout (team grp : Nat) (slot : Bool)
  /-- MWAIT_HOST_POLL: an MWAIT on the host window polls (22 R378). -/
  | mwaitHostPoll (team grp : Nat) (slot : Bool)
  /-- HOLDER_PROMOTION: the holder of a line writes it back (08 R164). -/
  | holderPromotion (line : Nat)
  /-- SPEC_WINDOW_COMMIT: the fence of a speculative window completes (08 R166). -/
  | specWindowCommit (team grp : Nat)
  /-- INGRESS_DRAIN: the oldest write of an ingress buffer enters its slice (08 R167). -/
  | ingressDrain (basin slice path : Nat)
  /-- COLLAPSE_EVENT: a write to a replicated page starts its collapse (01 R28). -/
  | collapseEvent (ctx page : Nat)
  /-- COLLAPSE_RELEASE: a collapse ends and releases its waiters (01 R28). -/
  | collapseRelease (ctx page : Nat)
  /-- REPLICA_PLACEMENT: a replica of a page is placed in a basin, at a frame of its pool (01 R27). -/
  | replicaPlacement (ctx page : Nat) (pool : PoolFrame)
  /-- TEAM_START: a released point starts as a team (02 R33). -/
  | teamStart (core : Nat)
  /-- CLUSTER_START: a released cluster starts on a rectangle (02 R33). -/
  | clusterStart (core : Nat)
  /-- CLUSTER_RESERVATION: a rectangle is reserved for a waiting cluster (06 R143). -/
  | clusterReservation (basin part sub : Nat)
  /-- RESERVATION_AGED: a cluster reservation ages (06 R143). -/
  | reservationAged (pg : Nat)
  /-- POINT_RELEASE: the walker releases the next point of a row (06 R134). -/
  | pointRelease (nest : Nat)
  /-- POINT_RETIRE: a point whose groups have all executed END retires (06 R135). -/
  | pointRetire (team : Nat)
  /-- BOUND_PROPOSAL_APPLY: the walker answers the oldest bound proposal (07 R146). -/
  | boundProposalApply (nest : Nat)
  /-- NEST_LAUNCH_DEFERRED: a launch waits for a free nest (06 R129). -/
  | nestLaunchDeferred (q : Nat)
  /-- PERSISTENT_START: every team of a persistent nest starts (06 R144). -/
  | persistentStart (nest : Nat)
  /-- GANG_COMMIT: a gang reservation commits (06 R145). -/
  | gangCommit (gang : Nat)
  /-- GANG_TIMEOUT: a gang reservation times out (06 R145). -/
  | gangTimeout (gang : Nat)
  /-- ARRAY_ENTRY_START: the head of an array FIFO starts, fused with its followers (10 R202). -/
  | arrayEntryStart (core : Nat)
  /-- RESIDENCY_FIRST_USE: the head of an array FIFO gives its residency an instance (10 R182). -/
  | residencyFirstUse (core : Nat)
  /-- ARRAY_OP_COMPLETE: the running array operation completes and arrives (10 R209). -/
  | arrayOpComplete (core : Nat)
  /-- INSTANCE_DISCARD: an instance superseded by a load is discarded (10 R186). -/
  | instanceDiscard (core ctx handle : Nat)
  /-- TRANSFER_PERFORM: the oldest work item of a Sluice context performs (11 R220). -/
  | transferPerform (core sctx : Nat)
  /-- SLUICE_INDEX_LOAD_DATA: the data of an index load returns (11 R211). -/
  | sluiceIndexLoadData (core sctx : Nat)
  /-- SLUICE_CONTEXT_ENDED: a Sluice context at SL.END becomes ENDED (11 R212). -/
  | sluiceContextEnded (core sctx : Nat)
  /-- ENGINE_COMPLETE: an engine word lands its data and writes its stamp (12 R236). -/
  | engineComplete (id : Nat)
  /-- GATHER_COUNT_RETURN: the count of a GATHER returns (12 R240). -/
  | gatherCountReturn (id : Nat)
  /-- ENGINE_LATE_FAULT: a failure found by an engine after issue faults the nest (12 R238). -/
  | engineLateFault (id : Nat)
  /-- COLLECTIVE_MESSAGE: a message of another rank of a communicator arrives (12 R244). -/
  | collectiveMessage (vd comm rank seq : Nat) (cmd : List Nat) (data : List Byte)
  /-- COLLECTIVE_TIMEOUT: a collective word ends in a timeout error (12 R245). -/
  | collectiveTimeout (id : Nat)
  /-- LINK_PATH_FAILURE: the path to a rank fails (12 R245). -/
  | linkPathFailure (vd comm rank : Nat)
  /-- LINK_RETRY: flits lost to errors on a Cascade link port are sent again (01 R8, 12 R244). -/
  | linkRetry (link : Fin 18)
  /-- TRAP_ENTRY: a trap that waited for outstanding results enters the handler (14 R254). -/
  | trapEntry (team grp : Nat) (slot : Bool)
  /-- TEAM_HALT: the halt of a team ends and its groups are recorded (14 R250). -/
  | teamHalt (team : Nat)
  /-- NEST_ABORT: a faulted nest aborts and its record is written (14 R251). -/
  | nestAbort (nest : Nat)
  /-- DEFERRED_RELEASE_WB: a replaced unwritable line faults its owning context (14 R259). -/
  | deferredReleaseWb (core line : Nat)
  /-- ECC_ERROR: a soft error is corrected, or an uncorrectable one reaches a nest: team and group, and PC of the word, that consumed the data, when known (14 R249). -/
  | eccError (nest : Option Nat) (grp : Option (Nat × Nat)) (pc : W64) (addr : Nat)
  /-- STOP_REQUEST: a stop request of an outgoing context reaches a core (14 R260). -/
  | stopRequest (core ctx : Nat)
  /-- GROUP_STOP: a group stops at a reconvergence point (14 R260). -/
  | groupStop (team grp : Nat)
  /-- FORCED_SAVE: a group that has not stopped within 50 us stops (14 R260). -/
  | forcedSave (team grp : Nat)
  /-- CONTEXT_SAVE: the stopped teams of a core are saved (14 R260). -/
  | contextSave (core : Nat)
  /-- DRAIN_END: the drain of a core ends and is charged (14 R263). -/
  | drainEnd (core : Nat)
  /-- CONTEXT_RESUME: a saved team resumes on a core (14 R261). -/
  | contextResume (team core : Nat)
  /-- SLICE_START: a partition starts the slice of its next virtual device (15 R269). -/
  | sliceStart (part : Nat)
  /-- WEIGHT0_PREEMPT: a weight-0 slice yields to a weighted virtual device (15 R270). -/
  | weight0Preempt (part : Nat)
  /-- FOUNTAINHEAD_STEP: a Fountainhead core processes one packet in each ready lane (16 R285). -/
  | fountainheadStep (fh : Nat)
  /-- PACKET_COMPLETE: a packet completes with its writes in order (16 R287). -/
  | packetComplete (q slotNo : Nat)
  /-- SLUICE_PACKET_FAULT: a fault of a packet context fails its packet (18 R296). -/
  | sluicePacketFault (core sctx : Nat)
  /-- DOORBELL_WRITE: BAR0 of a virtual function is written: a doorbell is rung (16 R293, 19 R301). -/
  | doorbellWrite (at_ : VfOffset) (value : W64)
  /-- WIDX_RECONCILE: a lane reads WIDX for a lost doorbell (16 R294). -/
  | widxReconcile (q : Nat)
  /-- QUEUE_ENABLE: QCTL is written with ENABLE 1 (16 R282). -/
  | queueEnable (q : Nat) (ctx : BitVec 16) (vd : BitVec 7)
  /-- QUEUE_DISABLE: QCTL is written with ENABLE 0 (16 R282). -/
  | queueDisable (ctl : QueueCtl)
  /-- REGION_ENTRY_WRITE: a region register is written (01 R18). -/
  | regionEntryWrite (basin entry reg : Nat) (value : W64)
  /-- REGION_COMMIT: a region map is committed (01 R19). -/
  | regionCommit (basin : Nat) (value : W64)
  /-- REGION_DRAIN_END: the drain after a region commit ends (01 R19). -/
  | regionDrainEnd (basin : Nat)
  /-- SHOOTDOWN_START: a shootdown starts (15 R280). -/
  | shootdownStart (ch : Nat) (base ctl : W64)
  /-- SHOOTDOWN_COMPLETE: a shootdown completes (01 R26). -/
  | shootdownComplete (ch : Nat)
  /-- CTX_CREATE: a context is created (15 R279). -/
  | ctxCreate (ctx : Nat)
  /-- CTX_DESTROY: the destruction of a context starts (15 R279). -/
  | ctxDestroy (ctx : Nat)
  /-- CTX_DESTROY_COMPLETE: the destruction of a context ends (15 R279). -/
  | ctxDestroyComplete (ctx : Nat)
  /-- PORT_WRITE: a requester port register is written (15 R266). -/
  | portWrite (port : Nat) (value : W64)
  /-- VD_CFG_WRITE: VD_CFG is written (15 R268). -/
  | vdCfgWrite (vd : Nat) (value : W64)
  /-- VD_POLICY_WRITE: VD_POLICY is written (15 R268). -/
  | vdPolicyWrite (vd : Nat) (value : W64)
  /-- TEN_WAYS_WRITE: TEN_WAYS is written (15 R273). -/
  | tenWaysWrite (ten basin : Nat) (value : W64)
  /-- REGISTER_WRITE: any other control register is written (00 R6). -/
  | registerWrite (reg : CtlReg) (value : W64)
  /-- HOST_WRITE: the host or a peer writes device memory (08 R170). -/
  | hostWrite (addr : Nat) (data : List Byte)
  /-- HOST_READ: the host or a peer reads device memory, or the host a register (08 R167, 19 R298). -/
  | hostRead (x : HostSpace) (n : Nat) (hold : Bool)
  /-- HOST_ATOMIC_REQUEST: an AtomicOp of the host performs at the device (19 R298). -/
  | hostAtomicRequest (op : AOp) (addr n : Nat) (a b : W64)
  /-- HOST_ATOMIC_COMPLETION: the host completes or refuses an AtomicOp of a word (09 R173). -/
  | hostAtomicCompletion (team grp : Nat) (slot : Bool) (ok : Bool)
  /-- UNSUPPORTED_HOST_REQUEST: a host request that the device does not accept (19 R298). -/
  | unsupportedHostRequest (addr : Nat)
  /-- ATS_INVALIDATION: an ATS invalidation (19 R299). -/
  | atsInvalidation (page : Nat)
  /-- BACK_INVALIDATION_RESPONSE: the host answers a back-invalidation (19 R300). -/
  | backInvalidationResponse (line : Nat)
  /-- SENSOR_SAMPLE: power per rail, each die and the cold plate are sampled (19 R302). -/
  | sensorSample (rails : List Nat) (temps : Temps)
  /-- FIRMWARE_UPDATE: a firmware image is offered (19 R304). -/
  | firmwareUpdate (version : Nat) (sigOk : Bool)
  /-- DEVICE_RESET: the device resets (19 R304). -/
  | deviceReset
  /-- ATTESTATION_SIGN: an attestation request is signed (19 R305). -/
  | attestationSign (nonce : Nat)
  /-- KEY_WRITE: a tenant key is written (15 R276). -/
  | keyWrite (key : Nat) (value : List W64)
  /-- POWER_LOSS: power is lost (19 R305). -/
  | powerLoss
  deriving DecidableEq, Repr

end Sys2Proof
end

