-- ==== Sys2Proof/Machine/FieldRules.lean ====
section
/-! DEFINITION. The field rules of decoding (04 R85, Table 4-10): `Instr.fieldsOk` is order 4 (codes an entry
accepts, guards, UNI and BU), `Instr.regsOk` the part of order 5 that needs no team, and `Instr.pairOk` order 6.
`Instr.operands` lists the registers that the fields of a word name; it serves order 5, the allocation check
of 03 R54 and the lookahead rule of 04 R80. -/

namespace Sys2Proof

/-! ### Guards -/

/-- The unguarded form G = 0b0111. -/
def Guard.always : Guard := ⟨false, 7⟩

/-- G = 0b1111 raises ILLEGAL in every word and every half (04 R76). -/
def Guard.ok (g : Guard) : Bool := !(g.neg && g.p == 7)

/-- A uniform word carries G = 0b0111 (04 R77). -/
def Guard.okUni (g : Guard) (uni : Bool) : Bool := g.ok && (!uni || g == Guard.always)

/-! ### Types, scopes and orderings -/

/-- I32 or N32. -/
def Ty.isInt32 : Ty → Bool
  | .i32 | .n32 => true
  | _ => false

/-- An integer type of either width. -/
def Ty.isInt : Ty → Bool
  | .i32 | .n32 | .i64 | .n64 => true
  | _ => false

/-- I32 or I64. -/
def Ty.isSignedInt : Ty → Bool
  | .i32 | .i64 => true
  | _ => false

/-- F32, BF16X2 or F16X2 (21 R347). -/
def Ty.isFloat : Ty → Bool
  | .f32 | .bf16x2 | .f16x2 => true
  | _ => false

/-- A type whose operands are register pairs (03 R54). -/
def Ty.is64 : Ty → Bool
  | .i64 | .n64 => true
  | _ => false

/-- Registers that one operand of a type takes. -/
def Ty.width (t : Ty) : Nat := if t.is64 then 2 else 1

/-- The scope code of 08 Table 8-3. -/
def Scope.code : Scope → Nat
  | .grp => 0 | .team => 1 | .clus => 2 | .dev => 3 | .ten => 4 | .sys => 5

/-- log2 of the bytes of an access. -/
def Sz.code : Sz → Nat
  | .b8 => 0 | .b16 => 1 | .b32 => 2 | .b64 => 3 | .b128 => 4

/-- Bytes of an access. -/
def Sz.bytes (z : Sz) : Nat := 2 ^ z.code

/-- Registers that the data of an access takes (04 R73). -/
def Sz.width : Sz → Nat
  | .b64 => 2
  | .b128 => 4
  | _ => 1

/-- Scopes that the scratchpad words accept (08 R159). -/
def Scope.isLocal (c : Scope) : Bool := c.code ≤ 2

/-- ORD 0 accepts only SCOPE 0, and ORD 4 only SZ 2 and 3 (21 R368, 23 R433). -/
def ordPlainOk (o : MemOrd) (c : Scope) (z : Sz) : Bool :=
  match o with
  | .plain => c == .grp
  | .rlx => z == .b32 || z == .b64
  | _ => true

/-- Operation and size pairs of 04 Table 4-5. -/
def AOp.szOk (op : AOp) (z : Sz) : Bool :=
  match op with
  | .fadd | .bfadd => z == .b32
  | _ => z == .b32 || z == .b64

/-- Operation and type pairs of 22 Table 22-22. -/
def ROp.tyOk (op : ROp) (t : Ty) : Bool :=
  match op with
  | .add => t == .i32 || t == .n32
  | .fadd => t == .f32
  | .min | .max => t == .i32 || t == .n32 || t == .f32
  | .and | .or | .xor => t == .b32

/-! ### Special register selectors (03 Table 3-2) -/

/-- Selectors that SRD accepts. -/
def selListed (sel : Nat) : Bool :=
  sel ≤ 0x004 || (0x010 ≤ sel && sel ≤ 0x013) || (0x020 ≤ sel && sel ≤ 0x022) || sel == 0x030 || sel == 0x031 ||
  (0x040 ≤ sel && sel ≤ 0x044) || sel == 0x050 || (0x060 ≤ sel && sel ≤ 0x06F) || sel == 0x070 || sel == 0x071

/-- Selectors of 64-bit registers: CLK, TIME, TPC and TADDR. -/
def selWide (sel : Nat) : Bool := sel == 0x030 || sel == 0x031 || sel == 0x041 || sel == 0x043

/-- Selectors that SWR accepts (23 R436). -/
def selWritable (sel : Nat) : Bool :=
  sel == 0x020 || sel == 0x021 || sel == 0x050 || (0x040 ≤ sel && sel ≤ 0x044)

/-- A value that FPM accepts (03 R58): bits [31:8] and [4:3] clear and RM below 5. -/
def fpmOk (m : W32) : Bool := m &&& 0xFFFFFF18 == 0 && (m &&& 7).toNat < 5

/-- A tile width (02 R40). -/
def ltileOk (w : Nat) : Bool := w == 2 || w == 4 || w == 8 || w == 16 || w == 32

/-! ### Order 4: fields and codes -/

/-- BU together with UNI is ILLEGAL (04 R69). -/
def uniBuOk (uni bu : Bool) : Bool := !(uni && bu)

/-- The amount of a shift or shuffle may broadcast only in a vector word. -/
def ShAmt.ok (uni : Bool) : ShAmt → Bool
  | .reg bu _ => uniBuOk uni bu
  | .imm _ => true

/-- Order 4 of 04 Table 4-10, for the codes that the payload can still hold. -/
def Instr.fieldsOk : Instr → Bool
  | .brev f | .clz f | .not f | .popc f => f.g.okUni f.uni
  | .iabs f | .ineg f => f.g.okUni f.uni && f.ty.isSignedInt
  | .fabs f | .fneg f => f.g.okUni f.uni && f.ty.isFloat
  | .fclass f => f.g.ok
  | .and f | .or f | .xor f | .fmin f | .fmax f => f.g.okUni f.uni && uniBuOk f.uni f.bu
  | .imax f | .imin f => f.g.okUni f.uni && uniBuOk f.uni f.bu && f.ty.isInt
  | .imul f | .imulh f => f.g.okUni f.uni && uniBuOk f.uni f.bu && f.ty.isInt32
  | .iadd f | .isub f => f.g.okUni f.uni && uniBuOk f.uni f.bu && f.ty.isInt
  | .imad f => f.g.okUni f.uni && uniBuOk f.uni f.bu && f.ty.isInt32
  | .andi f | .ori f | .xori f => f.g.okUni f.uni
  | .iaddi f => f.g.okUni f.uni && f.ty.isInt32
  | .bfi f => f.g.okUni f.uni && uniBuOk f.uni f.bu
  | .bfx f => f.g.okUni f.uni
  | .isetp f => f.g.ok && f.ty.isInt
  | .fsetp f => f.g.ok
  | .lea f => f.g.okUni f.uni && uniBuOk f.uni f.bu
  | .mov f => f.g.okUni (f.kind == .ss)
  | .movi f => f.g.okUni f.uni
  | .plop f => f.g.ok
  | .rot f | .sar f | .shl f | .shr f => f.g.okUni f.uni && f.amt.ok f.uni
  | .sel f => f.g.ok
  | .fadd f | .fmul f | .fsub f => f.g.okUni f.uni && uniBuOk f.uni f.bu
  | .ffma f => f.g.okUni f.uni && uniBuOk f.uni f.bu
  | .fdot2 f => f.g.ok
  | .hfma2 f => f.g.ok
  | .fcos f | .fexp2 f | .flog2 f | .fsin f | .ftanh f => f.g.ok
  | .frcp f | .frsq f | .fsqrt f => f.g.ok
  | .fdiv f => f.g.ok
  | .frnd f => f.g.okUni f.uni
  | .amaxrd _ => true
  | .cvt f => f.g.okUni f.uni
  | .cvtd f => f.g.ok
  | .cvtq f => f.g.ok && f.c != f.d
  | .fmode (.imm m) => fpmOk (m.setWidth 32)
  | .fmode (.reg _) => true
  | .pack f => f.g.ok
  | .seed f | .itemq f => f.g.ok
  | .unpk f => f.g.ok
  | .bcast _ => true
  | .ltile f => ltileOk f.w.toNat
  | .redux f => f.g.ok && f.op.tyOk f.ty
  | .scan f => f.g.ok && f.op.tyOk f.ty
  | .shfl f => f.g.ok
  | .vote f => f.g.ok && (f.kind == .ballot || f.d.toNat < 8)
  | .xrecv f => f.slot.toNat < 16
  | .xsend f => f.slot.toNat < 16
  | .bra f => f.g.ok
  | .brau _ | .call _ | .mjoin _ | .looph _ => true
  | .exitw g | .nop g => g.ok
  | .endw | .joinw | .ret | .bar | .cbar | .nbar | .tret | .yieldw => true
  | .rep f => f.sd.toNat ≤ 4 && f.sa.toNat ≤ 4 && f.sb.toNat ≤ 4 && f.sc.toNat ≤ 4
  | .atom f => f.g.ok && f.op.szOk f.sz && f.ord != .plain
  | .atoms f => f.g.ok && f.op.szOk f.sz && f.ord != .plain && f.scope.isLocal
  | .cctl f => f.g.ok && (f.range || f.b == 0)
  | .ld f => f.g.ok && (f.ord == .plain || f.ord == .acq || f.ord == .rlx) && ordPlainOk f.ord f.scope f.sz
  | .lds f => f.g.ok && (f.ord == .plain || f.ord == .acq || f.ord == .rlx) && ordPlainOk f.ord f.scope f.sz &&
      f.scope.isLocal
  | .ldu f => (f.ord == .plain || f.ord == .acq || f.ord == .rlx) && ordPlainOk f.ord f.scope f.sz
  | .mwait f => f.ty.isInt
  | .pref f => f.g.ok
  | .st f => f.g.ok && (f.ord == .plain || f.ord == .rel || f.ord == .rlx) && ordPlainOk f.ord f.scope f.sz
  | .sts f => f.g.ok && (f.ord == .plain || f.ord == .rel || f.ord == .rlx) && ordPlainOk f.ord f.scope f.sz &&
      f.scope.isLocal
  | .barv f => f.n != 0
  | .binit _ | .binv _ | .bwait _ | .fence _ | .sigop _ => true
  | .xfence f => f.src != 0 && f.dst != 0 && f.src.toNat < 64 && f.dst.toNat < 64
  | .nbnd f => f.dim == 0
  | .nlaunch f => f.hdr.extractLsb' 1 2 != 3 && f.hdr.extractLsb' 3 2 != 3
  | .nqry _ => true
  | .mxDist f | .mxRun f => f.g.ok
  | .mxDrain _ | .mxTopk _ | .mxZero _ | .mxRalloc _ | .mxRevoke _ | .mxRload _ | .mxRpin _ | .mxRqry _ => true
  | .fork _ | .rdv _ | .a2av _ | .aredc _ | .esort _ | .gather _ | .scatter _ => true
  | .bkpt f | .trapw f => f.g.ok
  | .srd f => f.g.okUni f.uni && selListed f.sel.toNat && !(f.uni && f.sel == 0)
  | .swr f => selWritable f.sel.toNat
  | .halfIadd f | .halfIsub f | .halfAnd f | .halfOr f | .halfXor f | .halfShl f | .halfShr f | .halfSar f
  | .halfImin f | .halfImax f | .halfMov f | .halfImul f | .halfFadd f | .halfFsub f | .halfFmul f
  | .halfFmin f | .halfFmax f => f.h1.g.ok && f.h2.g.ok
  | .slArrive f => f.n != 0
  | .slSegnext f => f.d != f.a
  | .slSetd f => f.field.toNat < 12
  | .slAdd _ | .slBmexp _ | .slBr _ | .slCbload _ | .slCmp _ | .slEnd _ | .slIdx _ | .slLoop _ | .slMad _
  | .slMov _ | .slSignal _ | .slStamp _ | .slWait _ | .slXfer _ => true
  -- no word encodes a step of the device
  | .longLatencyResult _ _ _ | .rejectedReissue _ _ _ | .requestAged _ _ _ | .presenceBitSet _ _
  | .pageWalk _ _ _ | .barrierComplete _ | .rendezvousServe _ _ | .itemqPushServed _ | .mwaitWake _ _ _
  | .mwaitTimeout _ _ _ | .mwaitHostPoll _ _ _ | .holderPromotion _ | .specWindowCommit _ _
  | .ingressDrain _ _ _ | .collapseEvent _ _ | .collapseRelease _ _ | .replicaPlacement _ _ _ | .teamStart _
  | .clusterStart _ | .clusterReservation _ _ _ | .reservationAged _ | .pointRelease _ | .pointRetire _
  | .boundProposalApply _ | .nestLaunchDeferred _ | .persistentStart _ | .gangCommit _ | .gangTimeout _
  | .arrayEntryStart _ | .residencyFirstUse _ | .arrayOpComplete _ | .instanceDiscard _ _ _
  | .transferPerform _ _ | .sluiceContextEnded _ _ | .engineComplete _ | .gatherCountReturn _
  | .engineLateFault _ | .collectiveMessage _ _ _ _ _ _ | .collectiveTimeout _ | .linkPathFailure _ _ _
  | .linkRetry _ | .trapEntry _ _ _ | .teamHalt _ | .nestAbort _ | .deferredReleaseWb _ _ | .eccError _ _ _ _
  | .stopRequest _ _ | .groupStop _ _ | .forcedSave _ _ | .contextSave _ | .drainEnd _ | .contextResume _ _
  | .sliceStart _ | .weight0Preempt _ | .fountainheadStep _ | .packetComplete _ _ | .sluicePacketFault _ _
  | .doorbellWrite _ _ | .widxReconcile _ | .queueEnable _ _ _ | .queueDisable _ | .regionEntryWrite _ _ _ _
  | .regionCommit _ _ | .regionDrainEnd _ | .shootdownStart _ _ _ | .shootdownComplete _ | .ctxCreate _
  | .ctxDestroy _ | .ctxDestroyComplete _ | .portWrite _ _ | .vdCfgWrite _ _ | .vdPolicyWrite _ _
  | .tenWaysWrite _ _ _ | .registerWrite _ _ | .hostWrite _ _ | .hostRead _ _ _ | .hostAtomicRequest _ _ _ _ _
  | .hostAtomicCompletion _ _ _ _ | .unsupportedHostRequest _ | .atsInvalidation _ | .backInvalidationResponse _
  | .sensorSample _ _ | .firmwareUpdate _ _ | .deviceReset | .attestationSign _ | .keyWrite _ _
  | .sluiceIndexLoadData _ _ | .powerLoss => false

/-- The steps of the device that no word encodes. -/
def Instr.isEvent : Instr → Bool
  | .longLatencyResult _ _ _ | .rejectedReissue _ _ _ | .requestAged _ _ _ | .presenceBitSet _ _
  | .pageWalk _ _ _ | .barrierComplete _ | .rendezvousServe _ _ | .itemqPushServed _ | .mwaitWake _ _ _
  | .mwaitTimeout _ _ _ | .mwaitHostPoll _ _ _ | .holderPromotion _ | .specWindowCommit _ _
  | .ingressDrain _ _ _ | .collapseEvent _ _ | .collapseRelease _ _ | .replicaPlacement _ _ _ | .teamStart _
  | .clusterStart _ | .clusterReservation _ _ _ | .reservationAged _ | .pointRelease _ | .pointRetire _
  | .boundProposalApply _ | .nestLaunchDeferred _ | .persistentStart _ | .gangCommit _ | .gangTimeout _
  | .arrayEntryStart _ | .residencyFirstUse _ | .arrayOpComplete _ | .instanceDiscard _ _ _
  | .transferPerform _ _ | .sluiceContextEnded _ _ | .engineComplete _ | .gatherCountReturn _
  | .engineLateFault _ | .collectiveMessage _ _ _ _ _ _ | .collectiveTimeout _ | .linkPathFailure _ _ _
  | .linkRetry _ | .trapEntry _ _ _ | .teamHalt _ | .nestAbort _ | .deferredReleaseWb _ _ | .eccError _ _ _ _
  | .stopRequest _ _ | .groupStop _ _ | .forcedSave _ _ | .contextSave _ | .drainEnd _ | .contextResume _ _
  | .sliceStart _ | .weight0Preempt _ | .fountainheadStep _ | .packetComplete _ _ | .sluicePacketFault _ _
  | .doorbellWrite _ _ | .widxReconcile _ | .queueEnable _ _ _ | .queueDisable _ | .regionEntryWrite _ _ _ _
  | .regionCommit _ _ | .regionDrainEnd _ | .shootdownStart _ _ _ | .shootdownComplete _ | .ctxCreate _
  | .ctxDestroy _ | .ctxDestroyComplete _ | .portWrite _ _ | .vdCfgWrite _ _ | .vdPolicyWrite _ _
  | .tenWaysWrite _ _ _ | .registerWrite _ _ | .hostWrite _ _ | .hostRead _ _ _ | .hostAtomicRequest _ _ _ _ _
  | .hostAtomicCompletion _ _ _ _ | .unsupportedHostRequest _ | .atsInvalidation _ | .backInvalidationResponse _
  | .sensorSample _ _ | .firmwareUpdate _ _ | .deviceReset | .attestationSign _ | .keyWrite _ _
  | .sluiceIndexLoadData _ _ | .powerLoss => true
  | _ => false

/-! ### Operands -/

/-- The kinds of register that a field names. -/
inductive RegKind where
  | v | s | p
  deriving DecidableEq, Repr

/-- One register field: the registers n to n + width − 1 of a kind, read, or written when `dest`. -/
structure Operand where
  kind : RegKind
  n : Nat
  width : Nat
  dest : Bool
  deriving DecidableEq, Repr

/-- A v or s field, by the uniform form of the word. -/
def vsOp (uni : Bool) (n : BitVec 8) (width : Nat) (dest : Bool) : Operand :=
  ⟨if uni then .s else .v, n.toNat, width, dest⟩
/-- A v field. -/
def vOp (n : BitVec 8) (width : Nat) (dest : Bool) : Operand := ⟨.v, n.toNat, width, dest⟩
/-- An s field. -/
def sOp (n : BitVec 8) (width : Nat) (dest : Bool) : Operand := ⟨.s, n.toNat, width, dest⟩
/-- A predicate field. -/
def pOp (n : BitVec 3) (dest : Bool) : Operand := ⟨.p, n.toNat, 1, dest⟩
/-- The predicate that a guard reads. -/
def Guard.op (g : Guard) : Operand := pOp g.p false

/-- The register that the amount of a shift or shuffle reads, if any. -/
def ShAmt.ops (uni : Bool) : ShAmt → List Operand
  | .reg bu b => [vsOp (uni || bu) b 1 false]
  | .imm _ => []

/-- The registers of one half: D is read unless the half is MOV (04 R84). -/
def Half.ops (h : Half) (op : HOp) : List Operand :=
  [h.g.op, vOp h.d 1 true] ++ (if op = .mov then [] else [vOp h.d 1 false]) ++
    (if h.im then [] else [vOp h.s 1 false])

/-- The first half-opcode of a pair word. -/
def Instr.hop1 : Instr → Option HOp
  | .halfIadd _ => some .iadd | .halfIsub _ => some .isub | .halfAnd _ => some .and | .halfOr _ => some .or
  | .halfXor _ => some .xor | .halfShl _ => some .shl | .halfShr _ => some .shr | .halfSar _ => some .sar
  | .halfImin _ => some .imin | .halfImax _ => some .imax | .halfMov _ => some .mov | .halfImul _ => some .imul
  | .halfFadd _ => some .fadd | .halfFsub _ => some .fsub | .halfFmul _ => some .fmul | .halfFmin _ => some .fmin
  | .halfFmax _ => some .fmax
  | _ => none

/-- The payload of a pair word. -/
def Instr.pair? : Instr → Option PairF
  | .halfIadd f | .halfIsub f | .halfAnd f | .halfOr f | .halfXor f | .halfShl f | .halfShr f | .halfSar f
  | .halfImin f | .halfImax f | .halfMov f | .halfImul f | .halfFadd f | .halfFsub f | .halfFmul f
  | .halfFmin f | .halfFmax f => some f
  | _ => none

/-- Every register field of a core or pair word, the guard included (04 R79, R80). -/
def Instr.operands : Instr → List Operand
  | .brev f | .clz f | .not f | .popc f => [f.g.op, vsOp f.uni f.d 1 true, vsOp f.uni f.a 1 false]
  | .iabs f | .ineg f | .fabs f | .fneg f =>
      [f.g.op, vsOp f.uni f.d f.ty.width true, vsOp f.uni f.a f.ty.width false]
  | .fclass f => [f.g.op, vOp f.d 1 true, vOp f.a 1 false]
  | .and f | .or f | .xor f | .fmin f | .fmax f =>
      [f.g.op, vsOp f.uni f.d 1 true, vsOp f.uni f.a 1 false, vsOp (f.uni || f.bu) f.b 1 false]
  | .imax f | .imin f | .imul f | .imulh f =>
      [f.g.op, vsOp f.uni f.d f.ty.width true, vsOp f.uni f.a f.ty.width false,
        vsOp (f.uni || f.bu) f.b f.ty.width false]
  | .iadd f | .isub f =>
      [f.g.op, vsOp f.uni f.d f.ty.width true, vsOp f.uni f.a f.ty.width false,
        vsOp (f.uni || f.bu) f.b f.ty.width false]
  | .imad f =>
      [f.g.op, vsOp f.uni f.d 1 true, vsOp f.uni f.a 1 false, vsOp (f.uni || f.bu) f.b 1 false,
        vsOp f.uni f.c 1 false]
  | .andi f | .ori f | .xori f => [f.g.op, vsOp f.uni f.d 1 true, vsOp f.uni f.a 1 false]
  | .iaddi f => [f.g.op, vsOp f.uni f.d 1 true, vsOp f.uni f.a 1 false]
  | .bfi f =>
      [f.g.op, vsOp f.uni f.d 1 true, vsOp f.uni f.a 1 false, vsOp (f.uni || f.bu) f.b 1 false]
  | .bfx f => [f.g.op, vsOp f.uni f.d 1 true, vsOp f.uni f.a 1 false]
  | .isetp f =>
      [f.g.op, pOp f.p true, vOp f.a f.ty.width false, vsOp f.bu f.b f.ty.width false]
  | .fsetp f => [f.g.op, pOp f.p true, vOp f.a 1 false, vsOp f.bu f.b 1 false]
  | .lea f =>
      [f.g.op, vsOp f.uni f.d 2 true, vsOp f.uni f.a 2 false, vsOp (f.uni || f.bu) f.b 1 false]
  | .mov f =>
      [f.g.op, vsOp (f.kind == .ss) f.d 1 true, vsOp (f.kind != .vv) f.src 1 false]
  | .movi f => [f.g.op, vsOp f.uni f.d 1 true]
  | .plop f => [f.g.op, pOp f.p true, pOp f.a false, pOp f.b false]
  | .rot f | .sar f | .shl f | .shr f =>
      [f.g.op, vsOp f.uni f.d 1 true, vsOp f.uni f.a 1 false] ++ f.amt.ops f.uni
  | .sel f => [f.g.op, vOp f.d 1 true, vOp f.a 1 false, vsOp f.bu f.b 1 false, pOp f.pc false]
  | .fadd f | .fmul f | .fsub f =>
      [f.g.op, vsOp f.uni f.d 1 true, vsOp f.uni f.a 1 false, vsOp (f.uni || f.bu) f.b 1 false]
  | .ffma f =>
      [f.g.op, vsOp f.uni f.d 1 true, vsOp f.uni f.a 1 false, vsOp (f.uni || f.bu) f.b 1 false,
        vsOp f.uni f.c 1 false]
  | .fdot2 f => [f.g.op, vOp f.d 1 true, vOp f.a 1 false, vsOp f.bu f.b 1 false, vOp f.c 1 false]
  | .hfma2 f => [f.g.op, vOp f.d 1 true, vOp f.a 1 false, vsOp f.bu f.b 1 false, vOp f.c 1 false]
  | .fcos f | .fexp2 f | .flog2 f | .fsin f | .ftanh f => [f.g.op, vOp f.d 1 true, vOp f.a 1 false]
  | .frcp f | .frsq f | .fsqrt f => [f.g.op, vOp f.d 1 true, vOp f.a 1 false]
  | .fdiv f => [f.g.op, vOp f.d 1 true, vOp f.a 1 false, vsOp f.bu f.b 1 false]
  | .frnd f => [f.g.op, vsOp f.uni f.d 1 true, vsOp f.uni f.a 1 false]
  | .amaxrd f => [sOp f.d 2 true]
  | .cvt f => [f.g.op, vsOp f.uni f.d 1 true, vsOp f.uni f.a 1 false]
  | .cvtd f => [f.g.op, vOp f.d 1 true, vOp f.a 1 false, vsOp f.bu f.b 1 false]
  | .cvtq f => [f.g.op, vOp f.d 1 true, vOp f.a 1 false, vOp f.c 1 true]
  | .fmode (.imm _) => []
  | .fmode (.reg a) => [sOp a 1 false]
  | .pack f => [f.g.op, vOp f.d 1 true, vOp f.a 1 false, vsOp f.bu f.b 1 false]
  | .seed f | .itemq f => [f.g.op, vOp f.a 1 false]
  | .unpk f => [f.g.op, vOp f.d 1 true, vOp f.a 1 false]
  | .bcast f => [sOp f.d 1 true, vOp f.a 1 false]
  | .redux f => [f.g.op, vOp f.d 1 true, vOp f.a 1 false]
  | .scan f => [f.g.op, vOp f.d 1 true, vOp f.a 1 false]
  | .shfl f => [f.g.op, vOp f.d 1 true, vOp f.a 1 false] ++ f.amt.ops false
  | .vote f =>
      [f.g.op, if f.kind = .ballot then vOp f.d 1 true else ⟨.p, f.d.toNat, 1, true⟩, pOp f.a false]
  | .xrecv f => [vOp f.d 1 true]
  | .xsend f => [vOp f.a 1 false]
  | .bra f => [f.g.op]
  | .brau f => [sOp f.a 1 false]
  | .looph f => [vOp f.d 1 true]
  | .exitw g | .nop g => [g.op]
  | .call _ | .mjoin _ | .ltile _ | .rep _ => []
  | .endw | .joinw | .ret | .bar | .cbar | .nbar | .tret | .yieldw => []
  | .atom f => [f.g.op, vOp f.d f.sz.width true, vsOp f.as f.a 2 false, vOp f.b f.sz.width false]
  | .atoms f => [f.g.op, vOp f.d f.sz.width true, vsOp f.as f.a 1 false, vOp f.b f.sz.width false]
  | .cctl f => [f.g.op, vsOp f.as f.a 2 false] ++ (if f.range then [vOp f.b 1 false] else [])
  | .ld f => [f.g.op, vOp f.d f.sz.width true, vsOp f.as f.a 2 false]
  | .lds f => [f.g.op, vOp f.d f.sz.width true, vsOp f.as f.a 1 false]
  | .ldu f => [sOp f.d f.sz.width true, sOp f.a 2 false]
  | .mwait f =>
      [sOp f.d f.ty.width true, sOp f.a 2 false, sOp f.b f.ty.width false, sOp f.c 1 false, pOp f.p true]
  | .pref f => [f.g.op, vsOp f.as f.a 2 false]
  | .st f => [f.g.op, vsOp f.as f.a 2 false, vOp f.b f.sz.width false]
  | .sts f => [f.g.op, vsOp f.as f.a 1 false, vOp f.b f.sz.width false]
  | .barv f => [sOp f.a 1 false]
  | .binit f => [pOp f.p true, sOp f.a 1 false, sOp f.b 1 false]
  | .binv f => [sOp f.a 1 false]
  | .bwait f => [pOp f.p true, sOp f.a 1 false]
  | .fence _ | .xfence _ => []
  | .sigop f => [sOp f.a 2 false, sOp f.b 2 false]
  | .nbnd f => [pOp f.p true, sOp f.a 1 false]
  | .nlaunch f => [pOp f.p true, sOp f.a 2 false, sOp f.b 1 false, sOp f.c 2 false]
  | .nqry f => [sOp f.d (if f.what.toNat < 2 then 2 else 1) true]
  | .mxDist f | .mxRun f => [f.g.op, vOp f.a 1 false, vOp f.b 1 false, vOp f.c 2 false]
  | .mxDrain f | .mxTopk f | .mxZero f => [sOp f.a 2 false, sOp f.b 1 false]
  | .mxRalloc f | .mxRqry f => [sOp f.d 1 true, sOp f.a 1 false]
  | .mxRevoke f => [sOp f.a 1 false]
  | .mxRload f => [sOp f.a 1 false, sOp f.b 1 false, sOp f.c 1 false]
  | .mxRpin f => [sOp f.a 1 false]
  | .fork f => [sOp f.d 1 true, sOp f.a 2 false, sOp f.b 2 false]
  | .rdv f => [pOp f.p true, sOp f.a 1 false]
  | .a2av f | .aredc f | .esort f | .scatter f => [sOp f.a 2 false]
  | .gather f => [sOp f.d 1 true, sOp f.a 2 false]
  | .bkpt f | .trapw f => [f.g.op]
  | .srd f => [f.g.op, vsOp f.uni f.d (if selWide f.sel.toNat then 2 else 1) true]
  | .swr f => [sOp f.a (if selWide f.sel.toNat then 2 else 1) false]
  | .halfIadd f => f.h1.ops .iadd ++ f.h2.ops f.op2
  | .halfIsub f => f.h1.ops .isub ++ f.h2.ops f.op2
  | .halfAnd f => f.h1.ops .and ++ f.h2.ops f.op2
  | .halfOr f => f.h1.ops .or ++ f.h2.ops f.op2
  | .halfXor f => f.h1.ops .xor ++ f.h2.ops f.op2
  | .halfShl f => f.h1.ops .shl ++ f.h2.ops f.op2
  | .halfShr f => f.h1.ops .shr ++ f.h2.ops f.op2
  | .halfSar f => f.h1.ops .sar ++ f.h2.ops f.op2
  | .halfImin f => f.h1.ops .imin ++ f.h2.ops f.op2
  | .halfImax f => f.h1.ops .imax ++ f.h2.ops f.op2
  | .halfMov f => f.h1.ops .mov ++ f.h2.ops f.op2
  | .halfImul f => f.h1.ops .imul ++ f.h2.ops f.op2
  | .halfFadd f => f.h1.ops .fadd ++ f.h2.ops f.op2
  | .halfFsub f => f.h1.ops .fsub ++ f.h2.ops f.op2
  | .halfFmul f => f.h1.ops .fmul ++ f.h2.ops f.op2
  | .halfFmin f => f.h1.ops .fmin ++ f.h2.ops f.op2
  | .halfFmax f => f.h1.ops .fmax ++ f.h2.ops f.op2
  | _ => []

/-! ### Order 5: register rules that need no team -/

/-- s fields lie below 160, pairs are even, quads are multiples of four, and p7 is no destination (03 R54, 04 R73, R78). -/
def Operand.ok (o : Operand) : Bool :=
  o.n % o.width == 0 &&
  match o.kind with
  | .v => true
  | .s => o.n + o.width ≤ 160
  | .p => !(o.dest && o.n == 7)

/-- Order 5 of 04 Table 4-10 without the allocation and the grant. -/
def Instr.regsOk (i : Instr) : Bool := i.operands.all Operand.ok

/-- A v field lies below the allocation of the team (03 R54). -/
def Operand.allocOk (alloc : Nat) (o : Operand) : Bool :=
  match o.kind with
  | .v => o.n + o.width ≤ alloc
  | _ => true

/-- The v fields of a word lie below the allocation of the team (03 R54). -/
def Instr.allocOk (alloc : Nat) (i : Instr) : Bool := i.operands.all (Operand.allocOk alloc)

/-! ### Order 6: the pair rules (04 R84) -/

/-- The distinct v registers that the halves of a pair read. -/
def PairF.reads (f : PairF) (op1 : HOp) : List Nat :=
  (((f.h1.ops op1 ++ f.h2.ops f.op2).filter fun o => o.kind == .v && !o.dest).map (·.n)).eraseDups

/-- The three bank rules of 04 R84. -/
def PairF.ok (f : PairF) (op1 : HOp) : Bool :=
  (f.h1.d.toNat % 4 != f.h2.d.toNat % 4) &&
  ([0, 1, 2, 3].all fun b => ((f.reads op1).filter fun n => n % 4 == b).length ≤ 2) &&
  (f.h2.d != f.h1.d) && (f.h2.im || f.h2.s != f.h1.d)

/-- Order 6 of 04 Table 4-10. -/
def Instr.pairOk (i : Instr) : Bool :=
  match i.pair?, i.hop1 with
  | some f, some op => f.ok op
  | _, _ => true

/-- Two fields name a common register (04 R79). -/
def Operand.meets (a b : Operand) : Bool :=
  a.kind == b.kind && a.n < b.n + b.width && b.n < a.n + a.width

end Sys2Proof
end

