-- ==== Sys2Proof/WellFormed.lean ====
section
/-! DEFINITION. Well-formed instructions: the words whose fields the manual accepts. -/

namespace Sys2Proof

/-- A word that decoding accepts: its codes are accepted (order 4 of 04 Table 4-10), its register fields follow
03 R54 (order 5), and a pair meets the bank rules (order 6). -/
def WellFormed (i : Instr) : Bool := i.fieldsOk && i.regsOk && i.pairOk

end Sys2Proof
end

