-- ==== Sys2Proof/Decode.lean ====
section
/-! DEFINITION. The encoder and the decoder (04 R65 to R86, 11 R216). Decoding reads the fields that an entry
names, and accepts the word only when those fields, encoded again, give the same 64 bits: a reserved bit set, a
fixed field at another value, or a code that the entry does not list is thereby refused. The checks follow
04 Table 4-10 in order. -/

namespace Sys2Proof

/-! ### Codes of the field enumerations -/

/-- G of 04 Table 4-2. -/
def Guard.bits (g : Guard) : BitVec 4 := BitVec.ofNat 4 (g.neg.toNat * 8 + g.p.toNat)
/-- G of 04 Table 4-2, read back. -/
def Guard.ofBits (x : BitVec 4) : Guard := ⟨x.toNat / 8 == 1, x.setWidth 3⟩

/-- 04 Table 4-3. -/
def Ty.bits : Ty → BitVec 3
  | .i32 => 0 | .n32 => 1 | .i64 => 2 | .n64 => 3 | .f32 => 4 | .bf16x2 => 5 | .f16x2 => 6 | .b32 => 7
/-- 04 Table 4-3, read back. -/
def Ty.ofBits (x : BitVec 3) : Ty :=
  match x.toNat with
  | 0 => .i32 | 1 => .n32 | 2 => .i64 | 3 => .n64 | 4 => .f32 | 5 => .bf16x2 | 6 => .f16x2 | _ => .b32

/-- TY of the words that accept I32 and N32 only. -/
def signedBits (signed : Bool) : BitVec 3 := if signed then 0 else 1

/-- 22 R404: TY 0, 1 or 7. -/
def ShTy.bits : ShTy → BitVec 3
  | .i32 => 0 | .n32 => 1 | .b32 => 7
/-- 22 R404, read back. -/
def ShTy.ofBits (x : BitVec 3) : Option ShTy :=
  match x.toNat with
  | 0 => some .i32 | 1 => some .n32 | 7 => some .b32 | _ => none

/-- 21 R348. -/
def Rnd.code : Rnd → Nat
  | .fpmode => 0 | .rne => 1 | .rtz => 2 | .rup => 3 | .rdn => 4 | .sr => 5
/-- 21 R348, read back. -/
def Rnd.ofCode : Nat → Option Rnd
  | 0 => some .fpmode | 1 => some .rne | 2 => some .rtz | 3 => some .rup | 4 => some .rdn | 5 => some .sr
  | _ => none

/-- 21 R365. -/
def Cmp.code : Cmp → Nat
  | .eq => 0 | .ne => 1 | .lt => 2 | .le => 3 | .gt => 4 | .ge => 5
/-- 21 R365, read back. -/
def Cmp.ofCode : Nat → Option Cmp
  | 0 => some .eq | 1 => some .ne | 2 => some .lt | 3 => some .le | 4 => some .gt | 5 => some .ge
  | _ => none

/-- 21 Table 21-17. -/
def FCmp.code : FCmp → Nat
  | .eq => 0 | .ne => 1 | .lt => 2 | .le => 3 | .gt => 4 | .ge => 5 | .num => 6
  | .equ => 8 | .neu => 9 | .ltu => 10 | .leu => 11 | .gtu => 12 | .geu => 13 | .nan => 14
/-- 21 Table 21-17, read back. -/
def FCmp.ofCode : Nat → Option FCmp
  | 0 => some .eq | 1 => some .ne | 2 => some .lt | 3 => some .le | 4 => some .gt | 5 => some .ge
  | 6 => some .num | 8 => some .equ | 9 => some .neu | 10 => some .ltu | 11 => some .leu | 12 => some .gtu
  | 13 => some .geu | 14 => some .nan | _ => none

/-- 08 Table 8-3, read back. -/
def Scope.ofCode : Nat → Option Scope
  | 0 => some .grp | 1 => some .team | 2 => some .clus | 3 => some .dev | 4 => some .ten | 5 => some .sys
  | _ => none

/-- ORD of 04 Table 4-4. -/
def MemOrd.code : MemOrd → Nat
  | .plain => 0 | .acq => 1 | .rel => 2 | .ar => 3 | .rlx => 4
/-- ORD of 04 Table 4-4, read back. -/
def MemOrd.ofCode : Nat → Option MemOrd
  | 0 => some .plain | 1 => some .acq | 2 => some .rel | 3 => some .ar | 4 => some .rlx
  | _ => none

/-- SZ of 04 Table 4-4, read back. -/
def Sz.ofCode : Nat → Option Sz
  | 0 => some .b8 | 1 => some .b16 | 2 => some .b32 | 3 => some .b64 | 4 => some .b128
  | _ => none

/-- 04 Table 4-5. -/
def AOp.code : AOp → Nat
  | .add => 0 | .mins => 1 | .maxs => 2 | .minu => 3 | .maxu => 4 | .and => 5 | .or => 6 | .xor => 7
  | .exch => 8 | .cas => 9 | .fadd => 10 | .bfadd => 11
/-- 04 Table 4-5, read back. -/
def AOp.ofCode : Nat → Option AOp
  | 0 => some .add | 1 => some .mins | 2 => some .maxs | 3 => some .minu | 4 => some .maxu | 5 => some .and
  | 6 => some .or | 7 => some .xor | 8 => some .exch | 9 => some .cas | 10 => some .fadd | 11 => some .bfadd
  | _ => none

/-- 04 Table 4-8. -/
def HOp.code : HOp → Nat
  | .iadd => 0 | .isub => 1 | .and => 2 | .or => 3 | .xor => 4 | .shl => 5 | .shr => 6 | .sar => 7
  | .imin => 8 | .imax => 9 | .mov => 10 | .imul => 11
  | .fadd => 0x10 | .fsub => 0x11 | .fmul => 0x12 | .fmin => 0x13 | .fmax => 0x14
/-- 04 Table 4-8, read back. -/
def HOp.ofCode : Nat → Option HOp
  | 0 => some .iadd | 1 => some .isub | 2 => some .and | 3 => some .or | 4 => some .xor | 5 => some .shl
  | 6 => some .shr | 7 => some .sar | 8 => some .imin | 9 => some .imax | 10 => some .mov | 11 => some .imul
  | 0x10 => some .fadd | 0x11 => some .fsub | 0x12 => some .fmul | 0x13 => some .fmin | 0x14 => some .fmax
  | _ => none

/-- 20 Table 20-26. -/
def CvtFmt.code : CvtFmt → Nat
  | .f32 => 0 | .bf16 => 1 | .f16 => 2 | .e4m3 => 3 | .e5m2 => 4 | .e2m1 => 5 | .i8 => 6 | .i4 => 7
  | .i32 => 13 | .n32 => 14
/-- 20 Table 20-26, read back. -/
def CvtFmt.ofCode : Nat → Option CvtFmt
  | 0 => some .f32 | 1 => some .bf16 | 2 => some .f16 | 3 => some .e4m3 | 4 => some .e5m2 | 5 => some .e2m1
  | 6 => some .i8 | 7 => some .i4 | 13 => some .i32 | 14 => some .n32 | _ => none

/-- 22 Table 22-22. -/
def ROp.code : ROp → Nat
  | .add => 0 | .fadd => 1 | .min => 2 | .max => 3 | .and => 4 | .or => 5 | .xor => 6
/-- 22 Table 22-22, read back. -/
def ROp.ofCode : Nat → Option ROp
  | 0 => some .add | 1 => some .fadd | 2 => some .min | 3 => some .max | 4 => some .and | 5 => some .or
  | 6 => some .xor | _ => none

/-- 22 R409. -/
def ShMode.code : ShMode → Nat
  | .idx => 0 | .up => 1 | .down => 2 | .xor => 3
/-- 22 R409, read back. -/
def ShMode.ofBits (x : BitVec 2) : ShMode :=
  match x.toNat with
  | 0 => .idx | 1 => .up | 2 => .down | _ => .xor

/-- 23 R441. -/
def VoteKind.code : VoteKind → Nat
  | .all => 0 | .any => 1 | .ballot => 2
/-- 23 R441, read back. -/
def VoteKind.ofCode : Nat → Option VoteKind
  | 0 => some .all | 1 => some .any | 2 => some .ballot | _ => none

/-- 20 R337: D[1:0]. -/
def CctlOp.code : CctlOp → Nat
  | .wb => 1 | .inv => 2 | .wbinv => 3
/-- 20 R337, read back. -/
def CctlOp.ofCode : Nat → Option CctlOp
  | 1 => some .wb | 2 => some .inv | 3 => some .wbinv | _ => none

/-- 23 R410. -/
def SigKind.code : SigKind → Nat
  | .add => 0 | .sub => 1 | .set => 2
/-- 23 R410, read back. -/
def SigKind.ofCode : Nat → Option SigKind
  | 0 => some .add | 1 => some .sub | 2 => some .set | _ => none

/-- 11 Table 11-3, SL.BR. -/
def SlCond.code : SlCond → Nat
  | .al => 0 | .t => 1 | .f => 2
/-- 11 Table 11-3, read back. -/
def SlCond.ofCode : Nat → Option SlCond
  | 0 => some .al | 1 => some .t | 2 => some .f | _ => none

/-- 11 Table 11-3, SL.XFER. -/
def XMode.code : XMode → Nat
  | .copy => 0 | .decode => 1 | .convert => 2
/-- 11 Table 11-3, read back. -/
def XMode.ofCode : Nat → Option XMode
  | 0 => some .copy | 1 => some .decode | 2 => some .convert | _ => none

/-! ### Layouts: from fields to words -/

/-- The fields of the F layout (04 Table 4-2); the defaults are those of a field that an entry does not use. -/
structure RawF where
  la : BitVec 4 := 0
  g : BitVec 4 := 7
  d : BitVec 8 := 0
  a : BitVec 8 := 0
  b : BitVec 8 := 0
  c : BitVec 8 := 0
  uni : Bool := false
  bu : Bool := false
  ty : BitVec 3 := 0
  fx : Nat := 0
  deriving DecidableEq, Repr

/-- The F layout (04 Table 4-2). -/
def packF (op : Nat) (r : RawF) : W64 :=
  BitVec.ofNat 64 (op * 2 ^ 55 + r.la.toNat * 2 ^ 51 + r.g.toNat * 2 ^ 47 + r.d.toNat * 2 ^ 39 +
    r.a.toNat * 2 ^ 31 + r.b.toNat * 2 ^ 23 + r.c.toNat * 2 ^ 15 + r.uni.toNat * 2 ^ 14 +
    r.bu.toNat * 2 ^ 13 + r.ty.toNat * 2 ^ 10 + r.fx)

/-- The FI layout (04 R70). -/
def packFI (op : Nat) (g : BitVec 4) (d a : BitVec 8) (imm : BitVec 24) (uni : Bool) (ty : BitVec 3)
    (fx : Nat) : W64 :=
  BitVec.ofNat 64 (op * 2 ^ 55 + g.toNat * 2 ^ 47 + d.toNat * 2 ^ 39 + a.toNat * 2 ^ 31 +
    imm.toNat * 2 ^ 7 + uni.toNat * 2 ^ 6 + ty.toNat * 2 ^ 3 + fx)

/-- The MOVI layout (04 R71). -/
def packMovi (op : Nat) (g : BitVec 4) (d : BitVec 8) (imm : BitVec 32) (uni : Bool) : W64 :=
  BitVec.ofNat 64 (op * 2 ^ 55 + g.toNat * 2 ^ 47 + d.toNat * 2 ^ 39 + imm.toNat * 2 ^ 7 +
    uni.toNat * 2 ^ 6)

/-- The FM layout (04 Table 4-4). -/
def packFM (op : Nat) (la g : BitVec 4) (d a b : BitVec 8) (off : BitVec 13) (scope : Nat) (as : Bool)
    (sz ord : Nat) : W64 :=
  BitVec.ofNat 64 (op * 2 ^ 55 + la.toNat * 2 ^ 51 + g.toNat * 2 ^ 47 + d.toNat * 2 ^ 39 +
    a.toNat * 2 ^ 31 + b.toNat * 2 ^ 23 + off.toNat * 2 ^ 10 + scope * 2 ^ 7 + as.toNat * 2 ^ 6 +
    sz * 2 ^ 3 + ord)

/-- The FA layout (04 R74). -/
def packFA (op : Nat) (la g : BitVec 4) (d a b : BitVec 8) (aop : Nat) (off : BitVec 9) (scope : Nat)
    (as : Bool) (sz ord : Nat) : W64 :=
  BitVec.ofNat 64 (op * 2 ^ 55 + la.toNat * 2 ^ 51 + g.toNat * 2 ^ 47 + d.toNat * 2 ^ 39 +
    a.toNat * 2 ^ 31 + b.toNat * 2 ^ 23 + aop * 2 ^ 19 + off.toNat * 2 ^ 10 + scope * 2 ^ 7 +
    as.toNat * 2 ^ 6 + sz * 2 ^ 3 + ord)

/-- The FB layout (04 R75); `m0` is M[0]. -/
def packFB (op : Nat) (g : BitVec 4) (aux : BitVec 8) (off : BitVec 24) (m0 : Bool) : W64 :=
  BitVec.ofNat 64 (op * 2 ^ 55 + g.toNat * 2 ^ 47 + aux.toNat * 2 ^ 39 + off.toNat * 2 ^ 15 + m0.toNat)

/-- One half of a pair word (04 Table 4-7). -/
def packHalf (op : HOp) (h : Half) : Nat :=
  op.code * 2 ^ 25 + h.d.toNat * 2 ^ 17 + h.s.toNat * 2 ^ 9 + h.im.toNat * 2 ^ 8 + h.g.bits.toNat * 2 ^ 4

/-- A pair word (04 R81). -/
def packPair (op : HOp) (f : PairF) : W64 :=
  BitVec.ofNat 64 (2 ^ 63 + packHalf op f.h1 * 2 ^ 32 + packHalf f.op2 f.h2 * 2)

/-- The Sluice layout (11 Table 11-2). -/
def packSL (op sub : Nat) (d a : BitVec 4) (im : Bool) (imm : BitVec 32) : W64 :=
  BitVec.ofNat 64 (op * 2 ^ 55 + 7 * 2 ^ 47 + sub * 2 ^ 43 + d.toNat * 2 ^ 39 + a.toNat * 2 ^ 35 +
    im.toNat * 2 ^ 32 + imm.toNat)

/-- The two forms of FMODE (21 R357). -/
def packFmode (op : Nat) : FmodeF → W64
  | .imm m => packF op { fx := m.toNat }
  | .reg a => packF op { a := a, fx := 512 }

/-- Bits [30:7] of REP (02 Table 2-3). -/
def repImm (f : RepF) : BitVec 24 :=
  BitVec.ofNat 24 (f.n.toNat * 2 ^ 18 + f.sd.toNat * 2 ^ 15 + f.sa.toNat * 2 ^ 12 + f.sb.toNat * 2 ^ 9 +
    f.sc.toNat * 2 ^ 6)

/-- The B field of a shift or shuffle. -/
def ShAmt.bBits : ShAmt → BitVec 8
  | .reg _ b => b
  | .imm _ => 0
/-- The BU bit of a shift or shuffle. -/
def ShAmt.buBit : ShAmt → Bool
  | .reg bu _ => bu
  | .imm _ => false
/-- The FX bits of the amount: the immediate marker at `sel` and the value at `lo`. -/
def ShAmt.fxCode (sel lo : Nat) : ShAmt → Nat
  | .reg _ _ => 0
  | .imm n => 2 ^ sel + n.toNat * 2 ^ lo

/-- IM of a Sluice word. -/
def SlB.imBit : SlB → Bool
  | .reg _ => false
  | .imm _ => true
/-- IMM of a Sluice word whose register B stands in IMM[3:0]. -/
def SlB.immBits : SlB → BitVec 32
  | .reg b => b.setWidth 32
  | .imm v => v
/-- The A field of SL.MOV. -/
def SlB.movA : SlB → BitVec 4
  | .reg b => b
  | .imm _ => 0
/-- IMM of SL.MOV. -/
def SlB.movImm : SlB → BitVec 32
  | .reg _ => 0
  | .imm v => v

/-! ### Fields of a word -/

/-- Bits lo + n − 1 to lo of a word. -/
def fld (w : W64) (lo n : Nat) : BitVec n := (w >>> lo).setWidth n
/-- Bit i of a word. -/
def wBit (w : W64) (i : Nat) : Bool := fld w i 1 == 1#1
/-- The opcode. -/
def wOp (w : W64) : Nat := (fld w 55 8).toNat
/-- LA. -/
def wLa (w : W64) : BitVec 4 := fld w 51 4
/-- The guard. -/
def wG (w : W64) : Guard := Guard.ofBits (fld w 47 4)
/-- D, or AUX of the FB layout. -/
def wD (w : W64) : BitVec 8 := fld w 39 8
/-- The predicate that D names. -/
def wPd (w : W64) : BitVec 3 := fld w 39 3
/-- A. -/
def wA (w : W64) : BitVec 8 := fld w 31 8
/-- B. -/
def wB (w : W64) : BitVec 8 := fld w 23 8
/-- C. -/
def wC (w : W64) : BitVec 8 := fld w 15 8
/-- UNI of the F layout. -/
def wUni (w : W64) : Bool := wBit w 14
/-- BU. -/
def wBu (w : W64) : Bool := wBit w 13
/-- TY of the F layout. -/
def wTy (w : W64) : Ty := Ty.ofBits (fld w 10 3)
/-- FX of the F layout. -/
def wFx (w : W64) : Nat := (fld w 0 10).toNat
/-- SCOPE of the FM and FA layouts. -/
def wScope (w : W64) : Nat := (fld w 7 3).toNat
/-- SZ of the FM and FA layouts. -/
def wSz (w : W64) : Nat := (fld w 3 3).toNat
/-- ORD of the FM and FA layouts. -/
def wOrd (w : W64) : Nat := (fld w 0 3).toNat
/-- SUB of the Sluice layout. -/
def slSub (w : W64) : Nat := (fld w 43 4).toNat
/-- D of the Sluice layout. -/
def slD (w : W64) : BitVec 4 := fld w 39 4
/-- A of the Sluice layout. -/
def slA (w : W64) : BitVec 4 := fld w 35 4
/-- The B operand of the Sluice layout. -/
def slBv (w : W64) : SlB := if wBit w 32 then .imm (fld w 0 32) else .reg (fld w 0 4)


/-! ### The encoder -/

/-- The word of an instruction, written from the layouts of 04 and 11; a step of the device has no word and gives 0. -/
def encode : Instr → W64
  | .and f =>
      packF 0x01 { g := f.g.bits, d := f.d, a := f.a, b := f.b, uni := f.uni, bu := f.bu, ty := Ty.b32.bits }
  | .andi f => packFI 0x02 f.g.bits f.d f.a f.imm f.uni Ty.b32.bits 0
  | .bfi f =>
      packF 0x03
        { g := f.g.bits, d := f.d, a := f.a, b := f.b, uni := f.uni, bu := f.bu, ty := Ty.b32.bits,
          fx := f.pos.toNat * 32 + f.len.toNat }
  | .bfx f =>
      packF 0x04
        { g := f.g.bits, d := f.d, a := f.a, uni := f.uni, ty := signedBits f.signed,
          fx := f.pos.toNat * 32 + f.len.toNat }
  | .brev f => packF 0x05 { g := f.g.bits, d := f.d, a := f.a, uni := f.uni, ty := Ty.b32.bits }
  | .clz f => packF 0x06 { g := f.g.bits, d := f.d, a := f.a, uni := f.uni, ty := Ty.b32.bits }
  | .iabs f => packF 0x07 { g := f.g.bits, d := f.d, a := f.a, uni := f.uni, ty := f.ty.bits }
  | .iadd f =>
      packF 0x08
        { g := f.g.bits, d := f.d, a := f.a, b := f.b, uni := f.uni, bu := f.bu, ty := f.ty.bits,
          fx := f.sat.toNat }
  | .iaddi f => packFI 0x09 f.g.bits f.d f.a f.imm f.uni f.ty.bits f.sat.toNat
  | .imad f =>
      packF 0x0A
        { g := f.g.bits, d := f.d, a := f.a, b := f.b, c := f.c, uni := f.uni, bu := f.bu,
          ty := f.ty.bits }
  | .imax f => packF 0x0B { g := f.g.bits, d := f.d, a := f.a, b := f.b, uni := f.uni, bu := f.bu, ty := f.ty.bits }
  | .imin f => packF 0x0C { g := f.g.bits, d := f.d, a := f.a, b := f.b, uni := f.uni, bu := f.bu, ty := f.ty.bits }
  | .imul f => packF 0x0D { g := f.g.bits, d := f.d, a := f.a, b := f.b, uni := f.uni, bu := f.bu, ty := f.ty.bits }
  | .imulh f =>
      packF 0x0E { g := f.g.bits, d := f.d, a := f.a, b := f.b, uni := f.uni, bu := f.bu, ty := f.ty.bits }
  | .ineg f => packF 0x0F { g := f.g.bits, d := f.d, a := f.a, uni := f.uni, ty := f.ty.bits }
  | .isetp f =>
      packF 0x10
        { g := f.g.bits, d := f.p.setWidth 8, a := f.a, b := f.b, bu := f.bu, ty := f.ty.bits,
          fx := f.cmp.code }
  | .isub f =>
      packF 0x11
        { g := f.g.bits, d := f.d, a := f.a, b := f.b, uni := f.uni, bu := f.bu, ty := f.ty.bits,
          fx := f.sat.toNat }
  | .lea f =>
      packF 0x12
        { g := f.g.bits, d := f.d, a := f.a, b := f.b, uni := f.uni, bu := f.bu, ty := signedBits f.signed,
          fx := f.sh.toNat }
  | .mov f =>
      packF 0x13
        { g := f.g.bits, d := f.d, a := if f.kind = .vs then 0 else f.src, b := if f.kind = .vs then f.src else 0,
          uni := f.kind == .ss, bu := f.kind == .vs, ty := Ty.b32.bits }
  | .movi f => packMovi 0x14 f.g.bits f.d f.imm f.uni
  | .not f => packF 0x15 { g := f.g.bits, d := f.d, a := f.a, uni := f.uni, ty := Ty.b32.bits }
  | .or f => packF 0x16 { g := f.g.bits, d := f.d, a := f.a, b := f.b, uni := f.uni, bu := f.bu, ty := Ty.b32.bits }
  | .ori f => packFI 0x17 f.g.bits f.d f.a f.imm f.uni Ty.b32.bits 0
  | .plop f =>
      packF 0x18 { g := f.g.bits, d := f.p.setWidth 8, a := f.a.setWidth 8, b := f.b.setWidth 8, fx := f.lut.toNat }
  | .popc f => packF 0x19 { g := f.g.bits, d := f.d, a := f.a, uni := f.uni, ty := Ty.b32.bits }
  | .rot f =>
      packF 0x1A
        { g := f.g.bits, d := f.d, a := f.a, b := f.amt.bBits, uni := f.uni, bu := f.amt.buBit, ty := f.ty.bits,
          fx := f.amt.fxCode 5 0 }
  | .sar f =>
      packF 0x1B
        { g := f.g.bits, d := f.d, a := f.a, b := f.amt.bBits, uni := f.uni, bu := f.amt.buBit, ty := f.ty.bits,
          fx := f.amt.fxCode 5 0 }
  | .sel f =>
      packF 0x1C
        { g := f.g.bits, d := f.d, a := f.a, b := f.b, c := f.pc.setWidth 8, bu := f.bu,
          ty := Ty.b32.bits }
  | .shl f =>
      packF 0x1D
        { g := f.g.bits, d := f.d, a := f.a, b := f.amt.bBits, uni := f.uni, bu := f.amt.buBit, ty := f.ty.bits,
          fx := f.amt.fxCode 5 0 }
  | .shr f =>
      packF 0x1E
        { g := f.g.bits, d := f.d, a := f.a, b := f.amt.bBits, uni := f.uni, bu := f.amt.buBit, ty := f.ty.bits,
          fx := f.amt.fxCode 5 0 }
  | .xor f =>
      packF 0x1F { g := f.g.bits, d := f.d, a := f.a, b := f.b, uni := f.uni, bu := f.bu, ty := Ty.b32.bits }
  | .xori f => packFI 0x20 f.g.bits f.d f.a f.imm f.uni Ty.b32.bits 0
  | .fabs f => packF 0x22 { g := f.g.bits, d := f.d, a := f.a, uni := f.uni, ty := f.ty.bits }
  | .fadd f =>
      packF 0x23
        { g := f.g.bits, d := f.d, a := f.a, b := f.b, uni := f.uni, bu := f.bu, ty := Ty.f32.bits,
          fx := f.rm.code }
  | .fclass f => packF 0x24 { g := f.g.bits, d := f.d, a := f.a, ty := Ty.f32.bits }
  | .fcos f => packF 0x25 { la := f.la, g := f.g.bits, d := f.d, a := f.a, ty := Ty.f32.bits }
  | .fdiv f =>
      packF 0x26
        { la := f.la, g := f.g.bits, d := f.d, a := f.a, b := f.b, bu := f.bu, ty := Ty.f32.bits,
          fx := f.rm.code }
  | .fdot2 f =>
      packF 0x27
        { g := f.g.bits, d := f.d, a := f.a, b := f.b, c := f.c, bu := f.bu, ty := Ty.bf16x2.bits,
          fx := f.rm.code }
  | .fexp2 f => packF 0x28 { la := f.la, g := f.g.bits, d := f.d, a := f.a, ty := Ty.f32.bits }
  | .ffma f =>
      packF 0x29
        { g := f.g.bits, d := f.d, a := f.a, b := f.b, c := f.c, uni := f.uni, bu := f.bu, ty := Ty.f32.bits,
          fx := f.rm.code }
  | .flog2 f => packF 0x2A { la := f.la, g := f.g.bits, d := f.d, a := f.a, ty := Ty.f32.bits }
  | .fmax f =>
      packF 0x2B { g := f.g.bits, d := f.d, a := f.a, b := f.b, uni := f.uni, bu := f.bu, ty := Ty.f32.bits }
  | .fmin f =>
      packF 0x2C { g := f.g.bits, d := f.d, a := f.a, b := f.b, uni := f.uni, bu := f.bu, ty := Ty.f32.bits }
  | .fmul f =>
      packF 0x2D
        { g := f.g.bits, d := f.d, a := f.a, b := f.b, uni := f.uni, bu := f.bu, ty := Ty.f32.bits,
          fx := f.rm.code }
  | .fneg f => packF 0x2E { g := f.g.bits, d := f.d, a := f.a, uni := f.uni, ty := f.ty.bits }
  | .frcp f => packF 0x2F { la := f.la, g := f.g.bits, d := f.d, a := f.a, ty := Ty.f32.bits, fx := f.rm.code }
  | .frnd f => packF 0x30 { g := f.g.bits, d := f.d, a := f.a, uni := f.uni, ty := Ty.f32.bits, fx := f.rm.code }
  | .frsq f => packF 0x31 { la := f.la, g := f.g.bits, d := f.d, a := f.a, ty := Ty.f32.bits, fx := f.rm.code }
  | .fsetp f =>
      packF 0x32
        { g := f.g.bits, d := f.p.setWidth 8, a := f.a, b := f.b, bu := f.bu, ty := Ty.f32.bits,
          fx := f.cmp.code }
  | .fsin f => packF 0x33 { la := f.la, g := f.g.bits, d := f.d, a := f.a, ty := Ty.f32.bits }
  | .fsqrt f => packF 0x34 { la := f.la, g := f.g.bits, d := f.d, a := f.a, ty := Ty.f32.bits, fx := f.rm.code }
  | .fsub f =>
      packF 0x35
        { g := f.g.bits, d := f.d, a := f.a, b := f.b, uni := f.uni, bu := f.bu, ty := Ty.f32.bits,
          fx := f.rm.code }
  | .ftanh f => packF 0x36 { la := f.la, g := f.g.bits, d := f.d, a := f.a, ty := Ty.f32.bits }
  | .hfma2 f =>
      packF 0x37
        { g := f.g.bits, d := f.d, a := f.a, b := f.b, c := f.c, bu := f.bu,
          ty := if f.f16 then Ty.f16x2.bits else Ty.bf16x2.bits, fx := f.rm.code }
  | .amaxrd f => packF 0x38 { d := f.d, fx := f.clr.toNat * 8 + f.slot.toNat }
  | .cvt f =>
      packF 0x39
        { g := f.g.bits, d := f.d, a := f.a, b := BitVec.ofNat 8 (f.dst.code * 16 + f.src.code), uni := f.uni,
          ty := Ty.b32.bits, fx := f.sat.toNat * 8 + f.rm.code }
  | .cvtd f =>
      packF 0x3A { g := f.g.bits, d := f.d, a := f.a, b := f.b, bu := f.bu, ty := Ty.f32.bits, fx := f.slot.toNat }
  | .cvtq f => packF 0x3B { g := f.g.bits, d := f.d, a := f.a, c := f.c, ty := Ty.f32.bits, fx := f.slot.toNat }
  | .fmode f => packFmode 0x3C f
  | .pack f =>
      packF 0x3D
        { g := f.g.bits, d := f.d, a := f.a, b := f.b, bu := f.bu, ty := Ty.f32.bits,
          fx := f.pos.toNat * 8 + f.slot.toNat }
  | .seed f => packF 0x3E { g := f.g.bits, a := f.a }
  | .unpk f =>
      packF 0x3F { g := f.g.bits, d := f.d, a := f.a, ty := Ty.f32.bits, fx := f.idx.toNat * 8 + f.slot.toNat }
  | .bcast f => packF 0x40 { d := f.d, a := f.a, ty := Ty.b32.bits, fx := f.lane.toNat }
  | .ltile f => packF 0x41 { fx := f.w.toNat }
  | .redux f => packF 0x42 { g := f.g.bits, d := f.d, a := f.a, ty := f.ty.bits, fx := f.op.code }
  | .scan f => packF 0x43 { g := f.g.bits, d := f.d, a := f.a, ty := f.ty.bits, fx := f.excl.toNat * 8 + f.op.code }
  | .shfl f =>
      packF 0x44
        { g := f.g.bits, d := f.d, a := f.a, b := f.amt.bBits, bu := f.amt.buBit, ty := Ty.b32.bits,
          fx := f.mode.code + f.amt.fxCode 2 3 }
  | .vote f => packF 0x45 { g := f.g.bits, d := f.d, a := f.a.setWidth 8, fx := f.kind.code }
  | .xrecv f => packF 0x46 { la := f.la, d := f.d, ty := Ty.b32.bits, fx := f.slot.toNat }
  | .xsend f => packF 0x47 { a := f.a, ty := Ty.b32.bits, fx := f.slot.toNat }
  | .bra f => packFB 0x48 f.g.bits 0 f.off false
  | .brau f => packFB 0x49 7 f.a f.off f.eq
  | .call f => packFB 0x4A 7 0 f.off false
  | .endw => packF 0x4B {}
  | .exitw f => packF 0x4C { g := f.bits }
  | .itemq f => packF 0x4D { g := f.g.bits, a := f.a }
  | .joinw => packF 0x4E {}
  | .looph f => packFB 0x4F 7 f.d f.off false
  | .mjoin f => packFB 0x50 7 0 f.off false
  | .nop f => packF 0x51 { g := f.bits }
  | .rep f => packFI 0x52 7 0 0 (repImm f) false 0 0
  | .ret => packF 0x53 {}
  | .atom f => packFA 0x58 f.la f.g.bits f.d f.a f.b f.op.code f.off f.scope.code f.as f.sz.code f.ord.code
  | .atoms f => packFA 0x59 f.la f.g.bits f.d f.a f.b f.op.code f.off f.scope.code f.as f.sz.code f.ord.code
  | .cctl f => packFM 0x5A 0 f.g.bits (BitVec.ofNat 8 f.op.code) f.a f.b f.off 0 f.as f.range.toNat 0
  | .ld f => packFM 0x5B f.la f.g.bits f.d f.a 0 f.off f.scope.code f.as f.sz.code f.ord.code
  | .lds f => packFM 0x5C f.la f.g.bits f.d f.a 0 f.off f.scope.code f.as f.sz.code f.ord.code
  | .ldu f => packFM 0x5D f.la 7 f.d f.a 0 f.off f.scope.code true f.sz.code f.ord.code
  | .mwait f =>
      packF 0x5E
        { la := f.la, d := f.d, a := f.a, b := f.b, c := f.c, ty := f.ty.bits,
          fx := f.off.toNat * 64 + f.p.toNat * 8 + f.cmp.code }
  | .pref f => packFM 0x5F 0 f.g.bits (f.cls.setWidth 8) f.a 0 f.off 0 f.as 0 0
  | .st f => packFM 0x60 0 f.g.bits 0 f.a f.b f.off f.scope.code f.as f.sz.code f.ord.code
  | .sts f => packFM 0x61 0 f.g.bits 0 f.a f.b f.off f.scope.code f.as f.sz.code f.ord.code
  | .bar => packF 0x68 {}
  | .barv f => packF 0x69 { a := f.a, fx := f.n.toNat }
  | .binit f => packF 0x6A { d := f.p.setWidth 8, a := f.a, b := f.b }
  | .binv f => packF 0x6B { a := f.a }
  | .bwait f => packF 0x6C { d := f.p.setWidth 8, a := f.a, fx := f.ph.toNat }
  | .cbar => packF 0x6D {}
  | .fence f => packF 0x6E { fx := f.spec.toNat * 8 + f.scope.code }
  | .nbar => packF 0x6F {}
  | .sigop f => packF 0x70 { a := f.a, b := f.b, fx := f.sys.toNat * 4 + f.op.code }
  | .xfence f => packF 0x71 { d := f.src, a := f.dst }
  | .nbnd f => packF 0x78 { d := f.p.setWidth 8, a := f.a, fx := f.dim.toNat }
  | .nlaunch f => packF 0x79 { d := f.p.setWidth 8, a := f.a, b := f.b, c := f.c, fx := f.hdr.toNat }
  | .nqry f => packF 0x7A { la := f.la, d := f.d, fx := f.what.toNat }
  | .mxDist f => packF 0x80 { g := f.g.bits, a := f.a, b := f.b, c := f.c, fx := f.slot.toNat }
  | .mxDrain f => packF 0x81 { a := f.a, b := f.b }
  | .mxRalloc f => packF 0x82 { la := f.la, d := f.d, a := f.a }
  | .mxRevoke f => packF 0x83 { a := f.a }
  | .mxRload f => packF 0x84 { a := f.a, b := f.b, c := f.c, fx := f.slot.toNat }
  | .mxRpin f => packF 0x85 { a := f.a, fx := f.pin.toNat }
  | .mxRqry f => packF 0x86 { la := f.la, d := f.d, a := f.a }
  | .mxRun f => packF 0x87 { g := f.g.bits, a := f.a, b := f.b, c := f.c, fx := f.slot.toNat }
  | .mxTopk f => packF 0x88 { a := f.a, b := f.b }
  | .mxZero f => packF 0x89 { a := f.a, b := f.b }
  | .fork f => packF 0x90 { la := f.la, d := f.d, a := f.a, b := f.b }
  | .rdv f => packF 0x91 { d := f.p.setWidth 8, a := f.a }
  | .a2av f => packF 0x98 { a := f.a }
  | .aredc f => packF 0x99 { a := f.a }
  | .esort f => packF 0x9A { a := f.a }
  | .gather f => packF 0x9B { la := f.la, d := f.d, a := f.a }
  | .scatter f => packF 0x9C { a := f.a }
  | .bkpt f => packFI 0xA0 f.g.bits 0 0 f.imm false 0 0
  | .srd f => packF 0xA1 { g := f.g.bits, d := f.d, uni := f.uni, fx := f.sel.toNat }
  | .swr f => packF 0xA2 { a := f.a, fx := f.sel.toNat }
  | .trapw f => packFI 0xA3 f.g.bits 0 0 f.imm false 0 0
  | .tret => packF 0xA4 {}
  | .yieldw => packF 0xA5 {}
  | .halfIadd f => packPair .iadd f
  | .halfIsub f => packPair .isub f
  | .halfAnd f => packPair .and f
  | .halfOr f => packPair .or f
  | .halfXor f => packPair .xor f
  | .halfShl f => packPair .shl f
  | .halfShr f => packPair .shr f
  | .halfSar f => packPair .sar f
  | .halfImin f => packPair .imin f
  | .halfImax f => packPair .imax f
  | .halfMov f => packPair .mov f
  | .halfImul f => packPair .imul f
  | .halfFadd f => packPair .fadd f
  | .halfFsub f => packPair .fsub f
  | .halfFmul f => packPair .fmul f
  | .halfFmin f => packPair .fmin f
  | .halfFmax f => packPair .fmax f
  | .slAdd f => packSL 0xC0 0 f.d f.a f.b.imBit f.b.immBits
  | .slArrive f => packSL 0xC1 0 0 f.a true (f.n.setWidth 32)
  | .slBmexp f => packSL 0xC2 0 0 f.a false (BitVec.ofNat 32 (f.dst.toNat * 4 + f.src.toNat))
  | .slBr f => packSL 0xC3 f.cond.code 0 0 false f.off
  | .slCbload f => packSL 0xC4 0 0 0 false (f.desc.setWidth 32)
  | .slCmp f => packSL 0xC5 f.cmp.code 0 f.a f.b.imBit f.b.immBits
  | .slEnd f => packSL 0xC6 0 0 0 false (f.status.setWidth 32)
  | .slIdx f => packSL 0xC7 f.size.toNat f.d f.a false f.off
  | .slLoop f => packSL 0xC8 0 0 f.a false f.off
  | .slMad f => packSL 0xC9 0 f.d f.a false (BitVec.ofNat 32 (f.c.toNat * 16 + f.b.toNat))
  | .slMov f => packSL 0xCA 0 f.d (f.src.movA) f.src.imBit (f.src.movImm)
  | .slSegnext f => packSL 0xCB 0 f.d f.a false 0
  | .slSetd f => packSL 0xCC 0 0 f.a false (BitVec.ofNat 32 (f.field.toNat * 16 + f.desc.toNat))
  | .slSignal f => packSL 0xCD (f.sys.toNat * 4 + f.op.code) 0 f.a false (f.b.setWidth 32)
  | .slStamp f => packSL 0xCE 0 0 f.a false (f.b.setWidth 32)
  | .slWait f => packSL 0xCF 0 0 f.a false (BitVec.ofNat 32 f.ph.toNat)
  | .slXfer f => packSL 0xD0 f.mode.code 0 0 false (BitVec.ofNat 32 (f.dst.toNat * 4 + f.src.toNat))
  | _ => 0

/-! ### The decoder -/

/-- The fields of a Un word. -/
def candUn (w : W64) : Option Un :=
  some ⟨wG w, wUni w, wD w, wA w⟩

/-- The fields of a UnT word. -/
def candUnT (w : W64) : Option UnT :=
  some ⟨wG w, wUni w, wTy w, wD w, wA w⟩

/-- The fields of a UnV word. -/
def candUnV (w : W64) : Option UnV :=
  some ⟨wG w, wD w, wA w⟩

/-- The fields of a Bin word. -/
def candBin (w : W64) : Option Bin :=
  some ⟨wG w, wUni w, wBu w, wD w, wA w, wB w⟩

/-- The fields of a BinT word. -/
def candBinT (w : W64) : Option BinT :=
  some ⟨wG w, wUni w, wBu w, wTy w, wD w, wA w, wB w⟩

/-- The fields of a BinS word. -/
def candBinS (w : W64) : Option BinS :=
  some ⟨wG w, wUni w, wBu w, wTy w, wBit w 0, wD w, wA w, wB w⟩

/-- The fields of a TriT word. -/
def candTriT (w : W64) : Option TriT :=
  some ⟨wG w, wUni w, wBu w, wTy w, wD w, wA w, wB w, wC w⟩

/-- The fields of a ImmB word. -/
def candImmB (w : W64) : Option ImmB :=
  some ⟨wG w, wBit w 6, wD w, wA w, fld w 7 24⟩

/-- The fields of a ImmT word. -/
def candImmT (w : W64) : Option ImmT :=
  some ⟨wG w, wBit w 6, Ty.ofBits (fld w 3 3), wBit w 0, wD w, wA w, fld w 7 24⟩

/-- The fields of a BitIns word. -/
def candBitIns (w : W64) : Option BitIns :=
  some ⟨wG w, wUni w, wBu w, wD w, wA w, wB w, fld w 5 5, fld w 0 5⟩

/-- The fields of a BitExt word. -/
def candBitExt (w : W64) : Option BitExt :=
  some ⟨wG w, wUni w, wTy w == .i32, wD w, wA w, fld w 5 5, fld w 0 5⟩

/-- The fields of a SetpI word. -/
def candSetpI (w : W64) : Option SetpI :=
  (Cmp.ofCode (wFx w)).map fun c => ⟨wG w, wBu w, wTy w, c, wPd w, wA w, wB w⟩

/-- The fields of a SetpF word. -/
def candSetpF (w : W64) : Option SetpF :=
  (FCmp.ofCode (wFx w)).map fun c => ⟨wG w, wBu w, c, wPd w, wA w, wB w⟩

/-- The fields of a LeaF word. -/
def candLeaF (w : W64) : Option LeaF :=
  some ⟨wG w, wUni w, wBu w, wTy w == .i32, wD w, wA w, wB w, fld w 0 5⟩

/-- The fields of a MovF word. -/
def candMovF (w : W64) : Option MovF :=
  some ⟨wG w, if wUni w then .ss else if wBu w then .vs else .vv, wD w, if wBu w && !wUni w then wB w else wA w⟩

/-- The fields of a MovImm word. -/
def candMovImm (w : W64) : Option MovImm :=
  some ⟨wG w, wBit w 6, wD w, fld w 7 32⟩

/-- The fields of a PlopF word. -/
def candPlopF (w : W64) : Option PlopF :=
  some ⟨wG w, wPd w, fld w 31 3, fld w 23 3, fld w 0 4⟩

/-- The fields of a Shift word. -/
def candShift (w : W64) : Option Shift :=
  (ShTy.ofBits (fld w 10 3)).map fun t => ⟨wG w, wUni w, t, wD w, wA w, if wBit w 5 then .imm (fld w 0 5) else
  .reg (wBu w) (wB w)⟩

/-- The fields of a SelF word. -/
def candSelF (w : W64) : Option SelF :=
  some ⟨wG w, wBu w, wD w, wA w, wB w, fld w 15 3⟩

/-- The fields of a FBin word. -/
def candFBin (w : W64) : Option FBin :=
  (Rnd.ofCode (wFx w)).map fun r => ⟨wG w, wUni w, wBu w, r, wD w, wA w, wB w⟩

/-- The fields of a FFmaF word. -/
def candFFmaF (w : W64) : Option FFmaF :=
  (Rnd.ofCode (wFx w)).map fun r => ⟨wG w, wUni w, wBu w, r, wD w, wA w, wB w, wC w⟩

/-- The fields of a FTri word. -/
def candFTri (w : W64) : Option FTri :=
  (Rnd.ofCode (wFx w)).map fun r => ⟨wG w, wBu w, r, wD w, wA w, wB w, wC w⟩

/-- The fields of a HTri word. -/
def candHTri (w : W64) : Option HTri :=
  (Rnd.ofCode (wFx w)).map fun r => ⟨wG w, wBu w, wTy w == .f16x2, r, wD w, wA w, wB w, wC w⟩

/-- The fields of a FLong word. -/
def candFLong (w : W64) : Option FLong :=
  some ⟨wLa w, wG w, wD w, wA w⟩

/-- The fields of a FLongR word. -/
def candFLongR (w : W64) : Option FLongR :=
  (Rnd.ofCode (wFx w)).map fun r => ⟨wLa w, wG w, r, wD w, wA w⟩

/-- The fields of a FDivF word. -/
def candFDivF (w : W64) : Option FDivF :=
  (Rnd.ofCode (wFx w)).map fun r => ⟨wLa w, wG w, wBu w, r, wD w, wA w, wB w⟩

/-- The fields of a FRndF word. -/
def candFRndF (w : W64) : Option FRndF :=
  (Rnd.ofCode (wFx w)).map fun r => ⟨wG w, wUni w, r, wD w, wA w⟩

/-- The fields of a AmaxrdF word. -/
def candAmaxrdF (w : W64) : Option AmaxrdF :=
  some ⟨wD w, fld w 0 3, wBit w 3⟩

/-- The fields of a CvtF word. -/
def candCvtF (w : W64) : Option CvtF :=
  (Rnd.ofCode (fld w 0 3).toNat).bind fun r => (CvtFmt.ofCode (fld w 27 4).toNat).bind fun dst => (CvtFmt.ofCode
  (fld w 23 4).toNat).map fun src => ⟨wG w, wUni w, wBit w 3, r, dst, src, wD w, wA w⟩

/-- The fields of a CvtdF word. -/
def candCvtdF (w : W64) : Option CvtdF :=
  some ⟨wG w, wBu w, wD w, wA w, wB w, fld w 0 3⟩

/-- The fields of a CvtqF word. -/
def candCvtqF (w : W64) : Option CvtqF :=
  some ⟨wG w, wD w, wA w, wC w, fld w 0 3⟩

/-- The fields of a FmodeF word. -/
def candFmodeF (w : W64) : Option FmodeF :=
  some (if wBit w 9 then .reg (wA w) else .imm (fld w 0 8))

/-- The fields of a PackF word. -/
def candPackF (w : W64) : Option PackF :=
  some ⟨wG w, wBu w, wD w, wA w, wB w, fld w 0 3, fld w 3 2⟩

/-- The fields of a GA word. -/
def candGA (w : W64) : Option GA :=
  some ⟨wG w, wA w⟩

/-- The fields of a UnpkF word. -/
def candUnpkF (w : W64) : Option UnpkF :=
  some ⟨wG w, wD w, wA w, fld w 0 3, fld w 3 3⟩

/-- The fields of a BcastF word. -/
def candBcastF (w : W64) : Option BcastF :=
  some ⟨wD w, wA w, fld w 0 5⟩

/-- The fields of a LtileF word. -/
def candLtileF (w : W64) : Option LtileF :=
  some ⟨fld w 0 6⟩

/-- The fields of a LaneOp word. -/
def candLaneOp (w : W64) : Option LaneOp :=
  (ROp.ofCode (wFx w)).map fun o => ⟨wG w, o, wTy w, wD w, wA w⟩

/-- The fields of a ScanF word. -/
def candScanF (w : W64) : Option ScanF :=
  (ROp.ofCode (fld w 0 3).toNat).map fun o => ⟨wG w, o, wTy w, wBit w 3, wD w, wA w⟩

/-- The fields of a ShflF word. -/
def candShflF (w : W64) : Option ShflF :=
  some ⟨wG w, ShMode.ofBits (fld w 0 2), wD w, wA w, if wBit w 2 then .imm (fld w 3 5) else .reg (wBu w) (wB w)⟩

/-- The fields of a VoteF word. -/
def candVoteF (w : W64) : Option VoteF :=
  (VoteKind.ofCode (wFx w)).map fun k => ⟨wG w, k, wD w, fld w 31 3⟩

/-- The fields of a XrecvF word. -/
def candXrecvF (w : W64) : Option XrecvF :=
  some ⟨wLa w, wD w, fld w 0 5⟩

/-- The fields of a XsendF word. -/
def candXsendF (w : W64) : Option XsendF :=
  some ⟨wA w, fld w 0 5⟩

/-- The fields of a BraF word. -/
def candBraF (w : W64) : Option BraF :=
  some ⟨wG w, fld w 15 24⟩

/-- The fields of a BrauF word. -/
def candBrauF (w : W64) : Option BrauF :=
  some ⟨wD w, wBit w 0, fld w 15 24⟩

/-- The fields of a Off word. -/
def candOff (w : W64) : Option Off :=
  some ⟨fld w 15 24⟩

/-- The fields of a LoophF word. -/
def candLoophF (w : W64) : Option LoophF :=
  some ⟨wD w, fld w 15 24⟩

/-- The fields of a Guard word. -/
def candGuard (w : W64) : Option Guard :=
  some (wG w)

/-- The fields of a RepF word. -/
def candRepF (w : W64) : Option RepF :=
  some ⟨fld w 25 6, fld w 22 3, fld w 19 3, fld w 16 3, fld w 13 3⟩

/-- The fields of a AtomF word. -/
def candAtomF (w : W64) : Option AtomF :=
  (AOp.ofCode (fld w 19 4).toNat).bind fun o => (Sz.ofCode (wSz w)).bind fun z => (Scope.ofCode (wScope w)).bind
  fun c => (MemOrd.ofCode (wOrd w)).map fun r => ⟨wLa w, wG w, o, z, c, r, wBit w 6, wD w, wA w, wB w, fld w 10 9⟩

/-- The fields of a CctlF word. -/
def candCctlF (w : W64) : Option CctlF :=
  (CctlOp.ofCode (wD w).toNat).map fun o => ⟨wG w, o, wBit w 3, wBit w 6, wA w, wB w, fld w 10 13⟩

/-- The fields of a LoadF word. -/
def candLoadF (w : W64) : Option LoadF :=
  (Sz.ofCode (wSz w)).bind fun z => (Scope.ofCode (wScope w)).bind fun c => (MemOrd.ofCode (wOrd w)).map fun r =>
  ⟨wLa w, wG w, z, c, r, wBit w 6, wD w, wA w, fld w 10 13⟩

/-- The fields of a LduF word. -/
def candLduF (w : W64) : Option LduF :=
  (Sz.ofCode (wSz w)).bind fun z => (Scope.ofCode (wScope w)).bind fun c => (MemOrd.ofCode (wOrd w)).map fun r =>
  ⟨wLa w, z, c, r, wD w, wA w, fld w 10 13⟩

/-- The fields of a MwaitF word. -/
def candMwaitF (w : W64) : Option MwaitF :=
  (Cmp.ofCode (fld w 0 3).toNat).map fun c => ⟨wLa w, wTy w, c, fld w 3 3, fld w 6 4, wD w, wA w, wB w, wC w⟩

/-- The fields of a PrefF word. -/
def candPrefF (w : W64) : Option PrefF :=
  some ⟨wG w, fld w 39 2, wBit w 6, wA w, fld w 10 13⟩

/-- The fields of a StoreF word. -/
def candStoreF (w : W64) : Option StoreF :=
  (Sz.ofCode (wSz w)).bind fun z => (Scope.ofCode (wScope w)).bind fun c => (MemOrd.ofCode (wOrd w)).map fun r =>
  ⟨wG w, z, c, r, wBit w 6, wA w, wB w, fld w 10 13⟩

/-- The fields of a BarvF word. -/
def candBarvF (w : W64) : Option BarvF :=
  some ⟨wA w, fld w 0 10⟩

/-- The fields of a BinitF word. -/
def candBinitF (w : W64) : Option BinitF :=
  some ⟨wPd w, wA w, wB w⟩

/-- The fields of a SReg word. -/
def candSReg (w : W64) : Option SReg :=
  some ⟨wA w⟩

/-- The fields of a BwaitF word. -/
def candBwaitF (w : W64) : Option BwaitF :=
  some ⟨wPd w, wA w, wBit w 0⟩

/-- The fields of a FenceF word. -/
def candFenceF (w : W64) : Option FenceF :=
  (Scope.ofCode (fld w 0 3).toNat).map fun c => ⟨c, wBit w 3⟩

/-- The fields of a SigopF word. -/
def candSigopF (w : W64) : Option SigopF :=
  (SigKind.ofCode (fld w 0 2).toNat).map fun o => ⟨o, wBit w 2, wA w, wB w⟩

/-- The fields of a XfenceF word. -/
def candXfenceF (w : W64) : Option XfenceF :=
  some ⟨wD w, wA w⟩

/-- The fields of a NbndF word. -/
def candNbndF (w : W64) : Option NbndF :=
  some ⟨wPd w, fld w 0 2, wA w⟩

/-- The fields of a NlaunchF word. -/
def candNlaunchF (w : W64) : Option NlaunchF :=
  some ⟨wPd w, wA w, wB w, wC w, fld w 0 5⟩

/-- The fields of a NqryF word. -/
def candNqryF (w : W64) : Option NqryF :=
  some ⟨wLa w, fld w 0 2, wD w⟩

/-- The fields of a MxRunF word. -/
def candMxRunF (w : W64) : Option MxRunF :=
  some ⟨wG w, wA w, wB w, wC w, fld w 0 3⟩

/-- The fields of a SPairReg word. -/
def candSPairReg (w : W64) : Option SPairReg :=
  some ⟨wA w, wB w⟩

/-- The fields of a LaDA word. -/
def candLaDA (w : W64) : Option LaDA :=
  some ⟨wLa w, wD w, wA w⟩

/-- The fields of a MxRloadF word. -/
def candMxRloadF (w : W64) : Option MxRloadF :=
  some ⟨wA w, wB w, wC w, fld w 0 3⟩

/-- The fields of a MxRpinF word. -/
def candMxRpinF (w : W64) : Option MxRpinF :=
  some ⟨wA w, wBit w 0⟩

/-- The fields of a ForkF word. -/
def candForkF (w : W64) : Option ForkF :=
  some ⟨wLa w, wD w, wA w, wB w⟩

/-- The fields of a RdvF word. -/
def candRdvF (w : W64) : Option RdvF :=
  some ⟨wPd w, wA w⟩

/-- The fields of a TrapF word. -/
def candTrapF (w : W64) : Option TrapF :=
  some ⟨wG w, fld w 7 24⟩

/-- The fields of a SrdF word. -/
def candSrdF (w : W64) : Option SrdF :=
  some ⟨wG w, wUni w, wD w, fld w 0 10⟩

/-- The fields of a SwrF word. -/
def candSwrF (w : W64) : Option SwrF :=
  some ⟨wA w, fld w 0 10⟩

/-- The fields of a SlAluF word. -/
def candSlAluF (w : W64) : Option SlAluF :=
  some ⟨slD w, slA w, slBv w⟩

/-- The fields of a SlArriveF word. -/
def candSlArriveF (w : W64) : Option SlArriveF :=
  some ⟨slA w, fld w 0 16⟩

/-- The fields of a SlBmexpF word. -/
def candSlBmexpF (w : W64) : Option SlBmexpF :=
  some ⟨fld w 0 2, fld w 2 2, slA w⟩

/-- The fields of a SlBrF word. -/
def candSlBrF (w : W64) : Option SlBrF :=
  (SlCond.ofCode (slSub w)).map fun c => ⟨c, fld w 0 32⟩

/-- The fields of a SlDesc word. -/
def candSlDesc (w : W64) : Option SlDesc :=
  some ⟨fld w 0 2⟩

/-- The fields of a SlCmpF word. -/
def candSlCmpF (w : W64) : Option SlCmpF :=
  (Cmp.ofCode (slSub w)).map fun c => ⟨c, slA w, slBv w⟩

/-- The fields of a SlEndF word. -/
def candSlEndF (w : W64) : Option SlEndF :=
  some ⟨fld w 0 8⟩

/-- The fields of a SlIdxF word. -/
def candSlIdxF (w : W64) : Option SlIdxF :=
  some ⟨fld w 43 2, slD w, slA w, fld w 0 32⟩

/-- The fields of a SlLoopF word. -/
def candSlLoopF (w : W64) : Option SlLoopF :=
  some ⟨slA w, fld w 0 32⟩

/-- The fields of a SlMadF word. -/
def candSlMadF (w : W64) : Option SlMadF :=
  some ⟨slD w, slA w, fld w 0 4, fld w 4 4⟩

/-- The fields of a SlMovF word. -/
def candSlMovF (w : W64) : Option SlMovF :=
  some ⟨slD w, if wBit w 32 then .imm (fld w 0 32) else .reg (slA w)⟩

/-- The fields of a SlDA word. -/
def candSlDA (w : W64) : Option SlDA :=
  some ⟨slD w, slA w⟩

/-- The fields of a SlSetdF word. -/
def candSlSetdF (w : W64) : Option SlSetdF :=
  some ⟨fld w 0 2, fld w 4 4, slA w⟩

/-- The fields of a SlSignalF word. -/
def candSlSignalF (w : W64) : Option SlSignalF :=
  (SigKind.ofCode (fld w 43 2).toNat).map fun o => ⟨o, wBit w 45, slA w, fld w 0 4⟩

/-- The fields of a SlAB word. -/
def candSlAB (w : W64) : Option SlAB :=
  some ⟨slA w, fld w 0 4⟩

/-- The fields of a SlWaitF word. -/
def candSlWaitF (w : W64) : Option SlWaitF :=
  some ⟨slA w, wBit w 0⟩

/-- The fields of a SlXferF word. -/
def candSlXferF (w : W64) : Option SlXferF :=
  (XMode.ofCode (slSub w)).map fun m => ⟨fld w 0 2, fld w 2 2, m⟩

/-- The candidate instruction of a core word, by the opcode map (04 Table 4-11); none for a code that the entry does not list. -/
def candCore (w : W64) : Nat → Option Instr
  | 0x01 => (candBin w).map .and
  | 0x02 => (candImmB w).map .andi
  | 0x03 => (candBitIns w).map .bfi
  | 0x04 => (candBitExt w).map .bfx
  | 0x05 => (candUn w).map .brev
  | 0x06 => (candUn w).map .clz
  | 0x07 => (candUnT w).map .iabs
  | 0x08 => (candBinS w).map .iadd
  | 0x09 => (candImmT w).map .iaddi
  | 0x0A => (candTriT w).map .imad
  | 0x0B => (candBinT w).map .imax
  | 0x0C => (candBinT w).map .imin
  | 0x0D => (candBinT w).map .imul
  | 0x0E => (candBinT w).map .imulh
  | 0x0F => (candUnT w).map .ineg
  | 0x10 => (candSetpI w).map .isetp
  | 0x11 => (candBinS w).map .isub
  | 0x12 => (candLeaF w).map .lea
  | 0x13 => (candMovF w).map .mov
  | 0x14 => (candMovImm w).map .movi
  | 0x15 => (candUn w).map .not
  | 0x16 => (candBin w).map .or
  | 0x17 => (candImmB w).map .ori
  | 0x18 => (candPlopF w).map .plop
  | 0x19 => (candUn w).map .popc
  | 0x1A => (candShift w).map .rot
  | 0x1B => (candShift w).map .sar
  | 0x1C => (candSelF w).map .sel
  | 0x1D => (candShift w).map .shl
  | 0x1E => (candShift w).map .shr
  | 0x1F => (candBin w).map .xor
  | 0x20 => (candImmB w).map .xori
  | 0x22 => (candUnT w).map .fabs
  | 0x23 => (candFBin w).map .fadd
  | 0x24 => (candUnV w).map .fclass
  | 0x25 => (candFLong w).map .fcos
  | 0x26 => (candFDivF w).map .fdiv
  | 0x27 => (candFTri w).map .fdot2
  | 0x28 => (candFLong w).map .fexp2
  | 0x29 => (candFFmaF w).map .ffma
  | 0x2A => (candFLong w).map .flog2
  | 0x2B => (candBin w).map .fmax
  | 0x2C => (candBin w).map .fmin
  | 0x2D => (candFBin w).map .fmul
  | 0x2E => (candUnT w).map .fneg
  | 0x2F => (candFLongR w).map .frcp
  | 0x30 => (candFRndF w).map .frnd
  | 0x31 => (candFLongR w).map .frsq
  | 0x32 => (candSetpF w).map .fsetp
  | 0x33 => (candFLong w).map .fsin
  | 0x34 => (candFLongR w).map .fsqrt
  | 0x35 => (candFBin w).map .fsub
  | 0x36 => (candFLong w).map .ftanh
  | 0x37 => (candHTri w).map .hfma2
  | 0x38 => (candAmaxrdF w).map .amaxrd
  | 0x39 => (candCvtF w).map .cvt
  | 0x3A => (candCvtdF w).map .cvtd
  | 0x3B => (candCvtqF w).map .cvtq
  | 0x3C => (candFmodeF w).map .fmode
  | 0x3D => (candPackF w).map .pack
  | 0x3E => (candGA w).map .seed
  | 0x3F => (candUnpkF w).map .unpk
  | 0x40 => (candBcastF w).map .bcast
  | 0x41 => (candLtileF w).map .ltile
  | 0x42 => (candLaneOp w).map .redux
  | 0x43 => (candScanF w).map .scan
  | 0x44 => (candShflF w).map .shfl
  | 0x45 => (candVoteF w).map .vote
  | 0x46 => (candXrecvF w).map .xrecv
  | 0x47 => (candXsendF w).map .xsend
  | 0x48 => (candBraF w).map .bra
  | 0x49 => (candBrauF w).map .brau
  | 0x4A => (candOff w).map .call
  | 0x4B => some .endw
  | 0x4C => (candGuard w).map .exitw
  | 0x4D => (candGA w).map .itemq
  | 0x4E => some .joinw
  | 0x4F => (candLoophF w).map .looph
  | 0x50 => (candOff w).map .mjoin
  | 0x51 => (candGuard w).map .nop
  | 0x52 => (candRepF w).map .rep
  | 0x53 => some .ret
  | 0x58 => (candAtomF w).map .atom
  | 0x59 => (candAtomF w).map .atoms
  | 0x5A => (candCctlF w).map .cctl
  | 0x5B => (candLoadF w).map .ld
  | 0x5C => (candLoadF w).map .lds
  | 0x5D => (candLduF w).map .ldu
  | 0x5E => (candMwaitF w).map .mwait
  | 0x5F => (candPrefF w).map .pref
  | 0x60 => (candStoreF w).map .st
  | 0x61 => (candStoreF w).map .sts
  | 0x68 => some .bar
  | 0x69 => (candBarvF w).map .barv
  | 0x6A => (candBinitF w).map .binit
  | 0x6B => (candSReg w).map .binv
  | 0x6C => (candBwaitF w).map .bwait
  | 0x6D => some .cbar
  | 0x6E => (candFenceF w).map .fence
  | 0x6F => some .nbar
  | 0x70 => (candSigopF w).map .sigop
  | 0x71 => (candXfenceF w).map .xfence
  | 0x78 => (candNbndF w).map .nbnd
  | 0x79 => (candNlaunchF w).map .nlaunch
  | 0x7A => (candNqryF w).map .nqry
  | 0x80 => (candMxRunF w).map .mxDist
  | 0x81 => (candSPairReg w).map .mxDrain
  | 0x82 => (candLaDA w).map .mxRalloc
  | 0x83 => (candSReg w).map .mxRevoke
  | 0x84 => (candMxRloadF w).map .mxRload
  | 0x85 => (candMxRpinF w).map .mxRpin
  | 0x86 => (candLaDA w).map .mxRqry
  | 0x87 => (candMxRunF w).map .mxRun
  | 0x88 => (candSPairReg w).map .mxTopk
  | 0x89 => (candSPairReg w).map .mxZero
  | 0x90 => (candForkF w).map .fork
  | 0x91 => (candRdvF w).map .rdv
  | 0x98 => (candSReg w).map .a2av
  | 0x99 => (candSReg w).map .aredc
  | 0x9A => (candSReg w).map .esort
  | 0x9B => (candLaDA w).map .gather
  | 0x9C => (candSReg w).map .scatter
  | 0xA0 => (candTrapF w).map .bkpt
  | 0xA1 => (candSrdF w).map .srd
  | 0xA2 => (candSwrF w).map .swr
  | 0xA3 => (candTrapF w).map .trapw
  | 0xA4 => some .tret
  | 0xA5 => some .yieldw
  | _ => none

/-- The candidate instruction of a Sluice word (11 Table 11-3). -/
def candSluice (w : W64) : Nat → Option Instr
  | 0xC0 => (candSlAluF w).map .slAdd
  | 0xC1 => (candSlArriveF w).map .slArrive
  | 0xC2 => (candSlBmexpF w).map .slBmexp
  | 0xC3 => (candSlBrF w).map .slBr
  | 0xC4 => (candSlDesc w).map .slCbload
  | 0xC5 => (candSlCmpF w).map .slCmp
  | 0xC6 => (candSlEndF w).map .slEnd
  | 0xC7 => (candSlIdxF w).map .slIdx
  | 0xC8 => (candSlLoopF w).map .slLoop
  | 0xC9 => (candSlMadF w).map .slMad
  | 0xCA => (candSlMovF w).map .slMov
  | 0xCB => (candSlDA w).map .slSegnext
  | 0xCC => (candSlSetdF w).map .slSetd
  | 0xCD => (candSlSignalF w).map .slSignal
  | 0xCE => (candSlAB w).map .slStamp
  | 0xCF => (candSlWaitF w).map .slWait
  | 0xD0 => (candSlXferF w).map .slXfer
  | _ => none

/-- The instruction of a pair word whose first half-opcode is given (04 Table 4-8). -/
def HOp.mk1 (f : PairF) : HOp → Instr
  | .iadd => .halfIadd f
  | .isub => .halfIsub f
  | .and => .halfAnd f
  | .or => .halfOr f
  | .xor => .halfXor f
  | .shl => .halfShl f
  | .shr => .halfShr f
  | .sar => .halfSar f
  | .imin => .halfImin f
  | .imax => .halfImax f
  | .mov => .halfMov f
  | .imul => .halfImul f
  | .fadd => .halfFadd f
  | .fsub => .halfFsub f
  | .fmul => .halfFmul f
  | .fmin => .halfFmin f
  | .fmax => .halfFmax f

/-- Why a word is refused: the rows of 04 Table 4-10 that look at the word alone. -/
inductive Reject where
  /-- order 2: an unassigned opcode, or one of the other stream -/
  | opcode
  /-- order 3: bit 0 or bits [3:0] of a half set, a half-opcode unassigned, or a pair in a Sluice stream -/
  | pairForm
  /-- order 4: a reserved field set, or a code that the entry does not accept -/
  | fields
  /-- order 5: a register rule of 03 R54 -/
  | registers
  /-- order 6: a bank rule of 04 R84 -/
  | pairRule
  deriving DecidableEq, Repr

/-- Opcodes of the core map (04 Table 4-11). -/
def coreOpcode (op : Nat) : Bool :=
  (0x01 ≤ op && op ≤ 0x20) || (0x22 ≤ op && op ≤ 0x53) || (0x58 ≤ op && op ≤ 0x61) || (0x68 ≤ op && op ≤ 0x71) ||
  (0x78 ≤ op && op ≤ 0x7A) || (0x80 ≤ op && op ≤ 0x89) || op == 0x90 || op == 0x91 ||
  (0x98 ≤ op && op ≤ 0x9C) || (0xA0 ≤ op && op ≤ 0xA5)

/-- Opcodes that only a Sluice processor decodes (04 R86). -/
def sluiceOpcode (op : Nat) : Bool := 0xC0 ≤ op && op ≤ 0xD0

/-- Orders 5 and 6 of 04 Table 4-10. -/
def checkRegs (i : Instr) : Except Reject Instr :=
  if i.regsOk then (if i.pairOk then .ok i else .error .pairRule) else .error .registers

/-- Orders 4 to 6: the fields of the candidate, encoded again, are the word, and its codes are accepted. -/
def accept (w : W64) : Option Instr → Except Reject Instr
  | none => .error .fields
  | some i => if encode i = w ∧ i.fieldsOk = true then checkRegs i else .error .fields

/-- One half of a pair word, shifted down to bits [30:0]. -/
def candHalf (h : W64) : Half := ⟨fld h 17 8, fld h 9 8, wBit h 8, Guard.ofBits (fld h 4 4)⟩

/-- A pair word (04 R81 to R84): its form is order 3, its guards order 4. -/
def decodePair (w : W64) : Except Reject Instr :=
  let h1 := (fld w 32 31).setWidth 64
  let h2 := (fld w 1 31).setWidth 64
  match HOp.ofCode (fld h1 25 6).toNat, HOp.ofCode (fld h2 25 6).toNat with
  | some o1, some o2 =>
    if fld w 0 1 = 0 ∧ fld h1 0 4 = 0 ∧ fld h2 0 4 = 0 then
      accept w (some (o1.mk1 ⟨candHalf h1, o2, candHalf h2⟩))
    else .error .pairForm
  | _, _ => .error .pairForm

/-- Decoding in a core stream (04 R85). -/
def decodeCore (w : W64) : Except Reject Instr :=
  if wBit w 63 then decodePair w
  else if coreOpcode (wOp w) then accept w (candCore w (wOp w))
  else .error .opcode

/-- Decoding in a Sluice stream (04 R85, 11 R216). -/
def decodeSluice (w : W64) : Except Reject Instr :=
  if wBit w 63 then .error .pairForm
  else if sluiceOpcode (wOp w) then accept w (candSluice w (wOp w))
  else .error .opcode

/-- Decoding a word wherever it stands: the opcodes 0xC0 to 0xD0 are Sluice words. -/
def decode (w : W64) : Except Reject Instr :=
  if !wBit w 63 && sluiceOpcode (wOp w) then decodeSluice w else decodeCore w

/-- The word at the head of a list of bytes, little-endian (04 R65), with the rest of the list. -/
def wordOfBytes : List Byte → Option (W64 × List Byte)
  | b0 :: b1 :: b2 :: b3 :: b4 :: b5 :: b6 :: b7 :: rest => some (b7 ++ b6 ++ b5 ++ b4 ++ b3 ++ b2 ++ b1 ++ b0, rest)
  | _ => none

/-- Decoding any bytes: refused when fewer than eight stand there, else as the word reads. -/
def decodeBytes (bs : List Byte) : Option (Instr × List Byte) :=
  match wordOfBytes bs with
  | some (w, rest) => match decode w with
    | .ok i => some (i, rest)
    | .error _ => none
  | none => none

/-- The bytes of a word as they lie in memory, lowest address first (04 R65). -/
def bytesOfWord (w : W64) : List Byte := (List.range 8).map fun k => (w >>> (8 * k)).setWidth 8

/-- The instruction of a row's word as the opcode table numbers its bits; the bits above `nbits` are 0. -/
def decodeTableWord (nbits w : Nat) : Option Instr :=
  (decodeBytes (bytesOfWord (BitVec.ofNat 64 (w % 2 ^ nbits)))).map (·.1)

end Sys2Proof
end

