-- ==== Sys2Proof/Machine/PartsCore.lean ====
section
/-! DEFINITION. The state of groups, teams and cores: what 02, 03, 11 and 14 give a group, a team, a Sluice context and
a core, and what a slot or a group waits for. Plain data; the operations on it stand in the files beside this one. -/

namespace Sys2Proof.Machine

/-! ### Causes -/

/-- Cause codes of traps and faults (14 Table 14-1). -/
inductive Cause where
  | illegal | pairRule | lookahead | misalign | xlateNp | xlateProt | atomUnsup | copyRights | sluiceFault
  | handlerFetch | releaseWb | partition | eccUncorr | nbarNonpersist
  | trapSw | bkpt | nan | staleRes | scopeClip
  deriving DecidableEq, Repr

/-- Sub-causes of SLUICE_FAULT (11 Table 11-9). -/
inductive SubCause where
  | illegal | xlateNp | xlateProt | misalign | desc | codebookTag | codebookRange | barrierInvalid | csrOrder
  | partition | atomUnsup
  deriving DecidableEq, Repr

/-! ### Groups -/

/-- A PC slot: PC, lane mask and REPC (02 R36, R49). -/
structure PcSlot where
  pc : W64
  mask : W32
  repc : W32
  deriving DecidableEq, Repr

/-- An entry of the join stack (02 R36); `last` is the slot that made the last arrival at a mark (02 R37 step 4). -/
inductive JoinEntry where
  | mark (rejoin : W64) (expected arrived : W32) (last : Bool)
  | path (pc : W64) (mask : W32)
  deriving DecidableEq, Repr

/-- The registers of a group, every one that a speculative window restores (02 R36 to R49, 03 R53, R57, 08 R166).
`v` is keyed by 32 n + lane, `s` by n and `p` by n with a mask of lanes; an unlisted register is 0. The top of
the join stack and of the call stack is the head of the list. -/
structure GroupRegs where
  v : SMap W32
  s : SMap W32
  p : SMap W32
  s0 : PcSlot
  s1 : PcSlot
  join : List JoinEntry
  calls : List W64
  yieldDepth : Nat
  loopHead : Option W64
  exited : W32
  fpm : W32
  ltile : W32
  gstat : W32
  /-- LFSR state of each lane (05 R109) -/
  lfsr : SMap W32
  deriving DecidableEq, Repr

/-- A trap that waits: for outstanding results (14 R254 step 1), or for TRET of the other slot (14 R255). -/
structure TrapReq where
  cause : Cause
  /-- the word that trapped -/
  pc : W64
  arg : BitVec 24
  tpc : W64
  addr : W64
  info : W32
  deriving DecidableEq, Repr

/-- The trap registers of a group (14 R254 to R257): `hidden` is the hidden copy of REPC, `depth` the join-stack depth
at entry, `slot` the slot that trapped, and `held` says that the other slot was live and is held. -/
structure TrapRegs where
  inh : Bool
  slot : Bool
  held : Bool
  hidden : W32
  depth : Nat
  tpc : W64
  tcause : W32
  taddr : W64
  tinfo : W32
  pend0 : Option TrapReq
  pend1 : Option TrapReq
  deriving DecidableEq, Repr

/-- The three barrier words (02 R46). -/
inductive BarKind where
  | bar | cbar | nbar
  deriving DecidableEq, Repr

/-- What a slot that is not ready waits for (02 R51). -/
inductive Wait where
  /-- BAR, CBAR or NBAR (02 R46) -/
  | barrier (k : BarKind)
  /-- BWAIT on the object at a scratchpad offset until PHASE ≠ ph or INV (20 R334) -/
  | bwait (addr : Nat) (ph : Bool) (p : Nat)
  /-- XSEND of vA into a slot (23 R445) -/
  | xsend (slotNo a : Nat)
  /-- ITEMQ for room (21 R366) -/
  | itemq
  /-- NBND for the answer of the walker (22 R389) -/
  | nbnd (p : Nat)
  /-- END for the other slot (21 R344) -/
  | atEnd
  /-- a miss entry, since a cycle, aged or not (08 R153, R154) -/
  | rejected (since : Nat) (aged : Bool)
  /-- nothing: the rejected word may issue again, before younger requests (08 R154) -/
  | granted (since : Nat) (aged : Bool)
  /-- the host's completion of a SIGOP: operation, virtual and physical address, operand and whether its scope is .SYS
  (23 R411) -/
  | hostSignal (op : SigKind) (va : W64) (addr : Nat) (b : W64) (sys : Bool)
  /-- the presence bits of scratchpad lines, by team (08 R148) -/
  | absent (lines : List (Nat × Nat))
  deriving DecidableEq, Repr

/-- One register write of a long-latency result. -/
inductive RegWrite where
  | v (n lane : Nat) (x : W32)
  | s (n : Nat) (x : W32)
  | p (n : Nat) (mask val : W32)
  deriving DecidableEq, Repr

/-- The monitor of an MWAIT (22 R378); `fired` says that a write has performed to the line since the last read. -/
structure Monitor where
  /-- the MWAIT, for a fault of a later read -/
  pc : W64
  addr : W64
  phys : Nat
  key : Nat
  host : Bool
  ty : Ty
  cmp : Cmp
  b : W64
  limit : W32
  t0 : Nat
  lastPoll : Nat
  d : Nat
  p : Nat
  /-- the mask of the slot, for the predicate -/
  mask : W32
  fired : Bool
  deriving DecidableEq, Repr

/-- One lane of an atomic: lane, virtual and physical address, key id and cache policy, operand and compare value. -/
structure AtomLane where
  lane : Nat
  va : W64
  phys : Nat
  key : Nat
  cp : Nat
  operand : Nat
  compare : Nat
  deriving DecidableEq, Repr

/-- An atomic whose lanes act at the host one after another (09 R173): the request that is under way, the lanes
after it, and what an acquire still has to do. -/
structure HostAtomic where
  op : AOp
  bytes : Nat
  d : Nat
  cur : AtomLane
  rest : List AtomLane
  acquire : Option Nat
  pc : W64
  deriving DecidableEq, Repr

/-- What an outstanding long-latency word still needs (04 R80). -/
inductive PendKind where
  /-- nothing: its value is known and lands -/
  | value
  /-- nothing: its value is written, and only its window is still open (04 R80) -/
  | landed
  /-- the condition of an MWAIT -/
  | monitor (m : Monitor)
  /-- a full rendezvous slot -/
  | recv (slotNo d : Nat)
  /-- the count of a GATHER -/
  | count (engine d : Nat)
  /-- the host -/
  | host (h : HostAtomic)
  deriving DecidableEq, Repr

/-- An outstanding long-latency word: its destination, the words its window still holds and the miss entries it takes
(04 R79, R80, 08 R153). `joined` is the rejoin address of the mark at which its slot has arrived since, and `both` says that this
mark has completed, so that the word comes before the words of either slot (02 R38). -/
structure Pending where
  id : Nat
  slot : Bool
  joined : Option W64
  both : Bool
  dests : List Operand
  kind : PendKind
  writes : List RegWrite
  left : Nat
  entries : Nat
  deriving DecidableEq, Repr

/-- One aligned piece of a held store of a speculative window (08 R165). -/
structure HeldStore where
  /-- the team whose scratchpad is written, or none for device memory -/
  pad : Option Nat
  addr : Nat
  page : Nat
  key : Nat
  cp : Nat
  host : Bool
  data : List Byte
  deriving DecidableEq, Repr

/-- What a word of a speculative window does to an AMAX register, in program order (08 R166): an update with its slot, magnitude
bits, an infinity and ternary bad codes. -/
structure AmaxUpd where
  slotNo : Nat
  mag : Option W32
  inf : Bool
  bad : Nat
  deriving DecidableEq, Repr

/-- An open speculative window (08 R165, R166): the registers and outstanding words at the boundary after the fence,
the marks, the held stores, the words left, whether a conflicting invalidation has hit a mark, and whether the window has been
rolled back, so that only the fence is left to complete. -/
structure SpecWindow where
  slot : Bool
  scope : Scope
  clipped : Bool
  saved : GroupRegs
  savedPend : List Pending
  marks : List Nat
  padMarks : List (Nat × Nat)
  stores : List HeldStore
  /-- AMAX updates of conversions in the window (08 R166) -/
  amax : List AmaxUpd
  /-- AMAX and AMAXST of the nest as an AMAXRD of the window has found them, by slot (03 R61, 05 R119) -/
  amaxRead : List (Nat × W32 × W32)
  left : Nat
  waits : Bool
  conflict : Bool
  closed : Bool
  deriving DecidableEq, Repr

/-- How far a group has come: END, halt (a fault of its own, or the halt of its team has reached it) and pre-emption (14 R250, R260,
21 R344). -/
structure GroupStatus where
  ended : Bool
  endPc : W64
  faulted : Bool
  reached : Bool
  haltedAt : Option W64
  skid : Nat
  stopped : Bool
  /-- the TINFO of the NaN that an array operation owes the group, with the captured mode's NANTRAP (05 R124) -/
  owedNan : Option W32
  deriving DecidableEq, Repr

/-- A group. -/
structure Group where
  r : GroupRegs
  t : TrapRegs
  w0 : Option Wait
  w1 : Option Wait
  pend : List Pending
  nextId : Nat
  spec : Option SpecWindow
  st : GroupStatus
  /-- group slot on the core, partition × 16 + slot (02 R50) -/
  place : Nat
  /-- issue opportunities of its partition for which each slot, ready, was passed over (02 R51) -/
  passed0 : Nat
  passed1 : Nat
  /-- the slot has executed a FENCE at team or cluster scope, so that a later ordered write of it releases at that scope (08 R161,
  R164): its scope code, or 0 -/
  fence0 : Nat
  fence1 : Nat
  /-- lines that another core held when a relaxed load or atomic of the slot read them, so that an acquire fence promotes them (08
  R161, R164) -/
  held0 : List Nat
  held1 : List Nat
  deriving DecidableEq, Repr

/-! ### Sluice contexts (11 Table 11-1) -/

/-- A Sluice descriptor (11 Table 11-5): sizes and strides of dimensions 0 to 4. -/
structure SlDescr where
  base : W64
  sizes : List W32
  strides : List W64
  ctrl : Byte
  deriving DecidableEq, Repr

/-- What a Sluice transfer does with each element (11 R220): a conversion has its format slot and the LFSR state of its first
element. -/
inductive XferKind where
  | copy
  | decode
  | convert (fmt : W32) (slotNo : Nat) (lfsr : W32)
  deriving DecidableEq, Repr

/-- A work item that a Sluice context has issued and that has not performed, in issue order. -/
inductive SlWork where
  /-- a transfer of at most 4,096 destination bytes: element sizes, spaces, source and destination address of each element (no
  source for a zero of SL.BMEXP), and the scratchpad lines, by team, whose presence bits it cleared -/
  | xfer (pc : W64) (kind : XferKind) (esrc edst : Nat) (srcPad dstPad : Bool) (elems : List (Option W64 × W64))
      (lines : List (Nat × Nat))
  /-- an arrival of n on an object (11 R228) -/
  | arrive (pc : W64) (addr n : Nat)
  /-- a stamp write (11 R229) -/
  | stamp (pc : W64) (addr value : W64)
  /-- a signal operation (11 R230) -/
  | signal (pc : W64) (op : SigKind) (sys : Bool) (addr b : W64)
  deriving DecidableEq, Repr

/-- What a Sluice context waits for (11 R211). -/
inductive SlWait where
  /-- SL.WAIT on an object -/
  | barrier (addr : Nat) (ph : Bool)
  /-- the data of an index load: destination registers and values -/
  | load (writes : List (Nat × W64))
  /-- the completion of SL.END -/
  | ending
  /-- the ticket that the FORK of a group has not yet written (11 R213) -/
  | ticket (grp id : Nat)
  deriving DecidableEq, Repr

/-- FREE, RUNNING or ENDED (11 R212). -/
inductive SlState where
  | free | running | ended
  deriving DecidableEq, Repr

/-- Who started a Sluice context: a team by FORK (with its nest), or a packet (11 R213, R215). -/
inductive SlOwner where
  | none
  | team (team nest : Nat)
  | packet (q slotNo : Nat)
  deriving DecidableEq, Repr

/-- A Sluice context. -/
structure SlCtx where
  state : SlState
  status : Byte
  serial : BitVec 24
  w : SMap W64
  flag : Bool
  pc : W64
  desc : List SlDescr
  lfsr : W32
  owner : SlOwner
  ctx : Nat
  work : List SlWork
  /-- the transfers of the word at PC, whose presence bits it has cleared, that it has not issued: source and destination addresses of
  their elements (11 R220, R223) -/
  todo : List (List (Option W64 × W64))
  cbSource : Option SlDescr
  wait : Option SlWait
  /-- a fault that has been taken: sub-cause, PC, address and the time in ns (14 Table 14-2) -/
  faulted : Option (SubCause × W64 × W64 × Nat)
  /-- issue opportunities of the processor for which the context, ready, was passed over (11 R211) -/
  passed : Nat
  deriving DecidableEq, Repr

/-- The codebook store of a Sluice processor (11 R225): the tag of the owner and the entries. -/
structure Codebook where
  tag : Option SlOwner
  count : Nat
  data : SMap Byte
  deriving DecidableEq, Repr

/-! ### Teams -/

/-- A waiter of a rendezvous slot: an XSEND of a slot, or an XRECV by its outstanding word (02 R45). -/
inductive RdvWaiter where
  | send (grp : Nat) (slot : Bool) (a : Nat)
  | recv (grp id : Nat)
  deriving DecidableEq, Repr

/-- A rendezvous slot: empty or 32 words, with its waiters in order (02 R45). -/
structure RdvSlot where
  full : Bool
  data : List W32
  waiters : List RdvWaiter
  deriving DecidableEq, Repr

/-- An aligned doubleword of scratchpad as a counted barrier object: whether an action has used it as one, and whether an STS or
ATOMS has written to it since it was set (11 R226). -/
structure ObjState where
  used : Bool
  spoiled : Bool
  deriving DecidableEq, Repr

/-- A push of an item queue that waits for room (02 R42). -/
structure ItemPush where
  grp : Nat
  slot : Bool
  items : List W32
  deriving DecidableEq, Repr

/-- Where a team stands in its life (02 R33, 06 R135, 14 R250, R260). -/
inductive TeamPhase where
  | running
  /-- the halt has begun (14 R250) -/
  | halting
  /-- every group is recorded (14 R250) -/
  | halted
  /-- a stop request names the team since a time in ns (14 R260) -/
  | stopping (since : Nat)
  /-- saved in the slab of its core (14 R260) -/
  | saved
  /-- its point has retired; the pad stays for the cluster (03 R62) -/
  | retired
  deriving DecidableEq, Repr

/-- What the launch gives a team (02 R33, 06 Table 6-1). -/
structure TeamShape where
  groups : Nat
  vregs : Nat
  scratch : Nat
  tiles : Nat
  producer : Nat
  deriving DecidableEq, Repr

/-- A team. -/
structure Team where
  nest : Nat
  ctx : Nat
  core : Nat
  /-- coordinates IX0 to IX3 -/
  ix : List W32
  teamIdx : Nat
  clus : Nat
  /-- teams of the cluster by TEAM; empty when not clustered -/
  peers : SMap Nat
  shape : TeamShape
  groups : List Group
  pad : SMap Byte
  /-- lines whose presence bit is clear, with the transfers that have cleared it and not landed (08 R148) -/
  absent : SMap Nat
  /-- doublewords that have served as counted barrier objects or that STS or ATOMS has written, by address ÷ 8 (11 R226) -/
  objects : SMap ObjState
  /-- tile elements keyed by 1024 tile + 32 row + column -/
  tiles : SMap W32
  rdv : SMap RdvSlot
  itemq : List W32
  itemWait : List ItemPush
  phase : TeamPhase
  /-- start order, for the choice of teams to evict (14 R262) -/
  started : Nat
  /-- the Sluice contexts that the team has forked, while it is saved (11 R232) -/
  sluice : List (Nat × SlCtx)
  deriving DecidableEq, Repr

/-! ### Issuers -/

/-- On whose behalf a word runs: a slot of a group of a team, or a Sluice context of a core. -/
inductive Issuer where
  | grp (team grp : Nat) (slot : Bool)
  | sluice (core ctx : Nat)
  deriving DecidableEq, Repr, Inhabited

/-! ### Actions -/

/-- What one step of the machine does (log entry 2): a word of an issuer, a step of the device, or a replacement that
the manual leaves to the caches. -/
inductive Action where
  | issue (i : Issuer)
  | event (i : Instr)
  /-- the L1 of a core replaces a line, named by its key in the table of lines -/
  | evictL1 (core key : Nat)
  /-- a TLB of a core and its basin drops an entry -/
  | evictTlb (core i : Nat)
  deriving DecidableEq, Repr, Inhabited

end Sys2Proof.Machine
end

