-- ==== Sys2Proof/Config.lean ====
section
/-! DEFINITION. The values that the manual leaves open. Each is an opaque constant, so that nothing proves a value
of it: log entries 2, 8, 9, 12, 18 and 91 name them. Each takes what its value may depend on, and the fresh
ones take State.tick, the model's own counter. -/

namespace Sys2Proof.Config

/-- Free naturals: a choice the manual leaves open, fresh for each pair of counter and index (log entry 12). -/
opaque freeNat : Nat → Nat → Nat

/-- Free bytes: a value that the manual calls unpredictable, fresh for each pair of counter and index (log entry 8). -/
opaque freeByte : Nat → Nat → Byte

/-- The set of an L2 slice in which a line lies, which the manual leaves open (log entry 18); it counts modulo the sets. -/
opaque l2Set : Nat → Nat

/-- Writes that an ingress buffer holds, which the manual leaves open (08 R154, R167, log entry 91). -/
opaque ingressSize : Nat

/-- The candidate result of a transcendental word for an input bit pattern, DAZ and FTZ (21 R354, log entry 9):
`fn` is 0 FEXP2, 1 FLOG2, 2 FSIN, 3 FCOS, 4 FTANH. -/
opaque transc : (fn : Nat) → (x : W32) → (daz ftz : Bool) → W32

/-- Who moves next when State.agenda is empty (log entry 2): the order of issue between slots, groups, engines and the
outside world, which the manual leaves open (02 R38, R51, R52), applied to State.tick. -/
opaque schedule : Nat → Machine.Action

end Sys2Proof.Config
end

