-- ==== Sys2Proof/Machine/Map.lean ====
section
/-! DEFINITION. The functions over sparse tables: reading with a default, writing in canonical form, and plain
insertion and removal. A table is canonical when its keys rise strictly and no entry equals the default. -/

namespace Sys2Proof

variable {α : Type}

/-- The entry of a key, if the table lists it. -/
def SMap.find? (k : Nat) : SMap α → Option α
  | [] => none
  | (k', x) :: t => if k = k' then some x else SMap.find? k t

/-- The entry of a key, or the default of the table. -/
def SMap.getD (m : SMap α) (k : Nat) (dflt : α) : α := (m.find? k).getD dflt

/-- The table with the entry of a key removed. -/
def SMap.erase (k : Nat) (m : SMap α) : SMap α := m.filter fun e => e.1 != k

/-- The table with an entry inserted or replaced, whatever its value. -/
def SMap.put (k : Nat) (x : α) : SMap α → SMap α
  | [] => [(k, x)]
  | (k', y) :: t =>
    if k = k' then (k, x) :: t else if k < k' then (k, x) :: (k', y) :: t else (k', y) :: SMap.put k x t

/-- The table after writing a value: a value equal to the default leaves the key unlisted. -/
def SMap.set [DecidableEq α] (m : SMap α) (dflt : α) (k : Nat) (x : α) : SMap α :=
  if x = dflt then m.erase k else m.put k x

/-- The table with the entry of a key changed by a function, when it is listed. -/
def SMap.upd (m : SMap α) (k : Nat) (f : α → α) : SMap α :=
  match m.find? k with
  | some x => m.put k (f x)
  | none => m

/-- The canonical form: keys rise strictly above `lo` and no value equals the default. -/
def SMap.wfFrom [DecidableEq α] (dflt : α) (lo : Nat) : SMap α → Bool
  | [] => true
  | (k, x) :: t => lo ≤ k && x != dflt && SMap.wfFrom dflt (k + 1) t

/-- The canonical form of a table with a default. -/
def SMap.wf [DecidableEq α] (m : SMap α) (dflt : α) : Bool := SMap.wfFrom dflt 0 m

/-- Keys rise strictly above `lo`. -/
def SMap.sortedFrom (lo : Nat) : SMap α → Bool
  | [] => true
  | (k, _) :: t => lo ≤ k && SMap.sortedFrom (k + 1) t

/-- Keys rise strictly. -/
def SMap.sorted (m : SMap α) : Bool := SMap.sortedFrom 0 m

/-- The values of a table in key order. -/
def SMap.vals (m : SMap α) : List α := m.map (·.2)

/-- The keys of a table in order. -/
def SMap.keys (m : SMap α) : List Nat := m.map (·.1)

/-- The entries changed by a function of key and value. -/
def SMap.mapVals (f : Nat → α → α) (m : SMap α) : SMap α := m.map fun e => (e.1, f e.1 e.2)

/-- The lowest natural not among the keys, from `lo` on. -/
def SMap.freshFrom (lo : Nat) : SMap α → Nat
  | [] => lo
  | (k, _) :: t => if k = lo then SMap.freshFrom (lo + 1) t else if lo < k then lo else SMap.freshFrom lo t

/-- The list with element `i` changed by a function. -/
def listUpd {β : Type} (f : β → β) : Nat → List β → List β
  | _, [] => []
  | 0, x :: t => f x :: t
  | i + 1, x :: t => x :: listUpd f i t

/-- Bytes lo to lo + n − 1 of a table of bytes, lowest address first. -/
def readBytes (get : Nat → Byte) (lo n : Nat) : List Byte := (List.range n).map fun k => get (lo + k)

/-- The number that a list of bytes spells, lowest address first (00 R4). -/
def bytesToNat : List Byte → Nat
  | [] => 0
  | b :: t => b.toNat + 256 * bytesToNat t

/-- The n low bytes of a number, lowest address first (00 R4). -/
def natToBytes : Nat → Nat → List Byte
  | 0, _ => []
  | n + 1, x => BitVec.ofNat 8 x :: natToBytes n (x / 256)

/-- The lanes 0 to 31, ascending (02 R32). -/
def allLanes : List Nat := List.range 32

/-- The lanes of a mask, ascending. -/
def lanesOf (m : W32) : List Nat := allLanes.filter fun L => m.getLsbD L

/-- The mask of one lane. -/
def laneBit (L : Nat) : W32 := 1#32 <<< L

/-- The mask of the lanes that satisfy a test. -/
def maskOf (f : Nat → Bool) : W32 :=
  allLanes.foldl (fun m L => if f L then m ||| laneBit L else m) 0

/-- Set bits of a word. -/
def popcount (m : W32) : Nat := (lanesOf m).length

end Sys2Proof
end

