-- ==== Sys2Proof/Machine/Float.lean ====
section
/-! DEFINITION. Number formats, exact values and rounding (05 R101 to R112). A finite value is held exactly as
(−1)^neg × mag × 2^exp; `sticky` says that a nonzero part below mag was cut off, which only a quotient or a
root has, and those carry at least 36 bits below the last bit that any format keeps. -/

namespace Sys2Proof

/-- A value read from a float format, or computed exactly from such values. -/
inductive FVal where
  | nan
  | inf (neg : Bool)
  | fin (neg : Bool) (mag : Nat) (exp : Int) (sticky : Bool)
  deriving DecidableEq, Repr

/-- A float format of 05 Table 5-1: exponent and mantissa widths, bias, and what the top exponent holds. -/
structure FFmt where
  eb : Nat
  mb : Nat
  bias : Int
  /-- 0: infinities and NaNs; 1: finite but for the all-ones mantissa (E4M3); 2: finite (E2M1) -/
  top : Nat
  deriving DecidableEq, Repr

/-- F32. -/
def fmtF32 : FFmt := ⟨8, 23, 127, 0⟩
/-- BF16. -/
def fmtBF16 : FFmt := ⟨8, 7, 127, 0⟩
/-- F16. -/
def fmtF16 : FFmt := ⟨5, 10, 15, 0⟩
/-- E4M3. -/
def fmtE4M3 : FFmt := ⟨4, 3, 7, 1⟩
/-- E5M2. -/
def fmtE5M2 : FFmt := ⟨5, 2, 15, 0⟩
/-- E2M1. -/
def fmtE2M1 : FFmt := ⟨2, 1, 1, 2⟩

/-- Bits of an element of the format. -/
def FFmt.bits (f : FFmt) : Nat := 1 + f.eb + f.mb

/-- FTZ and DAZ act on F32, BF16 and F16 only (05 R112). -/
def FFmt.flushes (f : FFmt) : Bool := f.top == 0 && f.mb != 2

/-- The value of a field pattern (05 R101, R102). -/
def FFmt.decode (f : FFmt) (x : Nat) : FVal :=
  let m := x % 2 ^ f.mb
  let e := x / 2 ^ f.mb % 2 ^ f.eb
  let neg := x / 2 ^ (f.mb + f.eb) % 2 == 1
  let topE := 2 ^ f.eb - 1
  if e = topE ∧ f.top = 0 then (if m = 0 then .inf neg else .nan)
  else if e = topE ∧ f.top = 1 ∧ m = 2 ^ f.mb - 1 then .nan
  else if e = 0 then .fin neg m (1 - f.bias - f.mb) false
  else .fin neg (2 ^ f.mb + m) (e - f.bias - f.mb) false

/-- The largest finite magnitude, as a multiple of its own step: mantissa bits and exponent of the step. -/
def FFmt.maxMag (f : FFmt) : Nat × Int :=
  if f.top = 0 then (2 ^ (f.mb + 1) - 1, 2 ^ f.eb - 2 - f.bias - f.mb)
  else if f.top = 1 then (2 ^ (f.mb + 1) - 2, 2 ^ f.eb - 1 - f.bias - f.mb)
  else (2 ^ (f.mb + 1) - 1, 2 ^ f.eb - 1 - f.bias - f.mb)

/-- The sign bit of a format. -/
def FFmt.signBit (f : FFmt) (neg : Bool) : Nat := if neg then 2 ^ (f.eb + f.mb) else 0

/-- The pattern of ± the largest finite value. -/
def FFmt.maxBits (f : FFmt) (neg : Bool) : Nat :=
  f.signBit neg +
    (if f.top = 0 then 2 ^ (f.eb + f.mb) - 2 ^ f.mb - 1 else if f.top = 1 then 2 ^ (f.eb + f.mb) - 2
      else 2 ^ (f.eb + f.mb) - 1)

/-- The pattern of ±Inf, in a format that has infinities. -/
def FFmt.infBits (f : FFmt) (neg : Bool) : Nat := f.signBit neg + (2 ^ (f.eb + f.mb) - 2 ^ f.mb)

/-- The canonical NaN of a format (05 R102). -/
def FFmt.nanBits (f : FFmt) : Nat :=
  if f.top = 1 then 2 ^ (f.eb + f.mb) - 1 else 2 ^ (f.eb + f.mb) - 2 ^ (f.mb - 1)

/-- A value read under DAZ: a subnormal of F32, BF16 or F16 is a zero of the same sign (05 R112). -/
def FFmt.read (f : FFmt) (daz : Bool) (x : Nat) : FVal :=
  match f.decode x with
  | .fin neg m e st => if daz && f.flushes && m < 2 ^ f.mb then .fin neg 0 e st else .fin neg m e st
  | v => v

/-! ### Exact arithmetic -/

/-- A signed magnitude as an integer multiple of 2^e0, for e0 no larger than its exponent. -/
def signedAt (neg : Bool) (mag : Nat) (exp e0 : Int) : Int :=
  let m : Int := mag * 2 ^ (exp - e0).toNat
  if neg then -m else m

/-- The sign of an exact zero sum: IEEE 754-2019, negative under RDN unless both addends are +0 (05 R108). -/
def zeroSumSign (n1 n2 rdn : Bool) : Bool := if n1 = n2 then n1 else rdn

/-- The exact sum of two values; `rdn` gives the sign of an exact zero. -/
def FVal.add (rdn : Bool) : FVal → FVal → FVal
  | .nan, _ => .nan
  | _, .nan => .nan
  | .inf a, .inf b => if a = b then .inf a else .nan
  | .inf a, _ => .inf a
  | _, .inf b => .inf b
  | .fin n1 m1 e1 _, .fin n2 m2 e2 _ =>
    let e0 := min e1 e2
    let s := signedAt n1 m1 e1 e0 + signedAt n2 m2 e2 e0
    if s = 0 then
      .fin (if m1 = 0 ∧ m2 = 0 then zeroSumSign n1 n2 rdn else rdn) 0 e0 false
    else .fin (s < 0) s.natAbs e0 false

/-- The value with its sign inverted. -/
def FVal.neg : FVal → FVal
  | .nan => .nan
  | .inf a => .inf !a
  | .fin n m e s => .fin (!n) m e s

/-- The exact product of two values. -/
def FVal.mul : FVal → FVal → FVal
  | .nan, _ => .nan
  | _, .nan => .nan
  | .inf a, .inf b => .inf (a != b)
  | .inf a, .fin n m _ _ => if m = 0 then .nan else .inf (a != n)
  | .fin n m _ _, .inf b => if m = 0 then .nan else .inf (n != b)
  | .fin n1 m1 e1 _, .fin n2 m2 e2 _ => .fin (n1 != n2) (m1 * m2) (e1 + e2) false

/-- The value times a power of two. -/
def FVal.scale (k : Int) : FVal → FVal
  | .fin n m e s => .fin n m (e + k) s
  | v => v

/-- The number of bits of a natural. -/
def bitLen (m : Nat) : Nat := if m = 0 then 0 else Nat.log2 m + 1

/-- The quotient of two values under 21 Table 21-10, to at least 70 bits. -/
def FVal.div : FVal → FVal → FVal
  | .nan, _ => .nan
  | _, .nan => .nan
  | .inf _, .inf _ => .nan
  | .inf a, .fin n _ _ _ => .inf (a != n)
  | .fin n _ _ _, .inf b => .fin (n != b) 0 0 false
  | .fin n1 m1 e1 _, .fin n2 m2 e2 _ =>
    if m2 = 0 then (if m1 = 0 then .nan else .inf (n1 != n2))
    else
      let k := 70 + bitLen m2
      let q := m1 * 2 ^ k / m2
      .fin (n1 != n2) q (e1 - e2 - k) (q * m2 != m1 * 2 ^ k)

/-- The integer square root, bit by bit from 2^k down. -/
def isqrtFrom (n : Nat) : Nat → Nat → Nat
  | 0, r => if (r + 1) * (r + 1) ≤ n then r + 1 else r
  | k + 1, r => isqrtFrom n k (if (r + 2 ^ (k + 1)) * (r + 2 ^ (k + 1)) ≤ n then r + 2 ^ (k + 1) else r)

/-- The integer square root. -/
def isqrt (n : Nat) : Nat := isqrtFrom n (bitLen n / 2) 0

/-- The square root under 21 Table 21-10, to at least 70 bits. -/
def FVal.sqrt : FVal → FVal
  | .nan => .nan
  | .inf n => if n then .nan else .inf false
  | .fin n m e _ =>
    if m = 0 then .fin n 0 e false
    else if n then .nan
    else
      let k := 160 + (e % 2).toNat
      let x := m * 2 ^ k
      let r := isqrt x
      .fin false r ((e - k) / 2) (r * r != x)

/-- The reciprocal (21 Table 21-10). -/
def FVal.rcp (v : FVal) : FVal := FVal.div (.fin false 1 0 false) v

/-- The reciprocal square root under 21 Table 21-10, to at least 70 bits. -/
def FVal.rsq : FVal → FVal
  | .nan => .nan
  | .inf n => if n then .nan else .fin false 0 0 false
  | .fin n m e _ =>
    if m = 0 then .inf n
    else if n then .nan
    else
      let k := 2 * bitLen m + 160 + (e % 2).toNat
      let r := isqrt (2 ^ k / m)
      .fin false r (-((e + k) / 2)) (r * r * m != 2 ^ k)

/-! ### Rounding -/

/-- The five roundings of 05 R108. -/
inductive RM where
  | rne | rtz | rup | rdn | sr
  deriving DecidableEq, Repr

/-- RM of FPM and RND of a format slot (03 Tables 3-3 and 3-6). -/
def RM.ofCode : Nat → RM
  | 1 => .rtz
  | 2 => .rup
  | 3 => .rdn
  | 4 => .sr
  | _ => .rne

/-- One step of the LFSR (05 R109). -/
def lfsrStep (x : W32) : W32 :=
  (x <<< 1) ||| (BitVec.ofBool (x.getLsbD 31 ^^ x.getLsbD 21 ^^ x.getLsbD 1 ^^ x.getLsbD 0)).setWidth 32

/-- x = (mag and a part below it when sticky) × 2^exp, rounded to a multiple of 2^q, given as the count of steps
(05 R108, R109); `r` is the draw of SR. -/
def roundStep (rm : RM) (r : W32) (neg : Bool) (mag : Nat) (exp : Int) (sticky : Bool) (q : Int) : Nat :=
  if q ≤ exp then mag * 2 ^ (exp - q).toNat
  else
    let sh := (q - exp).toNat
    let t := mag / 2 ^ sh
    let rem := mag % 2 ^ sh
    let inexact := rem != 0 || sticky
    let up : Bool := match rm with
      | .rne => 2 ^ sh < 2 * rem || (2 * rem == 2 ^ sh && (sticky || t % 2 == 1))
      | .rtz => false
      | .rup => inexact && !neg
      | .rdn => inexact && neg
      | .sr => 2 ^ 32 ≤ rem * 2 ^ 32 / 2 ^ sh + r.toNat
    if up then t + 1 else t

/-- The exponent of the rounding step of a format at a nonzero magnitude, with an unbounded exponent above. -/
def FFmt.stepExp (f : FFmt) (mag : Nat) (exp : Int) : Int :=
  max ((bitLen mag : Int) - 1 + exp - f.mb) (1 - f.bias - f.mb)

/-- t × 2^q lies above the largest finite magnitude of the format. -/
def FFmt.overflows (f : FFmt) (t : Nat) (q : Int) : Bool :=
  let (m, e) := f.maxMag
  let e0 := min q e
  m * 2 ^ (e - e0).toNat < t * 2 ^ (q - e0).toNat

/-- The pattern of a representable magnitude t × 2^q. -/
def FFmt.encodeMag (f : FFmt) (neg : Bool) (t : Nat) (q : Int) : Nat :=
  if t = 0 then f.signBit neg
  else
    let k := bitLen t - 1
    let e : Int := k + q
    if e < 1 - f.bias then f.signBit neg + t * 2 ^ (q - (1 - f.bias - f.mb)).toNat
    else
      let m := if k ≤ f.mb then t * 2 ^ (f.mb - k) else t / 2 ^ (k - f.mb)
      f.signBit neg + (e + f.bias).toNat * 2 ^ f.mb + (m - 2 ^ f.mb)

/-- t × 2^q is a nonzero magnitude below the smallest normal of the format. -/
def FFmt.isSub (f : FFmt) (t : Nat) (q : Int) : Bool :=
  t != 0 && decide ((bitLen t : Int) - 1 + q < 1 - f.bias)

/-- What a result looks like: its pattern, whether a NaN was produced (05 R122, first case), and whether a NaN was read
by a conversion whose target has none (second case). -/
structure FRes where
  bits : Nat
  nanOut : Bool
  nanIn : Bool
  deriving DecidableEq, Repr

/-- Overflow of an arithmetic result (05 R110). -/
def FFmt.overflowBits (f : FFmt) (rm : RM) (neg : Bool) : Nat :=
  match rm with
  | .rne | .sr => f.infBits neg
  | .rtz => f.maxBits neg
  | .rup => if neg then f.maxBits neg else f.infBits neg
  | .rdn => if neg then f.infBits neg else f.maxBits neg

/-- An arithmetic result rounded once to a format (05 R108 to R112). -/
def FFmt.round (f : FFmt) (rm : RM) (ftz : Bool) (r : W32) : FVal → FRes
  | .nan => ⟨f.nanBits, true, false⟩
  | .inf n => ⟨f.infBits n, false, false⟩
  | .fin n m e st =>
    if m = 0 then ⟨f.signBit n, false, false⟩
    else
      let q := f.stepExp m e
      let t := roundStep rm r n m e st q
      if f.overflows t q then ⟨f.overflowBits rm n, false, false⟩
      else if ftz && f.flushes && f.isSub t q then ⟨f.signBit n, false, false⟩
      else ⟨f.encodeMag n t q, false, false⟩

/-- A finite value as an integer, rounded (20 R341): the signed count of units. -/
def roundToInt (rm : RM) (r : W32) (neg : Bool) (mag : Nat) (exp : Int) (sticky : Bool) : Int :=
  let t := roundStep rm r neg mag exp sticky 0
  if neg then -(t : Int) else t

/-- An integer clamped to a range. -/
def clampInt (lo hi x : Int) : Int := max lo (min hi x)

/-- The order of two values that are not NaN: −Inf below every finite value, −0 equal to +0. -/
def FVal.cmp : FVal → FVal → Ordering
  | .inf a, .inf b => if a = b then .eq else if a then .lt else .gt
  | .inf a, _ => if a then .lt else .gt
  | _, .inf b => if b then .gt else .lt
  | .fin n1 m1 e1 _, .fin n2 m2 e2 _ =>
    let e0 := min e1 e2
    compare (signedAt n1 m1 e1 e0) (signedAt n2 m2 e2 e0)
  | _, _ => .eq

/-- The value is a NaN. -/
def FVal.isNan : FVal → Bool
  | .nan => true
  | _ => false

/-- The sign of a value that is not NaN. -/
def FVal.isNeg : FVal → Bool
  | .inf n => n
  | .fin n _ _ _ => n
  | .nan => false

/-- minimumNumber and maximumNumber with −0 below +0 (21 R350): the first is the smaller. -/
def FVal.less (a b : FVal) : Bool :=
  match FVal.cmp a b with
  | .lt => true
  | .gt => false
  | .eq => a.isNeg && !b.isNeg

end Sys2Proof
end

