-- ==== Sys2Proof/Machine/Convert.lean ====
section
/-! DEFINITION. Conversions: CVT (20 R341), conversions through a format slot (05 R113 to R117), block
quantisation (05 R116), UNPK (23 R440), the classification of FCLASS and the comparisons of FSETP. -/

namespace Sys2Proof

/-- A format slot descriptor (03 Table 3-6). -/
structure FmtSlot where
  fmt : Nat
  rnd : Nat
  sat : Nat
  amaxEn : Bool
  deriving DecidableEq, Repr

/-- The fields of a format-slot descriptor word (03 Table 3-6). -/
def FmtSlot.ofWord (x : W32) : FmtSlot :=
  ⟨(x.extractLsb' 0 4).toNat, (x.extractLsb' 4 3).toNat, (x.extractLsb' 7 2).toNat, x.getLsbD 9⟩

/-- A descriptor that holds no reserved value (03 R60). -/
def FmtSlot.wordOk (x : W32) : Bool :=
  let f := FmtSlot.ofWord x
  x.toNat < 2 ^ 10 && f.fmt ≤ 12 && f.rnd ≤ 4 && f.sat ≤ 1

/-- The rounding of a slot. -/
def FmtSlot.rm (f : FmtSlot) : RM := RM.ofCode f.rnd

/-- The float format of a slot code 0 to 5 (05 Table 5-1). -/
def floatOfCode : Nat → Option FFmt
  | 0 => some fmtF32 | 1 => some fmtBF16 | 2 => some fmtF16 | 3 => some fmtE4M3 | 4 => some fmtE5M2
  | 5 => some fmtE2M1 | _ => none

/-- Bits of one element of a format code (05 Tables 5-1 and R103, R105). -/
def fmtWidth : Nat → Nat
  | 0 => 32 | 1 | 2 => 16 | 3 | 4 | 6 | 8 | 12 => 8 | 5 | 7 | 9 | 10 => 4 | 11 => 2 | _ => 32

/-- A two's-complement value of n bits. -/
def sextNat (n x : Nat) : Int := if x % 2 ^ n < 2 ^ (n - 1) then (x % 2 ^ n : Nat) else (x % 2 ^ n : Nat) - (2 : Int) ^ n

/-- The n low bits of an integer. -/
def intBits (n : Nat) (x : Int) : Nat := (x % 2 ^ n).toNat

/-- An integer as an exact value. -/
def FVal.ofInt (x : Int) : FVal := .fin (x < 0) x.natAbs 0 false

/-- Half the widths of the integer element formats: I8 and BI8, I4 and BI4. -/
def intWidthOfCode : Nat → Option Nat
  | 6 | 8 => some 8
  | 7 | 9 => some 4
  | _ => none

/-! ### CVT -/

/-- The float format of a CVT code. -/
def CvtFmt.float : CvtFmt → Option FFmt
  | .f32 => some fmtF32 | .bf16 => some fmtBF16 | .f16 => some fmtF16 | .e4m3 => some fmtE4M3
  | .e5m2 => some fmtE5M2 | .e2m1 => some fmtE2M1 | _ => none

/-- The range of an integer CVT format: width and signedness. -/
def CvtFmt.int : CvtFmt → Nat × Bool
  | .i8 => (8, true) | .i4 => (4, true) | .n32 => (32, false) | _ => (32, true)

/-- The value of a source register in a CVT format, under DAZ (20 R341). -/
def CvtFmt.value (f : CvtFmt) (daz : Bool) (x : W32) : FVal :=
  match f.float with
  | some ff => ff.read daz (x.toNat % 2 ^ ff.bits)
  | none =>
    let (n, signed) := f.int
    FVal.ofInt (if signed then sextNat n x.toNat else (x.toNat : Int))

/-- The range of an integer target. -/
def CvtFmt.range (f : CvtFmt) : Int × Int :=
  let (n, signed) := f.int
  if signed then (-(2 : Int) ^ (n - 1), 2 ^ (n - 1) - 1) else (0, 2 ^ n - 1)

/-- The result of an overflow without SAT, or of an infinity in a format that has none (20 R341): E4M3 gives its
NaN, E2M1 ±6. -/
def FFmt.noInf (f : FFmt) (neg : Bool) : FRes :=
  if f.top = 1 then ⟨f.nanBits, true, false⟩ else ⟨f.maxBits neg, false, false⟩

/-- CVT of one value (20 R341). -/
def cvtValue (dst : CvtFmt) (sat : Bool) (rm : RM) (ftz : Bool) (r : W32) (v : FVal) : FRes :=
  match dst.float with
  | none =>
    let (lo, hi) := dst.range
    let n := dst.int.1
    match v with
    | .nan => ⟨0, false, true⟩
    | .inf neg => ⟨intBits n (if neg then lo else hi), false, false⟩
    | .fin neg m e st => ⟨intBits n (clampInt lo hi (roundToInt rm r neg m e st)), false, false⟩
  | some f =>
    match v with
    | .nan => if f.top = 2 then ⟨0, false, true⟩ else ⟨f.nanBits, true, false⟩
    | .inf neg =>
      if sat then ⟨f.maxBits neg, false, false⟩
      else if f.top = 0 then ⟨f.infBits neg, false, false⟩ else f.noInf neg
    | .fin neg m e st =>
      if m = 0 then ⟨f.signBit neg, false, false⟩
      else
        let q := f.stepExp m e
        let t := roundStep rm r neg m e st q
        if f.overflows t q then
          if sat then ⟨f.maxBits neg, false, false⟩
          else if f.top = 0 then ⟨f.overflowBits rm neg, false, false⟩ else f.noInf neg
        else if ftz && f.flushes && f.isSub t q then ⟨f.signBit neg, false, false⟩
        else ⟨f.encodeMag neg t q, false, false⟩

/-! ### Conversions through a slot -/

/-- A slot conversion into a float format (05 Table 5-3). -/
def slotFloat (f : FFmt) (rm : RM) (sat : Nat) (ftz : Bool) (r : W32) (v : FVal) : FRes :=
  let big (neg : Bool) : FRes :=
    if sat = 0 ∨ f.top = 2 then ⟨f.maxBits neg, false, false⟩
    else if f.top = 0 then ⟨f.infBits neg, false, false⟩ else ⟨f.nanBits, true, false⟩
  match v with
  | .nan => if f.top = 2 then ⟨0, false, true⟩ else ⟨f.nanBits, true, false⟩
  | .inf neg => big neg
  | .fin neg m e st =>
    if m = 0 then ⟨f.signBit neg, false, false⟩
    else
      let q := f.stepExp m e
      let t := roundStep rm r neg m e st q
      if f.overflows t q then big neg
      else if ftz && f.flushes && f.isSub t q then ⟨f.signBit neg, false, false⟩
      else ⟨f.encodeMag neg t q, false, false⟩

/-- A slot conversion into an n-bit integer (05 Table 5-3). -/
def slotInt (n : Nat) (rm : RM) (r : W32) (v : FVal) : FRes :=
  let lo : Int := -(2 : Int) ^ (n - 1)
  let hi : Int := 2 ^ (n - 1) - 1
  match v with
  | .nan => ⟨0, false, true⟩
  | .inf neg => ⟨intBits n (if neg then lo else hi), false, false⟩
  | .fin neg m e st => ⟨intBits n (clampInt lo hi (roundToInt rm r neg m e st)), false, false⟩

/-- A slot conversion into a ternary code: −1, 0 or +1 (05 R116). -/
def slotTrn (rm : RM) (r : W32) (v : FVal) : FRes :=
  match v with
  | .nan => ⟨0, false, true⟩
  | .inf neg => ⟨if neg then 3 else 1, false, false⟩
  | .fin neg m e st => ⟨intBits 2 (clampInt (-1) 1 (roundToInt rm r neg m e st)), false, false⟩

/-- The E8M0 element of an F32 pattern (22 R395). -/
def slotE8M0 (sat : Nat) (daz : Bool) (x : W32) : FRes :=
  match fmtF32.read daz x.toNat with
  | .nan => ⟨0xFF, true, false⟩
  | .inf _ => if sat = 0 then ⟨0xFE, false, false⟩ else ⟨0xFF, true, false⟩
  | .fin _ _ _ _ => ⟨x.toNat / 2 ^ 23 % 256, false, false⟩

/-- The conversion of a value through a slot by R114 and R115; the block formats take their element format. -/
def slotConvert (s : FmtSlot) (ftz : Bool) (r : W32) (v : FVal) : FRes :=
  match s.fmt with
  | 6 | 8 => slotInt 8 s.rm r v
  | 7 | 9 => slotInt 4 s.rm r v
  | 10 => slotFloat fmtE2M1 s.rm s.sat ftz r v
  | 11 => slotTrn s.rm r v
  | c => match floatOfCode c with
    | some f => slotFloat f s.rm s.sat ftz r v
    | none => slotFloat fmtF32 s.rm s.sat ftz r v

/-- The magnitude of a value as an F32 pattern, for AMAX: exact for every F32 input (05 R117). -/
def magBits (v : FVal) : Nat :=
  match v with
  | .nan => 0
  | .inf _ => fmtF32.infBits false
  | .fin _ m e st => (fmtF32.round .rne false 0 (.fin false m e st)).bits

/-- The largest magnitude pattern among values that are not NaN. -/
def amaxOf (vs : List FVal) : Nat := (vs.map magBits).foldl max 0

/-! ### Block quantisation (05 R116) -/

/-- emax of a block format. -/
def blockEmax : Nat → Int
  | 8 => 6
  | 9 | 10 => 2
  | _ => 0

/-- floor(log2 |x|) of a nonzero F32 magnitude pattern. -/
def log2Bits (x : Nat) : Int :=
  match fmtF32.decode x with
  | .fin _ m e _ => (bitLen m : Int) - 1 + e
  | _ => 128

/-- The scale that CVTQ chooses (05 R116). -/
def blockScale (fmt : Nat) (xs : List FVal) : Nat :=
  if xs.any FVal.isNan then 0xFF
  else
    let a := amaxOf xs
    if a = fmtF32.infBits false then 0xFE
    else if a = 0 then 0x7F
    else (clampInt 0 254 (log2Bits a - blockEmax fmt + 127)).toNat

/-- The value of a block element code, without the scale (05 R105). -/
def blockElem (fmt c : Nat) : FVal :=
  match fmt with
  | 8 => FVal.ofInt (sextNat 8 c)
  | 9 => FVal.ofInt (sextNat 4 c)
  | 10 => fmtE2M1.decode (c % 16)
  | _ => FVal.ofInt (if c % 4 = 1 then 1 else if c % 4 = 3 then -1 else 0)

/-- CVTD of one code (20 R342): q × 2^(s − 127), rounded and saturated by the slot. -/
def dequant (s : FmtSlot) (ftz : Bool) (r : W32) (scale c : Nat) : FRes :=
  if scale = 0xFF then ⟨fmtF32.nanBits, true, false⟩
  else slotFloat fmtF32 s.rm s.sat ftz r ((blockElem s.fmt c).scale ((scale : Int) - 127))

/-! ### UNPK, FCLASS, FSETP, FRND -/

/-- The value of a narrow element in a slot's format (23 R440). -/
def elemValue (fmt : Nat) (daz : Bool) (e : Nat) : FVal :=
  match fmt with
  | 6 => FVal.ofInt (sextNat 8 e)
  | 7 => FVal.ofInt (sextNat 4 e)
  | 12 => if e = 0xFF then .nan else .fin false 1 ((e : Int) - 127) false
  | c => match floatOfCode c with
    | some f => f.read daz e
    | none => .nan

/-- The mask of FCLASS (21 Table 21-8). -/
def fclass (x : W32) : W32 :=
  let neg := x.getLsbD 31
  let e := x.toNat / 2 ^ 23 % 256
  let m := x.toNat % 2 ^ 23
  let k : Nat :=
    if e = 255 then (if m = 0 then (if neg then 0 else 7) else if x.getLsbD 22 then 9 else 8)
    else if e = 0 then
      (if m = 0 then (if neg then 3 else 4) else if neg then 2 else 5)
    else if neg then 1 else 6
  1#32 <<< k

/-- The comparisons of 21 Table 21-17. -/
def fcompare (c : FCmp) (a b : FVal) : Bool :=
  let un := a.isNan || b.isNan
  let o := FVal.cmp a b
  match c with
  | .eq => !un && o == .eq
  | .ne => !un && o != .eq
  | .lt => !un && o == .lt
  | .le => !un && o != .gt
  | .gt => !un && o == .gt
  | .ge => !un && o != .lt
  | .num => !un
  | .equ => un || o == .eq
  | .neu => un || o != .eq
  | .ltu => un || o == .lt
  | .leu => un || o != .gt
  | .gtu => un || o == .gt
  | .geu => un || o != .lt
  | .nan => un

/-- FRND of a value (21 R359): rounded to an integral value, a zero keeping the sign. -/
def roundIntegral (rm : RM) (r : W32) (v : FVal) : FRes :=
  match v with
  | .nan => ⟨fmtF32.nanBits, true, false⟩
  | .inf n => ⟨fmtF32.infBits n, false, false⟩
  | .fin n m e st =>
    if 0 ≤ e then ⟨fmtF32.encodeMag n m e, false, false⟩
    else ⟨fmtF32.encodeMag n (roundStep rm r n m e st 0) 0, false, false⟩

end Sys2Proof
end

