-- ==== Sys2Proof/Machine/Transc.lean ====
section
/-! DEFINITION. The transcendental words (21 R352 to R354). The manual bounds each result by 2 ulp of the exact
value and fixes the cases of Table 21-10. The model encloses the exact value in fixed point, takes the free
candidate of Config.transc when it lies within the bound, and the nearest value otherwise (log entry 9). -/

namespace Sys2Proof

/-- Fractional bits of the fixed-point numbers below. -/
def fxP : Nat := 320

/-- 1 in fixed point. -/
def fxOne : Nat := 2 ^ fxP

/-- ln 2 with 320 fractional bits. -/
def fxLn2 : Nat := 0xb17217f7d1cf79abc9e3b39803f2f6af40f343267298b62d8a0d175b8baafa2be7b876206debac98

/-- π with 512 fractional bits. -/
def piBits : Nat :=
  0x3243f6a8885a308d313198a2e03707344a4093822299f31d0082efa98ec4e6c89452821e638d01377be5466cf34e90c6cc0ac29b7c97c50dd3f84d5b5b5470917

/-- The sum of x^k / k! for k from i on, given the term x^(i−1) / (i−1)!;
the fuel bounds the number of terms. -/
def fxExpSum (x : Nat) : Nat → Nat → Nat → Nat
  | 0, _, _ => 0
  | fuel + 1, i, t =>
    let t' := t * x / fxOne / i
    t' + fxExpSum x fuel (i + 1) t'

/-- e^x for 0 ≤ x < 1 in fixed point. -/
def fxExp (x : Nat) : Nat := fxOne + fxExpSum x 70 1 fxOne

/-- The alternating series with terms t, t x² / ((i)(i+1)), …: positive and negative parts. -/
def fxAlt (x2 : Nat) : Nat → Nat → Nat → Int
  | 0, _, _ => 0
  | fuel + 1, i, t =>
    let t' := t * x2 / fxOne / (i * (i + 1))
    (t : Int) - fxAlt x2 fuel (i + 2) t'

/-- sin x for 0 ≤ x < 1.6 in fixed point. -/
def fxSin (x : Nat) : Int := fxAlt (x * x / fxOne) 40 2 x

/-- cos x for 0 ≤ x < 1.6 in fixed point. -/
def fxCos (x : Nat) : Int := fxAlt (x * x / fxOne) 40 1 fxOne

/-- z + z³/3 + z⁵/5 + … in fixed point: half the logarithm of (1 + z) / (1 − z). -/
def fxAtanh (z2 : Nat) : Nat → Nat → Nat → Nat
  | 0, _, _ => 0
  | fuel + 1, i, t => t / i + fxAtanh z2 fuel (i + 2) (t * z2 / fxOne)

/-- mag × 2^exp in fixed point. -/
def fxOf (mag : Nat) (exp : Int) : Nat :=
  let k := exp + fxP
  if 0 ≤ k then mag * 2 ^ k.toNat else mag / 2 ^ (-k).toNat

/-- 2^a as a magnitude and exponent, for |a| < 256. -/
def exp2Val (neg : Bool) (mag : Nat) (exp : Int) : Nat × Int :=
  let x : Int := if neg then -(fxOf mag exp : Int) else fxOf mag exp
  let n := x / fxOne
  let f := (x - n * fxOne).toNat
  (fxExp (f * fxLn2 / fxOne), n - fxP)

/-- log2 of a positive value, signed, in fixed point. -/
def log2Val (mag : Nat) (exp : Int) : Int :=
  let k := bitLen mag - 1
  let m := mag * fxOne / 2 ^ k
  let z := (m - fxOne) * fxOne / (m + fxOne)
  let l := 2 * fxAtanh (z * z / fxOne) 110 1 z
  ((k : Int) + exp) * fxOne + (l * fxOne / fxLn2 : Nat)

/-- The quadrant of a nonnegative value modulo 2π, and the rest below π/2 in fixed point. -/
def reduceQuarter (mag : Nat) (exp : Int) : Nat × Nat :=
  let x := if 0 ≤ exp + 512 then mag * 2 ^ (exp + 512).toNat * 2 else mag * 2 / 2 ^ (-(exp + 512)).toNat
  (x / piBits % 4, x % piBits / 2 / 2 ^ (512 - fxP))

/-- sin of a nonnegative value, signed, in fixed point. -/
def sinVal (mag : Nat) (exp : Int) : Int :=
  let (q, r) := reduceQuarter mag exp
  match q with
  | 0 => fxSin r | 1 => fxCos r | 2 => -fxSin r | _ => -fxCos r

/-- cos of a value, signed, in fixed point. -/
def cosVal (mag : Nat) (exp : Int) : Int :=
  let (q, r) := reduceQuarter mag exp
  match q with
  | 0 => fxCos r | 1 => -fxSin r | 2 => -fxCos r | _ => fxSin r

/-- tanh of a value below 16, in fixed point: (1 − e^(−2a)) / (1 + e^(−2a)). -/
def tanhVal (mag : Nat) (exp : Int) : Nat :=
  let y := 2 * fxOf mag exp * fxOne / fxLn2
  let n := y / fxOne
  let e := fxOne * fxOne / fxExp ((y % fxOne) * fxLn2 / fxOne) / 2 ^ n
  (fxOne - e) * fxOne / (fxOne + e)

/-- The candidate when it is finite and lies within 2 ulp of the exact value (−1)^neg × mag × 2^exp, else the
nearest value; the last bits of the enclosure are charged to the bound. A subnormal result is flushed under FTZ. -/
def within2ulp (cand : W32) (ftz : Bool) (neg : Bool) (mag : Nat) (exp : Int) : W32 :=
  let q := fmtF32.stepExp mag exp
  let near := (fmtF32.round .rne false 0 (.fin neg mag exp true)).bits
  let r : Nat := match fmtF32.decode cand.toNat with
    | .fin cn cm ce _ =>
      let e0 := min exp (min ce q)
      let d := (signedAt cn cm ce e0 - signedAt neg mag exp e0).natAbs
      if d + 64 * 2 ^ (exp - e0).toNat ≤ 2 * 2 ^ (q - e0).toNat then cand.toNat else near
    | _ => near
  if ftz && r % 2 ^ 31 < 2 ^ 23 then BitVec.ofNat 32 (r / 2 ^ 31 * 2 ^ 31) else BitVec.ofNat 32 r

/-- A signed fixed-point number as sign and magnitude. -/
def within2ulpFx (cand : W32) (ftz : Bool) (x : Int) : W32 := within2ulp cand ftz (x < 0) x.natAbs (-(fxP : Int))

/-- A value is a whole number k from lo to hi. -/
def wholeIn (neg : Bool) (mag : Nat) (exp : Int) (lo hi : Int) : Option Int :=
  let k : Option Int := if 0 ≤ exp then some (signedAt neg mag exp 0)
    else if mag % 2 ^ (-exp).toNat = 0 then
      some (if neg then -((mag / 2 ^ (-exp).toNat : Nat) : Int) else (mag / 2 ^ (-exp).toNat : Nat))
    else none
  match k with
  | some k => if lo ≤ k ∧ k ≤ hi then some k else none
  | none => none

/-- A finite magnitude is at least n. -/
def atLeast (mag : Nat) (exp : Int) (n : Nat) : Bool :=
  if 0 ≤ exp then n ≤ mag * 2 ^ exp.toNat else n * 2 ^ (-exp).toNat ≤ mag

/-- A finite magnitude exceeds n. -/
def exceeds (mag : Nat) (exp : Int) (n : Nat) : Bool :=
  if 0 ≤ exp then n < mag * 2 ^ exp.toNat else n * 2 ^ (-exp).toNat < mag

/-- An exact result rounded under FTZ. -/
def exactRes (ftz : Bool) (v : FVal) : FRes := fmtF32.round .rne ftz 0 v

/-- FEXP2 (21 R354, Table 21-10). -/
def fexp2 (x : W32) (daz ftz : Bool) : FRes :=
  match fmtF32.read daz x.toNat with
  | .nan => ⟨fmtF32.nanBits, true, false⟩
  | .inf n => exactRes ftz (if n then .fin false 0 0 false else .inf false)
  | .fin n m e _ =>
    if m = 0 then exactRes ftz (.fin false 1 0 false)
    else if !n && atLeast m e 128 then exactRes ftz (.inf false)
    else if n && exceeds m e 150 then exactRes ftz (.fin false 0 0 false)
    else match wholeIn n m e (-149) 127 with
      | some k => exactRes ftz (.fin false 1 k false)
      | none =>
        let (r, re) := exp2Val n m e
        ⟨(within2ulp (Config.transc 0 x daz ftz) ftz false r re).toNat, false, false⟩

/-- FLOG2 (21 R354, Table 21-10). -/
def flog2 (x : W32) (daz ftz : Bool) : FRes :=
  match fmtF32.read daz x.toNat with
  | .nan => ⟨fmtF32.nanBits, true, false⟩
  | .inf n => exactRes ftz (if n then .nan else .inf false)
  | .fin n m e _ =>
    if m = 0 then exactRes ftz (.inf true)
    else if n then exactRes ftz .nan
    else if 2 ^ (bitLen m - 1) = m then exactRes ftz (FVal.ofInt ((bitLen m : Int) - 1 + e))
    else ⟨(within2ulpFx (Config.transc 1 x daz ftz) ftz (log2Val m e)).toNat, false, false⟩

/-- FSIN (21 R354, Table 21-10). -/
def fsin (x : W32) (daz ftz : Bool) : FRes :=
  match fmtF32.read daz x.toNat with
  | .nan | .inf _ => ⟨fmtF32.nanBits, true, false⟩
  | .fin n m e _ =>
    if m = 0 then exactRes ftz (.fin n 0 0 false)
    else
      let s := sinVal m e
      ⟨(within2ulpFx (Config.transc 2 x daz ftz) ftz (if n then -s else s)).toNat, false, false⟩

/-- FCOS (21 R354, Table 21-10). -/
def fcos (x : W32) (daz ftz : Bool) : FRes :=
  match fmtF32.read daz x.toNat with
  | .nan | .inf _ => ⟨fmtF32.nanBits, true, false⟩
  | .fin _ m e _ =>
    if m = 0 then exactRes ftz (.fin false 1 0 false)
    else ⟨(within2ulpFx (Config.transc 3 x daz ftz) ftz (cosVal m e)).toNat, false, false⟩

/-- FTANH (21 R354, Table 21-10). -/
def ftanh (x : W32) (daz ftz : Bool) : FRes :=
  match fmtF32.read daz x.toNat with
  | .nan => ⟨fmtF32.nanBits, true, false⟩
  | .inf n => exactRes ftz (.fin n 1 0 false)
  | .fin n m e _ =>
    if m = 0 then exactRes ftz (.fin n 0 0 false)
    else if atLeast m e 10 then exactRes ftz (.fin n 1 0 false)
    else
      let t : Int := tanhVal m e
      ⟨(within2ulpFx (Config.transc 4 x daz ftz) ftz (if n then -t else t)).toNat, false, false⟩

end Sys2Proof
end

