-- ==== Sys2Proof/Machine/Alu.lean ====
section
/-! DEFINITION. The computations of the integer, logic and lane words as functions of values (04 R82, 20 to 23).
A value of a 64-bit type is the natural of its register pair, low register first (04 R100). -/

namespace Sys2Proof

/-- Bits of a value of an integer type. -/
def Ty.bitsW (t : Ty) : Nat := if t.is64 then 64 else 32

/-- The type is one of the signed integer types. -/
def Ty.signed (t : Ty) : Bool := t.isSignedInt

/-- An operand read as a value of its type (21 R364). -/
def Ty.value (t : Ty) (x : Nat) : Int := if t.signed then sextNat t.bitsW x else ((x % 2 ^ t.bitsW : Nat) : Int)

/-- A result wrapped to the width of its type. -/
def Ty.wrap (t : Ty) (x : Int) : Nat := intBits t.bitsW x

/-- A result clamped to the range of its type (21 R364). -/
def Ty.clamp (t : Ty) (x : Int) : Int :=
  if t.signed then clampInt (-(2 : Int) ^ (t.bitsW - 1)) (2 ^ (t.bitsW - 1) - 1) x
  else clampInt 0 (2 ^ t.bitsW - 1) x

/-- A result with or without SAT. -/
def Ty.fit (t : Ty) (sat : Bool) (x : Int) : Nat := t.wrap (if sat then t.clamp x else x)

/-- |a| (21 Table 21-21). -/
def aluIabs (t : Ty) (a : Nat) : Nat := t.wrap (t.value a).natAbs
/-- −a. -/
def aluIneg (t : Ty) (a : Nat) : Nat := t.wrap (-t.value a)
/-- a + b. -/
def aluIadd (t : Ty) (sat : Bool) (a b : Nat) : Nat := t.fit sat (t.value a + t.value b)
/-- a − b. -/
def aluIsub (t : Ty) (sat : Bool) (a b : Nat) : Nat := t.fit sat (t.value a - t.value b)
/-- a + SExt(imm24). -/
def aluIaddi (t : Ty) (sat : Bool) (a : Nat) (imm : BitVec 24) : Nat := t.fit sat (t.value a + imm.toInt)
/-- a × b + c. -/
def aluImad (t : Ty) (a b c : Nat) : Nat := t.wrap (t.value a * t.value b + t.value c)
/-- The larger. -/
def aluImax (t : Ty) (a b : Nat) : Nat := t.wrap (max (t.value a) (t.value b))
/-- The smaller. -/
def aluImin (t : Ty) (a b : Nat) : Nat := t.wrap (min (t.value a) (t.value b))
/-- The low bits of the product. -/
def aluImul (t : Ty) (a b : Nat) : Nat := t.wrap (t.value a * t.value b)
/-- Bits [63:32] of the exact product. -/
def aluImulh (t : Ty) (a b : Nat) : Nat := intBits 32 (t.value a * t.value b / 2 ^ 32)

/-- The integer comparisons of 21 R365. -/
def Cmp.holds (c : Cmp) (a b : Int) : Bool :=
  match c with
  | .eq => a == b
  | .ne => a != b
  | .lt => a < b
  | .le => a ≤ b
  | .gt => b < a
  | .ge => b ≤ a

/-- Leading zero bits (20 R339). -/
def aluClz (x : W32) : W32 := BitVec.ofNat 32 (32 - bitLen x.toNat)
/-- Set bits (22 R397). -/
def aluPopc (x : W32) : W32 := BitVec.ofNat 32 (popcount x)
/-- Bits reversed (20 R333). -/
def aluBrev (x : W32) : W32 := maskOf fun i => x.getLsbD (31 - i)

/-- The length that BFI and BFX encode: 0 stands for 32 (20 R325). -/
def bitLenField (len : BitVec 5) : Nat := if len = 0 then 32 else len.toNat

/-- BFI (20 R325). -/
def aluBfi (pos len : BitVec 5) (a b : W32) : W32 :=
  let mask := BitVec.ofNat 32 ((2 ^ bitLenField len - 1) * 2 ^ pos.toNat)
  (a &&& ~~~mask) ||| ((b <<< pos.toNat) &&& mask)

/-- BFX (20 R326). -/
def aluBfx (signed : Bool) (pos len : BitVec 5) (a : W32) : W32 :=
  let w := min (bitLenField len) (32 - pos.toNat)
  let f := a.toNat / 2 ^ pos.toNat % 2 ^ w
  if signed then BitVec.ofInt 32 (sextNat w f) else BitVec.ofNat 32 f

/-- LEA (21 R371): a is the pair. -/
def aluLea (signed : Bool) (sh : BitVec 5) (a : Nat) (b : W32) : Nat :=
  intBits 64 ((a : Int) + (if signed then b.toInt else (b.toNat : Int)) * 2 ^ sh.toNat)

/-- SHL (22 R405). -/
def aluShl (a s : W32) : W32 := if 32 ≤ s.toNat then 0 else a <<< s.toNat
/-- SHR (22 R405). -/
def aluShr (a s : W32) : W32 := if 32 ≤ s.toNat then 0 else a >>> s.toNat
/-- SAR (22 R405). -/
def aluSar (a s : W32) : W32 := a.sshiftRight (min s.toNat 32)
/-- ROT (22 R405). -/
def aluRot (a s : W32) : W32 := a.rotateLeft (s.toNat % 32)

/-- PLOP of one lane (22 R396). -/
def aluPlop (lut : BitVec 4) (a b : Bool) : Bool := lut.getLsbD (2 * a.toNat + b.toNat)

/-- FABS: the sign bits of the type cleared (21 R347). -/
def aluFabs (t : Ty) (a : W32) : W32 := if t = .f32 then a &&& 0x7FFFFFFF else a &&& 0x7FFF7FFF
/-- FNEG: the sign bits of the type inverted (21 R347). -/
def aluFneg (t : Ty) (a : W32) : W32 := if t = .f32 then a ^^^ 0x80000000 else a ^^^ 0x80008000

/-! ### Float words on F32 patterns -/

/-- The captured FPMODE (04 R99, 03 Table 3-3). -/
structure FpMode where
  rm : RM
  ftz : Bool
  daz : Bool
  nanTrap : Bool
  deriving DecidableEq, Repr

/-- FPMODE read from FPM. -/
def FpMode.ofFpm (m : W32) : FpMode :=
  ⟨RM.ofCode (m.extractLsb' 0 3).toNat, m.getLsbD 5, m.getLsbD 6, m.getLsbD 7⟩

/-- The rounding that a word selects (21 R348). -/
def FpMode.sel (m : FpMode) : Rnd → RM
  | .fpmode => m.rm
  | .rne => .rne
  | .rtz => .rtz
  | .rup => .rup
  | .rdn => .rdn
  | .sr => .sr

/-- An F32 operand read under DAZ. -/
def FpMode.rd (m : FpMode) (x : W32) : FVal := fmtF32.read m.daz x.toNat

/-- An exact result rounded to F32 under FTZ. -/
def FpMode.out (m : FpMode) (rm : RM) (r : W32) (v : FVal) : FRes := fmtF32.round rm m.ftz r v

/-- FADD (21 R349). -/
def aluFadd (m : FpMode) (rm : RM) (r a b : W32) : FRes := m.out rm r ((m.rd a).add (rm == .rdn) (m.rd b))
/-- FSUB (21 R349). -/
def aluFsub (m : FpMode) (rm : RM) (r a b : W32) : FRes := m.out rm r ((m.rd a).add (rm == .rdn) (m.rd b).neg)
/-- FMUL (21 R349). -/
def aluFmul (m : FpMode) (rm : RM) (r a b : W32) : FRes := m.out rm r ((m.rd a).mul (m.rd b))
/-- FFMA (21 R349). -/
def aluFfma (m : FpMode) (rm : RM) (r a b c : W32) : FRes :=
  m.out rm r (((m.rd a).mul (m.rd b)).add (rm == .rdn) (m.rd c))

/-- The pattern of a value as read, for FMIN and FMAX. -/
def asRead (m : FpMode) (x : W32) : Nat :=
  match m.rd x with
  | .fin n mag _ _ => if mag = 0 then fmtF32.signBit n else x.toNat
  | _ => x.toNat

/-- FMIN (`big` false) and FMAX (`big` true) (21 R350). -/
def aluFminmax (m : FpMode) (big : Bool) (a b : W32) : FRes :=
  let x := m.rd a
  let y := m.rd b
  if x.isNan && y.isNan then ⟨fmtF32.nanBits, true, false⟩
  else if x.isNan then ⟨asRead m b, false, false⟩
  else if y.isNan then ⟨asRead m a, false, false⟩
  else if FVal.less x y != big then ⟨asRead m a, false, false⟩ else ⟨asRead m b, false, false⟩

/-- Element e of a packed 16-bit pair. -/
def half16 (x : W32) (e : Nat) : Nat := x.toNat / 2 ^ (16 * e) % 2 ^ 16

/-- FDOT2 (21 R355). -/
def aluFdot2 (m : FpMode) (rm : RM) (r a b c : W32) : FRes :=
  let el (x : W32) (e : Nat) := fmtBF16.read m.daz (half16 x e)
  let p0 := (el a 0).mul (el b 0)
  let p1 := (el a 1).mul (el b 1)
  m.out rm r ((p0.add (rm == .rdn) p1).add (rm == .rdn) (m.rd c))

/-- HFMA2 (21 R362): the second element draws after the first. -/
def aluHfma2 (f16 : Bool) (m : FpMode) (rm : RM) (r a b c : W32) : FRes :=
  let f := if f16 then fmtF16 else fmtBF16
  let el (x : W32) (e : Nat) := f.read m.daz (half16 x e)
  let one (e : Nat) (r : W32) := f.round rm m.ftz r (((el a e).mul (el b e)).add (rm == .rdn) (el c e))
  let r0 := one 0 r
  let r1 := one 1 (lfsrStep r)
  ⟨r1.bits * 2 ^ 16 + r0.bits, r0.nanOut || r1.nanOut, false⟩

/-! ### REDUX, SCAN, SHFL, VOTE -/

/-- The combination of two values in REDUX and SCAN (22 Table 22-22, R401), with whether a NaN was produced. -/
def ROp.combine (op : ROp) (ty : Ty) (m : FpMode) (a b : W32) : W32 × Bool :=
  let fl (x : FRes) : W32 × Bool := (BitVec.ofNat 32 x.bits, x.nanOut)
  match op with
  | .add => (a + b, false)
  | .fadd => fl (aluFadd m .rne 0 a b)
  | .min => if ty = .f32 then fl (flushRes (aluFminmax m false a b)) else (BitVec.ofNat 32 (aluImin ty a.toNat b.toNat), false)
  | .max => if ty = .f32 then fl (flushRes (aluFminmax m true a b)) else (BitVec.ofNat 32 (aluImax ty a.toNat b.toNat), false)
  | .and => (a &&& b, false)
  | .or => (a ||| b, false)
  | .xor => (a ^^^ b, false)
where
  /-- each F32 result takes the FTZ of MODE (22 R401) -/
  flushRes (x : FRes) : FRes :=
    if m.ftz && x.bits % 2 ^ 31 < 2 ^ 23 then ⟨x.bits / 2 ^ 31 * 2 ^ 31, x.nanOut, x.nanIn⟩ else x

/-- The exclusive start of SCAN (22 Table 22-22). -/
def ROp.start (op : ROp) (ty : Ty) : W32 :=
  match op with
  | .add | .fadd | .or | .xor => 0
  | .and => 0xFFFFFFFF
  | .min => if ty = .f32 then 0x7F800000 else if ty = .i32 then 0x7FFFFFFF else 0xFFFFFFFF
  | .max => if ty = .f32 then 0xFF800000 else if ty = .i32 then 0x80000000 else 0

/-- An input as REDUX and SCAN read it: F32 under DAZ (22 R401). -/
def ROp.input (ty : Ty) (m : FpMode) (x : W32) : W32 := if ty = .f32 then BitVec.ofNat 32 (asRead m x) else x

/-- A node of the reduction tree: absent, or a value and whether a NaN was produced below it. -/
abbrev RNode := Option (W32 × Bool)

/-- One node from its two children (22 R401). -/
def rnode (op : ROp) (ty : Ty) (m : FpMode) : RNode → RNode → RNode
  | none, y => y
  | x, none => x
  | some (a, na), some (b, nb) => let (c, n) := op.combine ty m a b; some (c, na || nb || n)

/-- One level of the tree: neighbours combined. -/
def rlevel (op : ROp) (ty : Ty) (m : FpMode) : List RNode → List RNode
  | x :: y :: t => rnode op ty m x y :: rlevel op ty m t
  | l => l

/-- The root of the tree after n levels. -/
def rtree (op : ROp) (ty : Ty) (m : FpMode) : Nat → List RNode → RNode
  | 0, l => l.headD none
  | n + 1, l => rtree op ty m n (rlevel op ty m l)

/-- The lanes of the tile of width w that starts at lane t. -/
def tileLanes (w t : Nat) : List Nat := (List.range w).map (t + ·)

/-- The first lane of the tile of lane L (02 R40). -/
def tileBase (w L : Nat) : Nat := L / w * w

/-- REDUX of the tile that starts at t: the root, given the active lanes and their values. -/
def reduxTile (op : ROp) (ty : Ty) (m : FpMode) (w : Nat) (act : W32) (val : Nat → W32) (t : Nat) : RNode :=
  rtree op ty m (Nat.log2 w)
    ((tileLanes w t).map fun L => if act.getLsbD L then some (ROp.input ty m (val L), false) else none)

/-- One step of SCAN: a value combined with what has run so far, if anything has, and whether that produced a NaN. -/
def ROp.step (op : ROp) (ty : Ty) (m : FpMode) (acc : RNode) (x : W32) : RNode :=
  match acc with
  | none => some (x, false)
  | some (a, _) => some (op.combine ty m a x)

/-- SCAN of a lane (22 R401): the combination, in ascending order, of the active lanes of its tile up to and including it, or of the
start value and those below it. -/
def scanLane (op : ROp) (ty : Ty) (m : FpMode) (excl : Bool) (w : Nat) (act : W32) (val : Nat → W32) (L : Nat) : RNode :=
  let lanes := (List.range (if excl then L else L + 1)).filter fun i => act.getLsbD i && tileBase w i == tileBase w L
  lanes.foldl (fun acc i => op.step ty m acc (ROp.input ty m (val i))) (if excl then some (op.start ty, false) else none)

/-- A result of REDUX or SCAN that is a NaN. -/
def ROp.nanOut (ty : Ty) (x : W32) : Bool := ty == .f32 && decide (0x7F800000 < x.toNat % 2 ^ 31)

/-- A result of REDUX or SCAN as written: each F32 result takes the FTZ of MODE (22 R401), and a NaN is the canonical one, since
these words are not among those that keep a NaN as it stands (05 R102). -/
def ROp.output (ty : Ty) (m : FpMode) (x : W32) : W32 :=
  if ty = .f32 && m.ftz && x.toNat % 2 ^ 31 < 2 ^ 23 then x &&& 0x80000000
  else if ROp.nanOut ty x then 0x7FC00000 else x

/-- The source lane of SHFL (22 R409). -/
def shflSrc (mode : ShMode) (w L b : Nat) : Nat :=
  let t := tileBase w L
  match mode with
  | .idx => t + b % w
  | .up => if w ≤ b ∨ L < t + b then L else L - b
  | .down => if w ≤ b ∨ t + w ≤ L + b then L else L + b
  | .xor => t + ((L - t) ^^^ (b % w))

/-- The result of VOTE in the tile of lane L (23 R441), given the active lanes and the predicate's mask. -/
def voteTile (kind : VoteKind) (w : Nat) (act p : W32) (L : Nat) : W32 :=
  let tile := maskOf fun i => tileBase w i == tileBase w L && act.getLsbD i
  let v := tile &&& p
  match kind with
  | .all => if v = tile then 1 else 0
  | .any => if v = 0 then 0 else 1
  | .ballot => v

/-! ### Atomics -/

/-- The new value of an atomic of n bytes (20 R315). -/
def atomNew (op : AOp) (n : Nat) (old b cmp : Nat) : Nat :=
  let t : Ty := if n = 8 then .i64 else .i32
  let u : Ty := if n = 8 then .n64 else .n32
  match op with
  | .add => (old + b) % 2 ^ (8 * n)
  | .mins => aluImin t old b
  | .maxs => aluImax t old b
  | .minu => aluImin u old b
  | .maxu => aluImax u old b
  | .and => old &&& b
  | .or => old ||| b
  | .xor => old ^^^ b
  | .exch => b
  | .cas => if old = cmp then b else old
  | .fadd => (fmtF32.round .rne false 0 ((fmtF32.decode old).add false (fmtF32.decode b))).bits
  | .bfadd =>
    let h (e : Nat) := (fmtBF16.round .rne false 0
      ((fmtBF16.decode (old / 2 ^ (16 * e) % 2 ^ 16)).add false (fmtBF16.decode (b / 2 ^ (16 * e) % 2 ^ 16)))).bits
    h 1 * 2 ^ 16 + h 0

/-- The new value of a signal (23 R411). -/
def sigNew (op : SigKind) (old b : W64) : W64 :=
  match op with
  | .add => old + b
  | .sub => old - b
  | .set => b

/-! ### Pair halves (04 R82) -/

/-- D op S of a half, for the lane's draw r. -/
def halfOp (op : HOp) (m : FpMode) (r d s : W32) : FRes :=
  let i (x : W32) : FRes := ⟨x.toNat, false, false⟩
  match op with
  | .iadd => i (d + s)
  | .isub => i (d - s)
  | .and => i (d &&& s)
  | .or => i (d ||| s)
  | .xor => i (d ^^^ s)
  | .shl => i (aluShl d s)
  | .shr => i (aluShr d s)
  | .sar => i (aluSar d s)
  | .imin => ⟨aluImin .i32 d.toNat s.toNat, false, false⟩
  | .imax => ⟨aluImax .i32 d.toNat s.toNat, false, false⟩
  | .mov => i s
  | .imul => i (d * s)
  | .fadd => aluFadd m m.rm r d s
  | .fsub => aluFsub m m.rm r d s
  | .fmul => aluFmul m m.rm r d s
  | .fmin => aluFminmax m false d s
  | .fmax => aluFminmax m true d s

/-- A half that rounds, and so draws the LFSR under SR. -/
def HOp.rounds : HOp → Bool
  | .fadd | .fsub | .fmul => true
  | _ => false

/-- A float half. -/
def HOp.isFloat : HOp → Bool
  | .fadd | .fsub | .fmul | .fmin | .fmax => true
  | _ => false

/-- The immediate of a half: sign-extended, and converted exactly to F32 in the float halves (04 R82). -/
def halfImm (op : HOp) (s : BitVec 8) : W32 :=
  if op.isFloat then BitVec.ofNat 32 (fmtF32.round .rne false 0 (FVal.ofInt s.toInt)).bits
  else s.signExtend 32

end Sys2Proof
end

