-- ==== Sys2Proof/Machine/PartsMem.lean ====
section
/-! DEFINITION. The state of memory, translation and package control: what 01, 08 and 15 give the basins, the
caches, the contexts, the virtual devices and the driver's registers. -/

namespace Sys2Proof.Machine

/-! ### Memory -/

/-- The six paths of 08 Table 8-8. -/
inductive Path where
  | core | sluice | array | cistern | coll | host
  deriving DecidableEq, Repr

/-- A line of an L1: its data, the bytes that are valid (an acquire leaves a local line its dirty bytes alone), the dirty mask by
byte, the key id, the mark of a shootdown that removed W, the context and virtual page of the access that filled it or wrote it
last, and the slots that wrote its dirty bytes (08 R149, R159, R166, 09 R175, 14 R258). -/
structure L1Line where
  data : BitVec 1024
  valid : BitVec 128
  dirty : BitVec 128
  key : Nat
  unwritable : Bool
  ctx : Nat
  page : Nat
  writers : List (Nat × Nat × Bool)
  deriving DecidableEq, Repr

/-- An element update of SCATTER, applied as its write leaves the buffer (12 R241): operation code and element format. -/
structure ScatUpd where
  op : Nat
  fmt : Nat
  addr : Nat
  value : Nat
  deriving DecidableEq, Repr

/-- A write that has entered an ingress buffer and not left it (08 R167): the bytes of one line that it writes, or
an element update. -/
structure IngressEntry where
  slice : Nat
  gen : Nat
  line : Nat
  key : Nat
  mask : BitVec 128
  data : BitVec 1024
  upd : Option ScatUpd
  /-- the nest of the engine word whose write this is -/
  engine : Option Nat
  /-- the slot whose write this is, if it is one slot's (08 R166) -/
  writer : Option (Nat × Nat × Bool)
  deriving DecidableEq, Repr

/-- A line resident in L2: its tenant, way, key id, range, whether it is held at the lowest retention, and its order of use
(08 R150, R152, 15 R274). -/
structure L2Line where
  tenant : Nat
  way : Nat
  key : Nat
  range : Option Nat
  low : Bool
  used : Nat
  deriving DecidableEq, Repr

/-- A cached translation: context, first page of 4 KiB, pages mapped, first frame, and the leaf's fields (01 R25, Table 1-4). For
a replicated page `frame` is that of the basin's own copy, and `home` that of the page itself (01 R27). -/
structure TlbEntry where
  ctx : Nat
  page : Nat
  pages : Nat
  frame : Nat
  home : Nat
  key : Nat
  cp : Nat
  w : Bool
  x : Bool
  repl : Bool
  deriving DecidableEq, Repr

/-- A read-only copy of a replicated page in a basin (01 R27): the context and the first virtual page for which it was placed, the
pages of 4 KiB that it has, the first frame that it copies, and the first frame of the copy, drawn from the basin's pool. -/
structure Replica where
  ctx : Nat
  vpage : Nat
  pages : Nat
  page : Nat
  basin : Nat
  frame : Nat
  deriving DecidableEq, Repr

/-- A collapse in progress (01 R28): context, first virtual page, pages of 4 KiB and first frame of the replicated page, whether
its entry has been cleared, and the writes that are held, in order of arrival: the steps that make them. -/
structure Collapse where
  ctx : Nat
  page : Nat
  pages : Nat
  frame : Nat
  cleared : Bool
  waiters : List Action
  deriving DecidableEq, Repr

/-- A walk under way in a basin (01 R25): the core, the context and the page whose translation its walker looks for, the step that
missed, and the pages of that step whose walks have failed. -/
structure Walk where
  core : Nat
  ctx : Nat
  page : Nat
  act : Action
  failed : List Nat
  deriving DecidableEq, Repr

/-- A region entry (01 Table 1-2). -/
structure RegionEntry where
  base : W64
  limit : W64
  map : W64
  deriving DecidableEq, Repr

/-- The region table of a basin (01 R15 to R19): staging and active copies, REGION_CTL, the previous table while its
generation drains, and the ranges that the commit rewrote. -/
structure Regions where
  staging : List RegionEntry
  active : List RegionEntry
  gen : Nat
  commitErr : Bool
  busy : Bool
  old : List RegionEntry
  deriving DecidableEq, Repr

/-- A range of a tenant in a basin (08 Table 8-1). -/
structure RangeRegs where
  base : W64
  limit : W64
  ctl : W64
  deriving DecidableEq, Repr

/-- An entry of a basin's watch filter (10 R192): 64 KiB granule and the residency that watches it. -/
structure Watch where
  granule : Nat
  ctx : Nat
  handle : Nat
  deriving DecidableEq, Repr

/-- Memory by byte, in canonical form: addresses rise strictly and no entry equals what an unlisted byte reads as. -/
abbrev Memory := SMap Byte

/-- What a byte that no write has listed reads as (log entry 1). -/
def Memory.unlisted : Byte := 0

/-- The canonical form of memory. -/
def Memory.wf (m : Memory) : Bool := SMap.wf m Memory.unlisted

/-- Memory and caches. `mem` is keyed by the 45-bit physical address and an unlisted byte reads 0 (log entry 1);
`l1` by core and then by line × 512 + key id, and `l2` so too; `ingress` by basin × 8 + path, oldest first; `holders` by line. -/
structure MemState where
  mem : Memory
  /-- key id and key version under which each line was last written (15 R276, R277) -/
  lineKeys : SMap (Nat × Nat)
  l1 : SMap (SMap L1Line)
  ingress : SMap (List IngressEntry)
  holders : SMap Nat
  l2 : SMap L2Line
  /-- accesses of L2 so far, which give its lines their order of use (08 R152) -/
  l2Seq : Nat
  /-- 16-bit access counters keyed by slice, tenant and range (08 R152) -/
  rangeCount : SMap Nat
  l1tlb : SMap (List TlbEntry)
  l2tlb : SMap (List TlbEntry)
  /-- walks under way, by basin (01 R25) -/
  walks : SMap (List Walk)
  /-- pages whose walks have failed for the step that is made again next: core, context, pages, and the tick of that step -/
  failed : Option (Nat × Nat × List Nat × Nat)
  replicas : List Replica
  collapses : List Collapse
  /-- lines whose back-invalidation is outstanding, with the steps that wait for the host's answer in their order (19 R300) -/
  backInv : SMap (List Action)
  /-- lines that the host holds under HDM-DB (19 R300) -/
  hostHeld : List Nat
  /-- lines from a first to a last whose contents became unpredictable at a tick, where no write has followed (01 R20) -/
  scrambled : List (Nat × Nat × Nat)
  /-- pages of the host window in the ATS translation cache, the last used first (19 R298) -/
  ats : List Nat
  deriving DecidableEq, Repr

/-- The control registers of a basin (01, 08, 15). -/
structure BasinState where
  regions : Regions
  /-- ranges keyed by 8 tenant + n -/
  ranges : SMap RangeRegs
  /-- TEN_WAYS keyed by tenant -/
  ways : SMap (BitVec 16)
  hits : SMap W64
  misses : SMap W64
  fhits : SMap W64
  /-- the watch filter and its overflow generation (10 R192 to R194) -/
  watches : List Watch
  watchGen : Nat
  deriving DecidableEq, Repr

/-! ### Package control (15) -/

/-- STATE of a context (15 Table 15-6). -/
inductive CtxState where
  | free | live | dying
  deriving DecidableEq, Repr

/-- PORTn (15 Table 15-1). -/
structure Port where
  allow : W32
  part : BitVec 5
  deriving DecidableEq, Repr

/-- A completion write: its queue, packet number and index, context and signal address, whether the packet succeeded, the release
scope that it carries (16 R287, R290), and the nest whose work that release covers. -/
structure ComplWrite where
  queue : Nat
  id : Nat
  idx : Nat
  ctx : Nat
  addr : W64
  ok : Bool
  rel : Nat
  nest : Option Nat
  deriving DecidableEq, Repr

/-- VD_CFG, VD_POLICY and VD_STAT of a virtual device (15 Tables 15-2, 15-3), the two registers as the last visit of the
scheduler found them (15 R268), and its withheld completions in arrival order (15 R272). -/
structure VirtDev where
  cfg : W64
  policy : W32
  liveCfg : W64
  livePolicy : W32
  deficit : Int
  cfgErr : Nat
  held : List ComplWrite
  deriving DecidableEq, Repr

/-- A key id (15 R276): the key, how often it has been written, and the tenants permitted. -/
structure KeySlot where
  key : BitVec 256
  version : Nat
  tenLo : W64
  tenHi : W64
  deriving DecidableEq, Repr

/-- A shootdown channel (15 Table 15-8). -/
structure SdChannel where
  base : W64
  ctl : W64
  busy : Bool
  deriving DecidableEq, Repr

end Sys2Proof.Machine
end

