-- ==== Sys2Proof/Machine/PartsPkg.lean ====
section
/-! DEFINITION. The state of nests and the walker (06, 07), of array dies and residencies (10), of the basin
engines and communicators (12), of queues (16, 18), of time-sharing (15) and of the management controller (19). -/

namespace Sys2Proof.Machine

/-! ### Nests and the walker -/

/-- A bound descriptor: C and the coefficients of IX0 to IX2 (06 Table 6-2). -/
structure Bound where
  c : Int
  a0 : Int
  a1 : Int
  a2 : Int
  deriving DecidableEq, Repr

/-- A launch record as the walker read it (06 Table 6-1): `lo`, `hi` and the components of each vector by dimension. -/
structure LaunchRec where
  depth : Nat
  deps : List (List Int)
  cw : Nat
  ch : Nat
  persist : Bool
  gang : Bool
  shape : TeamShape
  entry : W64
  aff0 : W64
  aff1 : W64
  fslots : List W32
  lo : List Bound
  hi : List Bound
  deriving DecidableEq, Repr

/-- A row record (06 Table 6-6); `outer` is the row tuple. -/
structure RowRec where
  outer : List Int
  lo : Int
  hi : Int
  retiredLow : Nat
  done : W64
  issued : W64
  deriving DecidableEq, Repr

/-- A bound proposal that waits at the walker: the slot that waits, the bound it names, and the points that were ready
when it arrived and have not been released (07 R146). -/
structure Proposal where
  team : Nat
  grp : Nat
  slot : Bool
  bound : Int
  due : List (List Int)
  deriving DecidableEq, Repr

/-- What the fault record of a nest will hold (14 Table 14-2): the first fault that reached the walker. -/
structure FaultInfo where
  cause : Cause
  sub : Option SubCause
  nested : Bool
  precise : Bool
  pc : W64
  addr : W64
  ix : List W32
  owner : Nat
  slctx : Option Nat
  grp : Option Nat
  tinfo : W32
  time : Nat
  /-- the team whose groups are recorded, if any -/
  team : Option Nat
  /-- group entries once the team halt has ended: GPC, ENDED, BOTH, SKID (14 R250) -/
  groups : List (W64 × Bool × Bool × Nat)
  deriving DecidableEq, Repr

/-- One released point: its coordinates, TEAM and CLUS (06 R140, R142). -/
structure ReadyPoint where
  ix : List Int
  teamIdx : Nat
  clus : Nat
  deriving DecidableEq, Repr

/-- The cores reserved for points that start together: the points of each unit with their cores (06 R143 to R145). -/
abbrev Plan := List (List ReadyPoint × List Nat)

/-- Where a nest stands: active, or aborting once a fault has reached the walker (14 R250, R251). -/
inductive NestPhase where
  | active | faulted
  deriving DecidableEq, Repr

/-- An active nest (06 R125 to R146): its launch, its rows, its counts, format slots and AMAX registers (03 R60, R61),
the partition cursor (06 R141), waiting proposals, the reservation of a persistent nest (06 R144), and its fault (14 R252). `next` is
the first row that has not been considered for a record, none when every row has been. -/
structure Nest where
  ctx : Nat
  vd : Nat
  /-- queue and number of the packet -/
  queue : Nat
  packet : Nat
  launch : LaunchRec
  ub0 : Int
  released : W64
  retired : W64
  rows : List RowRec
  next : Option (List Int)
  maxIx0 : Option Int
  fslots : List W32
  amax : List W32
  amaxst : List W32
  cursor : Nat
  /-- parts of a gang, in packet order (06 R145) -/
  parts : List Nat
  proposals : List Proposal
  started : Bool
  plan : Plan
  /-- the time in ns at which the nest launched, from which its reservation ages (06 R143, R144) -/
  since : Nat
  phase : NestPhase
  fault : Option FaultInfo
  multi : Bool
  deriving DecidableEq, Repr

/-- An entry of a ready queue: a point, or a cluster of consecutive points, of a nest (06 R139 to R142). -/
structure ReadyEntry where
  nest : Nat
  points : List ReadyPoint
  /-- the ordinal of the entry, which a reservation names -/
  id : Nat
  deriving DecidableEq, Repr

/-- A cluster reservation of a port group (06 R143): the entry, the saved teams of a cluster that resumes (14 R261), the core at the
corner of the rectangle, the time in ns at which it began, and whether it has aged. -/
structure Reservation where
  entry : ReadyEntry
  teams : List Nat
  core : Nat
  since : Nat
  aged : Bool
  deriving DecidableEq, Repr

/-- A gang reservation (06 R145): its packet, its record, its cores and the time in ns at which it began. -/
structure Gang where
  queue : Nat
  packet : Nat
  ctx : Nat
  vd : Nat
  launch : LaunchRec
  parts : List Nat
  plan : Plan
  since : Nat
  deriving DecidableEq, Repr

/-! ### Array dies and residencies -/

/-- A recorded source of a residency (10 R186): both planes, their pitches, and the format slot word. -/
structure ResSource where
  ebase : W64
  sbase : W64
  epitch : Nat
  spitch : Nat
  fmt : W32
  deriving DecidableEq, Repr

/-- A residency in a handle table (10 R178 to R190). `marks` counts the happenings that made it STALE on every core, and
`seen` holds, by core, how many of them an MX.RLOAD on that core has undone. `arrived` is the newest load generation whose load
has arrived on its barrier (10 R186). `pads` counts the loads from scratchpad, each of which
makes it STALE on every other core, and `padSeen` holds, by core, how many of them the core's own last load or instance stands
behind. -/
structure Residency where
  k32 : Nat
  n16 : Nat
  fmt : W32
  pinned : Bool
  loaded : Bool
  source : Option ResSource
  loadGen : Nat
  arrived : Nat
  marks : Nat
  seen : SMap Nat
  pads : Nat
  padSeen : SMap Nat
  /-- basins whose overflow generation watches it (10 R194) -/
  overflow : List Nat
  deriving DecidableEq, Repr

/-- An entry of a handle table: its generation and residency (10 R180). -/
structure HandleEntry where
  gen : Nat
  res : Option Residency
  deriving DecidableEq, Repr

/-- The copy of a residency in the macros of a core (10 R182, R186): element codes keyed n × K + k, scales keyed
n × K ÷ 32 + b with 0x7F unlisted, the element format of its contents, load generation, last use and whether a load is
under way. -/
structure MacroCopy where
  ctx : Nat
  index : Nat
  macros : Nat
  loadGen : Nat
  fmt : W32
  elems : SMap Nat
  scales : SMap Nat
  used : Nat
  loading : Bool
  deriving DecidableEq, Repr

/-- What an operation needs of a residency, as it was when the word issued (10 R182, R186). -/
structure ResUse where
  handle : Nat
  k32 : Nat
  n16 : Nat
  loadGen : Nat
  fmt : W32
  source : Option ResSource
  deriving DecidableEq, Repr

/-- A quarter operation (10 Tables 10-7 and 10-8): MX.RUN, or MX.DIST when `dist`, with the format slot of the A rows. -/
structure RunOp where
  dist : Bool
  use : ResUse
  tile : Nat
  addr : Nat
  row0 : Nat
  m : Nat
  koff : Nat
  klen : Nat
  noff : Nat
  nlen : Nat
  fmt : W32
  deriving DecidableEq, Repr

/-- The operation of an array FIFO entry (10 R201) with its operands (10 R198, R204, Table 10-4). -/
inductive ArrayOp where
  | run (op : RunOp)
  /-- a load, from scratchpad when `pad`, through a format slot -/
  | rload (use : ResUse) (src : ResSource) (pad : Bool) (slotNo : Nat)
  | drain (dst pitch cols rows tile : Nat) (fmt : W32) (slotNo : Nat) (lfsr : W32)
  | topk (dst k cols rows tile : Nat)
  | zero (tile tiles : Nat)
  deriving DecidableEq, Repr

/-- An entry of an array FIFO: who posted it, its word and the barrier it arrives on (10 R201, R209). Its A rows lie at `span`: team,
offset and length in scratchpad. -/
structure ArrayEntry where
  team : Nat
  grp : Nat
  nest : Nat
  ctx : Nat
  pc : W64
  op : ArrayOp
  bar : Nat
  /-- NANTRAP of FPM when the word issued, and the first NaN of its pass as TINFO (05 R124) -/
  nanTrap : Bool
  nan : Option W32
  span : Nat × Nat × Nat
  /-- addresses of the A rows that a group has rewritten since (22 R382) -/
  spoiled : List Nat
  /-- bytes of the A rows, or of the planes of a load, as the operation read them when it started (10 R200, 22 R382, R386) -/
  rows : List Byte
  deriving DecidableEq, Repr

/-! ### Basin engines -/

/-- The five engine words (12 R233). -/
inductive EngineKind where
  | a2av | aredc | esort | gather | scatter
  deriving DecidableEq, Repr

/-- How far an engine word has come: issued, its indices read (GATHER), or its writes made, with success or a collective error
(12 R236, R240, R245). -/
inductive EngineStage where
  | issued
  | counted
  | written (ok : Bool)
  deriving DecidableEq, Repr

/-- An engine word that has issued and whose stamp is not written (12 R234 to R238). `desc` is its copy of the 64-byte
descriptor as eight doublewords. -/
structure EngineWord where
  kind : EngineKind
  desc : List W64
  team : Nat
  grp : Nat
  nest : Nat
  ctx : Nat
  vd : Nat
  core : Nat
  pc : W64
  /-- coordinates of the point -/
  ix : List W32
  /-- the outstanding word of the group that receives the count of a GATHER -/
  pend : Nat
  stage : EngineStage
  /-- indices of a GATHER once they are read -/
  indices : List Nat
  /-- scratchpad lines, by team, whose presence bits the word cleared -/
  lines : List (Nat × Nat)
  /-- descriptor of the format slot of an AREDC -/
  fmt : W32
  /-- largest magnitude among the x values of an AREDC -/
  amax : W32
  /-- ordinal on its communicator, and time of issue in ns -/
  seq : Nat
  since : Nat
  deriving DecidableEq, Repr

/-- A message of another rank (12 R244 to R247): rank, ordinal, kind with its fields, and its data. One of another kind than its word,
as a fault of the rank sends, ends the word in a collective error. -/
structure CollMsg where
  rank : Nat
  seq : Nat
  cmd : List Nat
  data : List Byte
  deriving DecidableEq, Repr

/-- A communicator of a virtual device (12 R244, R245): its packages in the order of their ranks, local rank, timeout in ns, the
ordinal of the next local word, and the messages that have arrived. -/
structure Comm where
  packages : List Nat
  rank : Nat
  timeout : Nat
  seq : Nat
  msgs : List CollMsg
  deriving DecidableEq, Repr

/-! ### Cores -/

/-- A core: array FIFO and the running pass in FIFO order (10 R201, R202), macro copies (10 R182), the pinned macros that
each context left on it (10 R196), Sluice contexts and codebook (11 R211, R225), the lines of the instruction
cache of the Sluice processor, the last used first, by physical line and key id (11 R211), the contexts that drain, since when in ns
and whether they have been saved (14 R260), the Sluice contexts of packets in its slabs with their numbers (11 R232), and
scratchpad units of 64 KiB (08 R147). -/
structure Core where
  fifo : List ArrayEntry
  pass : List ArrayEntry
  copies : List MacroCopy
  pinnedNeed : SMap Nat
  sl0 : SlCtx
  sl1 : SlCtx
  sl2 : SlCtx
  sl3 : SlCtx
  book : Codebook
  icache : List (Nat × Nat × List Byte)
  draining : SMap (Nat × Bool)
  savedSl : List (Nat × SlCtx)
  padUnits : Nat
  deriving DecidableEq, Repr

/-! ### Contexts -/

/-- A context (15 Table 15-6) with its handle table (10 R180). -/
structure Ctx where
  root : W64
  save : W64
  fault : W64
  handler : W64
  cfg : W64
  state : CtxState
  handles : SMap HandleEntry
  deriving DecidableEq, Repr

/-- CTX_CMD (15 Table 15-7). -/
structure CtxCmd where
  status : Nat
  busy : Bool
  ctx : Nat
  deriving DecidableEq, Repr

/-! ### Time-sharing (15 R269 to R271) -/

/-- A slice that runs in a partition: its virtual device, its start in ns, its length in scheduling ticks, whether it is
charged, whether the weight-0 rule has ended it, and the cores and contexts whose drains have ended. -/
structure Slice where
  vd : Nat
  start : Nat
  length : Int
  charged : Bool
  stopped : Bool
  ended : List (Nat × Nat)
  deriving DecidableEq, Repr

/-- The schedule of a partition: the running slice, the device that the round robin visits, whether its credit has been added,
its VD_CFG and VD_POLICY as they were then (15 R268), the weight-0 device that ran last, and the devices that have
drained here and have not started again (15 R272). -/
structure PartSched where
  slice : Option Slice
  visit : Nat
  inVisit : Bool
  cfg : W64
  policy : W32
  zero : Nat
  drained : List Nat
  deriving DecidableEq, Repr

/-! ### Queues (16, 18) -/

/-- STATE of a queue (16 Table 16-1). -/
inductive QState where
  | disabled | active | error
  deriving DecidableEq, Repr

/-- The work of a processed packet that has not completed (16 Table 16-3), or its outcome: none for success, or the code
of its failure (16 Table 16-5, 06 Table 6-5). -/
inductive PktWork where
  | barrier (deps : List W64)
  | nest (id : Nat)
  | gang (id : Nat)
  | sluice (core sctx : Nat)
  | outcome (code : Option Nat)
  deriving DecidableEq, Repr

/-- A packet that has been processed and has not completed (16 R286): its own number, its index, the context and device of its queue
as they were then, its header, its work, and the nest that it launched. -/
structure Packet where
  id : Nat
  idx : Nat
  ctx : Nat
  vd : Nat
  ty : Nat
  hold : Bool
  rel : Nat
  compl : W64
  work : PktWork
  nest : Option Nat
  /-- address, FSLOT, AMAX and AMAXST of a SLUICE packet's slot block (16 R289) -/
  block : W64
  fslots : List W32
  amax : List W32
  amaxst : List W32
  deriving DecidableEq, Repr

/-- A failure or a retirement that a lane applies (16 R292, 18 R297): the number of a packet in flight, or none for the packet at RIDX;
its index, signal, context and device; the code, or none for a packet that retires unexecuted; and how far the lane has come: the −1
write made, the queue in ERROR. -/
structure Failing where
  id : Option Nat
  idx : Nat
  ctx : Nat
  vd : Nat
  compl : W64
  code : Option Nat
  signalled : Bool
  recorded : Bool
  deriving DecidableEq, Repr

/-- A hardware queue: QHDR, and CTX and VD of QCTL, as written; the header address, context and device that it is bound to since its
ENABLE was written from 0 to 1 (log entry 112); the header as read, indices and doorbell state (16 R282 to R294): `s` and `w` are S and W
of 16 R293, `reconciled` is the time in ns of the last reconcile, `head` is the launch record of a packet that waits at RIDX for a nest
(06 R125, R129), empty for one that waits for a Sluice context, `err` is ERRCODE and ERRPKT, and `failing` are the failures that the lane
has found, in their order. -/
structure Queue where
  hdr : W64
  qctx : Nat
  qvd : Nat
  header : W64
  ctx : Nat
  vd : Nat
  enable : Bool
  state : QState
  base : W64
  logsize : Nat
  ridx : Nat
  s : Nat
  w : Nat
  inflight : List Packet
  head : Option (List Byte)
  reconciled : Nat
  err : Option (Nat × Nat)
  failing : List Failing
  deriving DecidableEq, Repr

/-! ### Management (19 R302 to R306) -/

/-- An entry of the event log (19 R303). -/
inductive LogEntry where
  | softError (addr : Nat)
  | thermal (power : Nat)
  | firmware (version : Nat) (ok : Bool)
  | boot (image : Bool) (ok : Bool)
  | faultRecord (ctx : Nat) (cause : Cause)
  | attestation (leaf : Nat)
  deriving DecidableEq, Repr

/-- A firmware image: its version and whether its signature verifies (19 R304). -/
structure FwImage where
  version : Nat
  sigOk : Bool
  deriving DecidableEq, Repr

/-- What the device last answered the host: nothing yet, data that was read, the end of a request, Unsupported Request, the
one-time leaf of a signature, or a refusal (19 R298, R299, R305). -/
inductive HostReply where
  | none
  | data (b : List Byte)
  | done
  | unsupported
  | leaf (n : Nat)
  | refused
  deriving DecidableEq, Repr

/-- The management controller: the log and its overflow count, the last values of the sensors, which are power by rail in W, the
temperatures of the dies, and those of the cold plate's inlet and outlet, the time in ns of the last sample, the samples of the power
average, the lowered clock, images A and B with the one that runs and the one marked to boot, the used-leaf counter, and whether any
packet executes. -/
structure Mgmt where
  log : List LogEntry
  overflow : Nat
  rails : List Nat
  dies : List Int
  inlet : Int
  outlet : Int
  sampled : Option Nat
  power : List Nat
  lowered : Bool
  imgA : FwImage
  imgB : FwImage
  running : Bool
  marked : Bool
  leaves : Nat
  booted : Bool
  deriving DecidableEq, Repr

end Sys2Proof.Machine
end

