-- ==== Sys2Proof/Machine/State.lean ====
section
/-! DEFINITION. The whole state of the package as plain data, the reasons a word can stop for, and the state after reset.
INVENTORY.md lists every field with the rule that names it and its reset value. -/

namespace Sys2Proof.Machine

/-- Why the machine stops. The traps and faults of the manual (14 Table 14-1) are no stops: they are taken, in State. -/
inductive Fault where
  /-- Raised by the meaning of a word that is run while State.cur names no live slot and no running Sluice context: there is
  no group whose word it is. Step never runs a word so. Safe: no word of the device issues without an issuer. -/
  | noIssuer
  deriving DecidableEq, Repr

/-- Why an instruction has no meaning. -/
inductive Refusal where
  /-- Raised by the dispatch for an instruction that has no meaning yet. Safe: the machine stops. -/
  | notModelled (mnemonic : String)
  deriving DecidableEq, Repr

/-- The machine. Tables are keyed as follows: `basins` by basin; `teams`, `nests`, `gangs`, `engines` by their ids; `cores`
by core; `ready` by 96 basin + 3 partition + sub-queue; `reservations` by 8 die + port group; `comms` by
256 device + entry; `quotas` by tenant. An unlisted entry of `basins`, `cores`, `ctxs`, `vds`, `ports`, `keys`, `sd`,
`parts` and `queues` is at its reset value. `turned` lists the requests of steps other than the words of groups that were rejected,
with the resource (08 Table 8-8 for an ingress buffer, 6 + basin for walkers), the step and the time in cycles of the first
rejection (08 R154), and `retry` is that time for the step that is made now. `tick`, `agenda`, `cur` and `serial` are the model's
own; `reply` is what the device last answered the host. -/
structure State where
  clk : Nat
  time : Nat
  /-- thirds of a ns that TIME has not counted yet (00 R1) -/
  sub : Nat
  tick : Nat
  agenda : List Action
  cur : Option Issuer
  serial : Nat
  m : MemState
  turned : List (Nat × Action × Nat)
  retry : Option Nat
  basins : SMap BasinState
  teams : SMap Team
  cores : SMap Core
  nests : SMap Nest
  /-- the nest whose point the walker released last (06 R134) -/
  walker : Nat
  ready : SMap (List ReadyEntry)
  reservations : SMap Reservation
  gangs : SMap Gang
  engines : SMap EngineWord
  comms : SMap Comm
  ctxs : SMap Ctx
  cmd : CtxCmd
  vds : SMap VirtDev
  ports : SMap Port
  keys : SMap KeySlot
  sd : SMap SdChannel
  quotas : SMap Nat
  parts : SMap PartSched
  queues : SMap Queue
  mgmt : Mgmt
  reply : HostReply
  deriving DecidableEq, Repr

/-! ### Reset values -/

/-- A PC slot that is not live. -/
def PcSlot.empty : PcSlot := ⟨0, 0, 0⟩

/-- The trap registers at reset and team start (03 Table 3-2). -/
def TrapRegs.reset : TrapRegs := ⟨false, false, false, 0, 0, 0, 0, 0, 0, none, none⟩

/-- A Sluice descriptor when a context starts (11 Table 11-1). -/
def SlDescr.start : SlDescr := ⟨0, [1, 1, 1, 1, 1], [0, 0, 0, 0, 0], 0⟩

/-- A Sluice context at reset: FREE with serial 0 (11 R212, R213). -/
def SlCtx.reset : SlCtx where
  state := .free
  status := 0
  serial := 0
  w := []
  flag := false
  pc := 0
  desc := [SlDescr.start, SlDescr.start, SlDescr.start, SlDescr.start]
  lfsr := 1
  owner := .none
  ctx := 0
  work := []
  todo := []
  cbSource := none
  wait := none
  faulted := none
  passed := 0

/-- A core at reset: nothing queued, held or resident. -/
def Core.reset : Core where
  fifo := []
  pass := []
  copies := []
  pinnedNeed := []
  sl0 := SlCtx.reset
  sl1 := SlCtx.reset
  sl2 := SlCtx.reset
  sl3 := SlCtx.reset
  book := ⟨none, 0, []⟩
  icache := []
  draining := []
  savedSl := []
  padUnits := 0

/-- A region entry at reset (01 Table 1-2). -/
def RegionEntry.reset : RegionEntry := ⟨0, 0, 0xF704⟩

/-- The region table of a basin at reset (01 Tables 1-2 and 1-3). -/
def Regions.reset : Regions where
  staging := List.replicate 16 RegionEntry.reset
  active := List.replicate 16 RegionEntry.reset
  gen := 0
  commitErr := false
  busy := false
  old := []

/-- A basin at reset. -/
def BasinState.reset : BasinState := ⟨Regions.reset, [], [], [], [], [], [], 0⟩

/-- A handle table entry when its context is created (15 R279). -/
def HandleEntry.start : HandleEntry := ⟨1, none⟩

/-- The registers of a context at reset (15 Table 15-6): DRAIN is 10 µs. -/
def Ctx.reset : Ctx := ⟨0, 0, 0, 0, 0x280000, .free, []⟩

/-- A virtual device at reset (15 Tables 15-2 and 15-3). -/
def VirtDev.reset : VirtDev := ⟨0, 0, 0, 0, 0, 0, []⟩

/-- PORTn at reset (15 Table 15-1). -/
def Port.reset : Port := ⟨0xFFFFFFFF, 0⟩

/-- A key id at reset: no tenant permitted (15 R276). -/
def KeySlot.reset : KeySlot := ⟨0, 0, 0, 0⟩

/-- A shootdown channel at reset (15 Table 15-8). -/
def SdChannel.reset : SdChannel := ⟨0, 0, false⟩

/-- The schedule of a partition at reset: no slice runs, and the first visit is to device 0. -/
def PartSched.reset : PartSched := ⟨none, 127, false, 0, 0, 127, []⟩

/-- A queue at reset: DISABLED (16 Table 16-1). -/
def Queue.reset : Queue := ⟨0, 0, 0, 0, 0, 0, false, .disabled, 0, 0, 0, 0, 0, [], none, 0, none, []⟩

/-- The management controller at reset (log entry 4): two valid images, A running and marked. -/
def Mgmt.reset : Mgmt := ⟨[], 0, [], [], 0, 0, none, [], false, ⟨1, true⟩, ⟨1, true⟩, false, false, 0, true⟩

/-- Memory and caches at reset: nothing written and nothing held. -/
def MemState.reset : MemState where
  mem := []
  lineKeys := []
  l1 := []
  ingress := []
  holders := []
  l2 := []
  l2Seq := 0
  rangeCount := []
  l1tlb := []
  l2tlb := []
  walks := []
  failed := none
  replicas := []
  collapses := []
  backInv := []
  hostHeld := []
  scrambled := []
  ats := []

/-- The machine right after reset. No context is live, no queue is enabled and no nest is active: a program comes to run as
log entry 3 says. -/
def State.reset : State where
  clk := 0
  time := 0
  sub := 0
  tick := 0
  agenda := []
  cur := none
  serial := 1
  m := MemState.reset
  turned := []
  retry := none
  basins := []
  teams := []
  cores := []
  nests := []
  walker := 0
  ready := []
  reservations := []
  gangs := []
  engines := []
  comms := []
  ctxs := []
  cmd := ⟨0, false, 0⟩
  vds := []
  ports := []
  keys := []
  sd := []
  quotas := []
  parts := []
  queues := []
  mgmt := Mgmt.reset
  reply := .none

end Sys2Proof.Machine
end

