-- ==== Sys2Proof/Machine/Regs.lean ====
section
/-! DEFINITION. Named reads and updates of the state: the tables of the package, the group and slot that a word runs for,
the register files (03 R53, R54) with the guard (04 R76), and the step of a PC slot (02 R48, R49). -/

namespace Sys2Proof.Machine

/-! ### Tables -/

def State.core (s : State) (c : Nat) : Core := s.cores.getD c Core.reset
def State.basin (s : State) (b : Nat) : BasinState := s.basins.getD b BasinState.reset
def State.ctx (s : State) (c : Nat) : Ctx := s.ctxs.getD c Ctx.reset
def State.vd (s : State) (v : Nat) : VirtDev := s.vds.getD v VirtDev.reset
def State.port (s : State) (n : Nat) : Port := s.ports.getD n Port.reset
def State.key (s : State) (k : Nat) : KeySlot := s.keys.getD k KeySlot.reset
def State.chan (s : State) (n : Nat) : SdChannel := s.sd.getD n SdChannel.reset
def State.part (s : State) (p : Nat) : PartSched := s.parts.getD p PartSched.reset
def State.queue (s : State) (q : Nat) : Queue := s.queues.getD q Queue.reset

def State.updCore (s : State) (c : Nat) (f : Core → Core) : State := { s with cores := s.cores.put c (f (s.core c)) }
def State.updBasin (s : State) (b : Nat) (f : BasinState → BasinState) : State :=
  { s with basins := s.basins.put b (f (s.basin b)) }
def State.updCtx (s : State) (c : Nat) (f : Ctx → Ctx) : State := { s with ctxs := s.ctxs.put c (f (s.ctx c)) }
def State.updVd (s : State) (v : Nat) (f : VirtDev → VirtDev) : State := { s with vds := s.vds.put v (f (s.vd v)) }
def State.updPart (s : State) (p : Nat) (f : PartSched → PartSched) : State :=
  { s with parts := s.parts.put p (f (s.part p)) }
def State.updQueue (s : State) (q : Nat) (f : Queue → Queue) : State :=
  { s with queues := s.queues.put q (f (s.queue q)) }
def State.updNest (s : State) (n : Nat) (f : Nest → Nest) : State := { s with nests := s.nests.upd n f }
def State.updTeam (s : State) (t : Nat) (f : Team → Team) : State := { s with teams := s.teams.upd t f }
def State.updGroup (s : State) (t g : Nat) (f : Group → Group) : State :=
  s.updTeam t fun tm => { tm with groups := listUpd f g tm.groups }

/-- A group of a team. -/
def State.group? (s : State) (t g : Nat) : Option Group :=
  match s.teams.find? t with
  | some tm => tm.groups[g]?
  | none => none

/-! ### Slots -/

/-- PC slot S0 or S1 of a group. -/
def GroupRegs.slot (r : GroupRegs) (b : Bool) : PcSlot := if b then r.s1 else r.s0

/-- The registers with a PC slot replaced. -/
def GroupRegs.setSlot (r : GroupRegs) (b : Bool) (ps : PcSlot) : GroupRegs :=
  if b then { r with s1 := ps } else { r with s0 := ps }

/-- A slot is live when its mask is nonzero. -/
def PcSlot.live (ps : PcSlot) : Bool := ps.mask != 0

/-- What a slot waits for. -/
def Group.wait (g : Group) (b : Bool) : Option Wait := if b then g.w1 else g.w0

/-- The group with what a slot waits for replaced. -/
def Group.setWait (g : Group) (b : Bool) (w : Option Wait) : Group :=
  if b then { g with w1 := w } else { g with w0 := w }

/-- REPC.LEFT, DONE and STRIDES (02 Table 2-4). -/
def repcLeft (r : W32) : Nat := (r.extractLsb' 0 7).toNat
def repcDone (r : W32) : Nat := (r.extractLsb' 8 7).toNat
def repcStrides (r : W32) : BitVec 12 := r.extractLsb' 16 12

/-- REPC from LEFT, DONE and STRIDES; 0 when no issue is left (02 R48). -/
def mkRepc (left done : Nat) (strides : BitVec 12) : W32 :=
  if left = 0 then 0
  else (strides.setWidth 32 <<< 16) ||| (BitVec.ofNat 32 (done % 128) <<< 8) ||| BitVec.ofNat 32 (left % 128)

/-- The slot after a word: the next word, or the next issue of a repeat (02 R48). -/
def PcSlot.advance (ps : PcSlot) : PcSlot :=
  if ps.repc = 0 then { ps with pc := ps.pc + 8 }
  else if repcLeft ps.repc ≤ 1 then { ps with pc := ps.pc + 8, repc := 0 }
  else { ps with repc := mkRepc (repcLeft ps.repc - 1) (repcDone ps.repc + 1) (repcStrides ps.repc) }

/-- The registers with a slot moved past its word. -/
def GroupRegs.advance (r : GroupRegs) (b : Bool) : GroupRegs := r.setSlot b (r.slot b).advance

/-- The slot that a word runs for, with its team and group as they stand. -/
structure Site where
  team : Nat
  grp : Nat
  slot : Bool
  tm : Team
  g : Group
  deriving DecidableEq, Repr

/-- The site of a slot, when the slot is live. -/
def State.siteAt (s : State) (t g : Nat) (b : Bool) : Option Site :=
  match s.teams.find? t with
  | some tm =>
    match tm.groups[g]? with
    | some gr => if (gr.r.slot b).live then some ⟨t, g, b, tm, gr⟩ else none
    | none => none
  | none => none

/-- The site of the current issuer. -/
def State.site? (s : State) : Option Site :=
  match s.cur with
  | some (.grp t g b) => s.siteAt t g b
  | _ => none

def Site.ps (w : Site) : PcSlot := w.g.r.slot w.slot
def Site.mask (w : Site) : W32 := w.ps.mask
def Site.pc (w : Site) : W64 := w.ps.pc
def Site.ctx (w : Site) : Nat := w.tm.ctx
def Site.core (w : Site) : Nat := w.tm.core

/-- The meaning of a word of a group: a state for its site, or the fault of a word with no issuer. -/
def onSite (s : State) (f : Site → State) : Host.Outcome State Fault Refusal :=
  match s.site? with
  | some w => .next (f w)
  | none => .fault .noIssuer

/-! ### Register files -/

def GroupRegs.rdV (r : GroupRegs) (n L : Nat) : W32 := r.v.getD (32 * n + L) 0
def GroupRegs.rdS (r : GroupRegs) (n : Nat) : W32 := r.s.getD n 0

/-- A predicate as a mask of lanes; p7 is true in every lane (03 R54). -/
def GroupRegs.rdP (r : GroupRegs) (n : Nat) : W32 := if n = 7 then 0xFFFFFFFF else r.p.getD n 0

def GroupRegs.wrV (r : GroupRegs) (n L : Nat) (x : W32) : GroupRegs := { r with v := r.v.set 0 (32 * n + L) x }
def GroupRegs.wrS (r : GroupRegs) (n : Nat) (x : W32) : GroupRegs := { r with s := r.s.set 0 n x }

/-- A predicate written in the lanes of a mask; p7 is constant (03 R54). -/
def GroupRegs.wrP (r : GroupRegs) (n : Nat) (mask x : W32) : GroupRegs :=
  if n = 7 then r else { r with p := r.p.set 0 n ((r.rdP n &&& ~~~mask) ||| (x &&& mask)) }

/-- A pair: the low half in the even register (00 R7). -/
def join64 (lo hi : W32) : W64 := hi ++ lo
def lo32 (x : W64) : W32 := x.setWidth 32
def hi32 (x : W64) : W32 := (x >>> 32).setWidth 32

def GroupRegs.rdV64 (r : GroupRegs) (n L : Nat) : W64 := join64 (r.rdV n L) (r.rdV (n + 1) L)
def GroupRegs.rdS64 (r : GroupRegs) (n : Nat) : W64 := join64 (r.rdS n) (r.rdS (n + 1))
def GroupRegs.wrV64 (r : GroupRegs) (n L : Nat) (x : W64) : GroupRegs :=
  (r.wrV n L (lo32 x)).wrV (n + 1) L (hi32 x)
def GroupRegs.wrS64 (r : GroupRegs) (n : Nat) (x : W64) : GroupRegs := (r.wrS n (lo32 x)).wrS (n + 1) (hi32 x)

/-- A v register in a lane, or an s register whatever the lane (04 R100). -/
def GroupRegs.rd (r : GroupRegs) (uni : Bool) (n L : Nat) : W32 := if uni then r.rdS n else r.rdV n L
def GroupRegs.rd64 (r : GroupRegs) (uni : Bool) (n L : Nat) : W64 := if uni then r.rdS64 n else r.rdV64 n L

/-- A v register written in the lanes of a list, each lane with its own value (04 R99). -/
def GroupRegs.wrLanes (r : GroupRegs) (n : Nat) (lanes : List Nat) (f : Nat → W32) : GroupRegs :=
  lanes.foldl (fun r' L => r'.wrV n L (f L)) r
def GroupRegs.wrLanes64 (r : GroupRegs) (n : Nat) (lanes : List Nat) (f : Nat → W64) : GroupRegs :=
  lanes.foldl (fun r' L => r'.wrV64 n L (f L)) r

/-- One register write of a long-latency result. -/
def GroupRegs.applyWrite (r : GroupRegs) : RegWrite → GroupRegs
  | .v n L x => r.wrV n L x
  | .s n x => r.wrS n x
  | .p n mask val => r.wrP n mask val

def GroupRegs.applyWrites (r : GroupRegs) (ws : List RegWrite) : GroupRegs := ws.foldl GroupRegs.applyWrite r

/-! ### Guards -/

/-- The mask of lanes that pass a guard (04 R76). -/
def GroupRegs.guardMask (r : GroupRegs) (g : Guard) : W32 :=
  if g.neg then ~~~(r.rdP g.p.toNat) else r.rdP g.p.toNat

/-- ACTIVE(G): the lanes of the issuing slot that pass the guard (04 R76, R100). -/
def Site.active (w : Site) (g : Guard) : W32 := w.mask &&& w.g.r.guardMask g
def Site.lanes (w : Site) (g : Guard) : List Nat := lanesOf (w.active g)

/-! ### Commit -/

/-- An outstanding word after slot b has issued a word: its window shrinks, and a control or system word closes it
(04 R80). -/
def Pending.count (b closes : Bool) (p : Pending) : Pending :=
  if p.slot == b then { p with left := if closes then 0 else p.left - 1 } else p

/-- The result is not written. -/
def Pending.out (p : Pending) : Bool := p.kind != .landed

/-- No result of the group is outstanding. -/
def Group.noneOut (g : Group) : Bool := g.pend.all fun p => !p.out

/-- The window of a result that is written has closed. -/
def Pending.spent (p : Pending) : Bool := !p.out && p.left == 0

/-- The group after slot b has issued a word: lookahead windows (04 R80), the speculative window (08 R165) and the skid of a
halting team (14 R250) count it, and the slot waits for nothing. -/
def Group.count (b closes skid : Bool) (g : Group) : Group :=
  { g with
    pend := (g.pend.map (Pending.count b closes)).filter fun p => !p.spent
    spec := g.spec.map fun win => if win.slot == b then { win with left := win.left - 1 } else win
    st := if skid then { g.st with skid := g.st.skid + 1 } else g.st
    w0 := if b then g.w0 else none
    w1 := if b then none else g.w1 }

/-- A skid word: the halt of the team has reached the group (14 R250). -/
def Site.skid (w : Site) : Bool := w.tm.phase == .halting && w.g.st.reached

/-- The state with the registers of the issuing group replaced and its slot moved past a word, which counts as skid or not. -/
def Site.commitAs (w : Site) (s : State) (skid : Bool) (r : GroupRegs) : State :=
  s.updGroup w.team w.grp fun g => { g.count w.slot false skid with r := r.advance w.slot }

/-- The state with the registers of the issuing group replaced by a control or system word that leaves its own PC. -/
def Site.commitCtlAs (w : Site) (s : State) (skid : Bool) (r : GroupRegs) : State :=
  s.updGroup w.team w.grp fun g => { g.count w.slot true skid with r := r }

/-- The commit of a word that issues. -/
def Site.commit (w : Site) (s : State) (r : GroupRegs) : State := w.commitAs s w.skid r
def Site.commitCtl (w : Site) (s : State) (r : GroupRegs) : State := w.commitCtlAs s w.skid r

/-- The state with the issuing group changed by a function. -/
def Site.upd (w : Site) (s : State) (f : Group → Group) : State := s.updGroup w.team w.grp f

/-- A per-lane word: D of every active lane receives a value read before any write (04 R99). -/
def Site.vec (w : Site) (s : State) (g : Guard) (d : BitVec 8) (f : Nat → W32) : State :=
  w.commit s (w.g.r.wrLanes d.toNat (w.lanes g) f)

/-- A vector or uniform word (04 R77): `f` gives the result of a lane, and the uniform form takes lane 0's. -/
def Site.res (w : Site) (s : State) (g : Guard) (uni : Bool) (d : BitVec 8) (f : Nat → W32) : State :=
  if uni then w.commit s (w.g.r.wrS d.toNat (f 0)) else w.vec s g d f

/-- A vector or uniform word with a 64-bit result. -/
def Site.res64 (w : Site) (s : State) (g : Guard) (uni : Bool) (d : BitVec 8) (f : Nat → W64) : State :=
  if uni then w.commit s (w.g.r.wrS64 d.toNat (f 0))
  else w.commit s (w.g.r.wrLanes64 d.toNat (w.lanes g) f)

/-- A word that writes a predicate in its active lanes. -/
def Site.pred (w : Site) (s : State) (g : Guard) (p : BitVec 3) (f : Nat → Bool) : State :=
  w.commit s (w.g.r.wrP p.toNat (w.active g) (maskOf f))

/-- The registers with a uniform word's predicate written in every lane of the slot (04 R77). -/
def Site.wrPred (w : Site) (p : BitVec 3) (b : Bool) : GroupRegs :=
  w.g.r.wrP p.toNat w.mask (if b then 0xFFFFFFFF else 0)

/-! ### Sluice contexts -/

/-- A running Sluice context for which a word runs. -/
structure SlSite where
  core : Nat
  n : Nat
  c : SlCtx
  deriving DecidableEq, Repr

/-- The action that issues the word of a Sluice context. -/
def SlSite.act (w : SlSite) : Action := .issue (.sluice w.core w.n)

/-- Sluice context n of a core. -/
def Core.sl (c : Core) (n : Nat) : SlCtx :=
  match n with
  | 0 => c.sl0
  | 1 => c.sl1
  | 2 => c.sl2
  | _ => c.sl3

/-- The core with a Sluice context replaced. -/
def Core.setSl (c : Core) (n : Nat) (x : SlCtx) : Core :=
  match n with
  | 0 => { c with sl0 := x }
  | 1 => { c with sl1 := x }
  | 2 => { c with sl2 := x }
  | _ => { c with sl3 := x }

def State.slAt (s : State) (core n : Nat) : Option SlSite :=
  let c := (s.core core).sl n
  if n < 4 && c.state == .running then some ⟨core, n, c⟩ else none

def State.slSite? (s : State) : Option SlSite :=
  match s.cur with
  | some (.sluice core n) => s.slAt core n
  | _ => none

/-- The meaning of a word of a Sluice context. -/
def onSluice (s : State) (f : SlSite → State) : Host.Outcome State Fault Refusal :=
  match s.slSite? with
  | some w => .next (f w)
  | none => .fault .noIssuer

def State.updSl (s : State) (core n : Nat) (f : SlCtx → SlCtx) : State :=
  s.updCore core fun c => c.setSl n (f (c.sl n))
def SlSite.upd (w : SlSite) (s : State) (f : SlCtx → SlCtx) : State := s.updSl w.core w.n f

def SlCtx.rd (c : SlCtx) (n : Nat) : W64 := c.w.getD n 0
def SlCtx.wr (c : SlCtx) (n : Nat) (x : W64) : SlCtx := { c with w := c.w.set 0 n x }

/-- The context moved past its word. -/
def SlCtx.advance (c : SlCtx) : SlCtx := { c with pc := c.pc + 8 }

/-- The B operand: a register or the sign-extended immediate (11 R216). -/
def SlCtx.rdB (c : SlCtx) : SlB → W64
  | .reg b => c.rd b.toNat
  | .imm v => v.signExtend 64

end Sys2Proof.Machine
end

