-- ==== Sys2Proof/Machine/Xlate.lean ====
section
/-! DEFINITION. Where cores, ports and slices stand (01 R9 to R16, 02 R34), the connection matrix (15 R265), and the
translation of virtual addresses (01 R21 to R27). -/

namespace Sys2Proof.Machine

/-! ### Places -/

/-- Cores of the package (00 R2). -/
def coreCount : Nat := 384
/-- The die of a core: 96 cores each (02 R34). -/
def coreDie (c : Nat) : Nat := c / 96
/-- Row and column of a core in the 8 × 12 mesh of its die, numbered by rows (log entry 15). -/
def coreRow (c : Nat) : Nat := c % 96 / 12
def coreCol (c : Nat) : Nat := c % 12
/-- Port group of a core on its die: 2 rows × 6 columns (02 R34). -/
def corePg (c : Nat) : Nat := coreRow c / 2 * 2 + coreCol c / 6
/-- Requester port of a core (15 R264). -/
def corePort (c : Nat) : Nat := 8 * coreDie c + corePg c
/-- The core at a row and column of a port group, counted from its corner. -/
def pgCore (port row col : Nat) : Nat :=
  96 * (port / 8) + 12 * (port % 8 / 2 * 2 + row) + (port % 8 % 2 * 6 + col)
/-- The cores of a port group in ascending number. -/
def pgCores (port : Nat) : List Nat :=
  (List.range 2).flatMap fun r => (List.range 6).map fun c => pgCore port r c
/-- The nearest basin of a core (01 R10). -/
def coreBasin (c : Nat) : Nat := coreDie c
/-- Basins in the order of 06 R140, counted from d. -/
def basinOrder (d : Nat) : List Nat := [d % 4, (d + 1) % 4, (d + 3) % 4, (d + 2) % 4]

/-- What a physical address names (01 R12, R13). -/
inductive Place where
  | lpddr (basin off : Nat)
  | host
  | hole
  deriving DecidableEq, Repr

/-- LPDDR6 bytes of a basin. -/
def lpddrSize : Nat := 192 * 2 ^ 30

/-- The place of a 45-bit physical address. -/
def placeOf (pa : Nat) : Place :=
  let basin := pa / 2 ^ 43 % 4
  let off := pa % 2 ^ 43
  if off < lpddrSize then .lpddr basin off
  else if basin = 0 && 2 ^ 42 ≤ off then .host
  else .hole

def lineOf (pa : Nat) : Nat := pa / 128
def basinOf (pa : Nat) : Nat := pa / 2 ^ 43 % 4

/-- BASE, LIMIT and fields of a region entry in 64 KiB units (01 Table 1-2). -/
def RegionEntry.valid (e : RegionEntry) : Bool := e.base.getLsbD 0
def RegionEntry.lo (e : RegionEntry) : Nat := (e.base.extractLsb' 16 27).toNat
def RegionEntry.hi (e : RegionEntry) : Nat := (e.limit.extractLsb' 16 27).toNat
def RegionEntry.gran (e : RegionEntry) : Nat := (e.map.extractLsb' 0 3).toNat
def RegionEntry.slgrp (e : RegionEntry) : BitVec 3 := e.map.extractLsb' 8 3
def RegionEntry.chgrp (e : RegionEntry) : BitVec 4 := e.map.extractLsb' 12 4
def RegionEntry.holds (e : RegionEntry) (off : Nat) : Bool :=
  e.valid && e.lo ≤ off / 65536 && off / 65536 ≤ e.hi

/-- The slices of the groups of a mask, ascending. -/
def sliceSet (g : BitVec 3) : List Nat :=
  ([0, 1, 2].filter fun k => g.getLsbD k).flatMap fun k => (List.range 16).map fun i => 16 * k + i

/-- The sub-channels of the channel groups of a mask, ascending: 32 of the basin's 128 in each group (01 R9, R16). -/
def channelSet (g : BitVec 4) : List Nat :=
  ([0, 1, 2, 3].filter fun k => g.getLsbD k).flatMap fun k => (List.range 32).map fun i => 32 * k + i

/-- The granule of a basin offset with the entry that places it, if one does (01 R16). -/
def granuleIn (t : List RegionEntry) (off : Nat) : Option RegionEntry × Nat :=
  match t.find? fun e => e.holds off with
  | some e => (some e, (off - e.lo * 65536) / 2 ^ (8 + e.gran))
  | none => (none, off / 2 ^ 12)

/-- The slice that serves a basin offset under a region table (01 R16). -/
def sliceIn (t : List RegionEntry) (off : Nat) : Nat :=
  match granuleIn t off with
  | (some e, g) => let set := sliceSet e.slgrp; set.getD (g % set.length) 0
  | (none, g) => g % 48

/-- The LPDDR6 sub-channel that serves a basin offset under a region table (01 R16). -/
def channelIn (t : List RegionEntry) (off : Nat) : Nat :=
  match granuleIn t off with
  | (some e, g) => let set := channelSet e.chgrp; set.getD (g % set.length) 0
  | (none, g) => g % 128

/-- The slice of a physical address under the active table of its home basin. -/
def State.sliceOf (s : State) (pa : Nat) : Nat := sliceIn (s.basin (basinOf pa)).regions.active (pa % 2 ^ 43)

/-- The sub-channel of a physical address under the active table of its home basin. -/
def State.channelOf (s : State) (pa : Nat) : Nat := channelIn (s.basin (basinOf pa)).regions.active (pa % 2 ^ 43)

/-- The connection matrix (15 R264, R265): requests of a port to the memory-side port of an address. Host-window
requests name no slice and pass (log entry 16). -/
def State.portAllows (s : State) (port pa : Nat) : Bool :=
  match placeOf pa with
  | .lpddr b _ => (s.port port).allow.getLsbD (8 * b + s.sliceOf pa / 6)
  | _ => true

/-! ### Contexts, tenants and keys -/

/-- VD of CTX_CFG, DRAIN in µs (15 Table 15-6). -/
def Ctx.vd (c : Ctx) : Nat := (c.cfg.extractLsb' 8 7).toNat
def Ctx.drain (c : Ctx) : Nat := (c.cfg.extractLsb' 18 14).toNat
/-- Fields of VD_CFG and VD_POLICY (15 Tables 15-2 and 15-3). -/
def VirtDev.tenant (v : VirtDev) : Nat := (v.cfg.extractLsb' 0 7).toNat
def VirtDev.enabled (v : VirtDev) : Bool := v.cfg.getLsbD 7
def VirtDev.weight (v : VirtDev) : Nat := (v.cfg.extractLsb' 8 8).toNat
def VirtDev.quantum (v : VirtDev) : Nat := (v.cfg.extractLsb' 16 16).toNat
def VirtDev.owns (v : VirtDev) (p : Nat) : Bool := p < 32 && v.cfg.getLsbD (32 + p)
def VirtDev.scopeTen (v : VirtDev) : Bool := v.policy.getLsbD 0
def VirtDev.clipTrap (v : VirtDev) : Bool := v.policy.getLsbD 1
def VirtDev.overrunOk (v : VirtDev) : Bool := v.policy.getLsbD 2
/-- The partitions that a virtual device owns, ascending (15 R267). -/
def VirtDev.owned (v : VirtDev) : List Nat := (List.range 32).filter v.owns

/-- A virtual device with its registers as the last visit of the scheduler found them (15 R268, log entry 111). -/
def VirtDev.now (v : VirtDev) : VirtDev := { v with cfg := v.liveCfg, policy := v.livePolicy }
def State.vdNow (s : State) (v : Nat) : VirtDev := (s.vd v).now

def State.tenantOf (s : State) (ctx : Nat) : Nat := (s.vdNow (s.ctx ctx).vd).tenant

/-- A tenant may use a key id (15 R276). -/
def KeySlot.permits (k : KeySlot) (ten : Nat) : Bool :=
  if ten < 64 then k.tenLo.getLsbD ten else k.tenHi.getLsbD (ten - 64)

/-! ### Page tables -/

/-- A leaf as the walker finds it. -/
structure Leaf where
  frame : Nat
  pages : Nat
  key : Nat
  cp : Nat
  w : Bool
  x : Bool
  repl : Bool
  deriving DecidableEq, Repr

def pteV (e : W64) : Bool := e.getLsbD 0
def pteW (e : W64) : Bool := e.getLsbD 1
def pteX (e : W64) : Bool := e.getLsbD 2
def pteRepl (e : W64) : Bool := e.getLsbD 3
def pteLeaf (e : W64) : Bool := e.getLsbD 4
def pteC64 (e : W64) : Bool := e.getLsbD 5
def pteCp (e : W64) : Nat := (e.extractLsb' 6 2).toNat
def pteFrame (e : W64) : Nat := (e.extractLsb' 12 33).toNat
def pteKey (e : W64) : Nat := (e.extractLsb' 45 8).toNat
/-- Reserved bits [63:53] and [11:8]. -/
def pteRsvd (e : W64) : Bool := e.extractLsb' 53 11 != 0 || e.extractLsb' 8 4 != 0

/-- Key id of a write under no key id: the host link and firmware (log entry 8). -/
def noKey : Nat := 256

/-- The tick at which the contents of a line became unpredictable, if no write to it has followed (01 R20). -/
def MemState.lostAt (m : MemState) (line : Nat) : Option Nat :=
  if (m.lineKeys.find? line).isSome then none
  else (m.scrambled.find? fun r => r.1 ≤ line && line ≤ r.2.1).map fun r => r.2.2

/-- A byte of memory at its home. -/
def MemState.home (m : MemState) (pa : Nat) : Byte :=
  match m.lostAt (lineOf pa) with
  | some t => Config.freeByte t pa
  | none => m.mem.getD pa Memory.unlisted
/-- Bytes of memory at a home, little-endian (00 R4). -/
def MemState.homeNat (m : MemState) (pa n : Nat) : Nat := bytesToNat (readBytes m.home pa n)

/-- The 16 entries of a 64 KiB page agree and their frames follow a 64 KiB-aligned one (01 R24). A reserved bit or another LEAF
in a sibling entry counts as a mismatch too (log entry 92). -/
def c64Ok (m : MemState) (table idx : Nat) (e : W64) : Bool :=
  let base := idx / 16 * 16
  let first : W64 := BitVec.ofNat 64 (m.homeNat (table + 8 * base) 8)
  pteFrame first % 16 == 0 &&
  (List.range 16).all fun i =>
    let x : W64 := BitVec.ofNat 64 (m.homeNat (table + 8 * (base + i)) 8)
    pteC64 x && pteV x == pteV e && pteW x == pteW e && pteX x == pteX e && pteRepl x == pteRepl e &&
    pteLeaf x == pteLeaf e && pteCp x == pteCp e && pteKey x == pteKey e && pteFrame x == pteFrame first + i &&
    !pteRsvd x

/-- The checks and fields of a leaf at a level (01 R22 to R24). -/
def leafAt (m : MemState) (level table idx : Nat) (e : W64) : Except Cause Leaf :=
  let fr := pteFrame e
  let small := level == 1 && pteC64 e
  if (level == 2 && fr % 2 ^ 9 != 0) || (level == 3 && fr % 2 ^ 18 != 0) then .error .xlateNp
  else if pteRepl e && (level == 3 || placeOf (fr * 4096) == .host) then .error .xlateNp
  else if placeOf (fr * 4096) == .hole then .error .xlateNp
  else if small && !c64Ok m table idx e then .error .xlateProt
  else
    let host := placeOf (fr * 4096) == .host
    .ok ⟨if small then fr / 16 * 16 else fr, if small then 16 else 2 ^ (9 * (level - 1)), pteKey e,
      if host then 3 else pteCp e, pteW e, pteX e, pteRepl e⟩

/-- The table entry that a walk reads at a level. -/
def entryAddr (va level table : Nat) : Nat := table + 8 * (va / 2 ^ (12 + 9 * (level - 1)) % 512)

/-- The walk of the levels that are left, from a table (01 R21 to R24). A table read that the connection matrix refuses
raises PARTITION (15 R265), and a table that lies in a hole is not present (log entry 17). -/
def State.walk (s : State) (ok : Nat → Bool) (va : Nat) : List Nat → Nat → Except Cause Leaf
  | [], _ => .error .xlateNp
  | level :: rest, table =>
    let idx := va / 2 ^ (12 + 9 * (level - 1)) % 512
    if placeOf table == .hole then .error .xlateNp
    else if !ok (table + 8 * idx) then .error .partition
    else
      let e : W64 := BitVec.ofNat 64 (s.m.homeNat (table + 8 * idx) 8)
      if !pteV e || pteRsvd e || (pteC64 e && level != 1) then .error .xlateNp
      else if pteLeaf e then (if level == 4 then .error .xlateNp else leafAt s.m level table idx e)
      else if level == 1 then .error .xlateNp
      else s.walk ok va rest (pteFrame e * 4096)

/-- The root table of a context. -/
def Ctx.rootPa (c : Ctx) : Nat := (c.root.extractLsb' 12 33).toNat * 4096

/-- The table entries that a walk reads, in order. -/
def State.walkReads (s : State) (va : Nat) : List Nat → Nat → List Nat
  | [], _ => []
  | level :: rest, table =>
    let a := entryAddr va level table
    let e : W64 := BitVec.ofNat 64 (s.m.homeNat a 8)
    if placeOf table == .hole then []
    else if !pteV e || pteLeaf e then [a]
    else a :: s.walkReads va rest (pteFrame e * 4096)

/-- A walk of the tables of a context from the root, with the test of the connection matrix. -/
def State.walkCtx (s : State) (ok : Nat → Bool) (ctx va : Nat) : Except Cause Leaf :=
  s.walk ok va [4, 3, 2, 1] (s.ctx ctx).rootPa

/-! ### TLBs -/

def TlbEntry.covers (e : TlbEntry) (ctx page : Nat) : Bool :=
  e.ctx == ctx && e.page ≤ page && page < e.page + e.pages

/-- A cached translation of a core (01 R25): its L1 TLB, then the L2 TLB of its nearest basin. -/
def State.tlb? (s : State) (core ctx page : Nat) : Option TlbEntry :=
  match (s.m.l1tlb.getD core []).find? fun e => e.covers ctx page with
  | some e => some e
  | none => (s.m.l2tlb.getD (coreBasin core) []).find? fun e => e.covers ctx page

/-- The entry that a leaf gives for a page. -/
def Leaf.entry (l : Leaf) (ctx page : Nat) : TlbEntry :=
  ⟨ctx, page / l.pages * l.pages, l.pages, l.frame, l.frame, l.key, l.cp, l.w, l.x, l.repl⟩

/-- The entry that the L2 TLB of a basin takes: of a replicated page it carries the frame of the basin's own copy, where one is
placed (01 R27). -/
def State.nearCopy (s : State) (basin : Nat) (e : TlbEntry) : TlbEntry :=
  match s.m.replicas.find? fun r => e.repl && r.basin == basin && r.ctx == e.ctx && r.vpage == e.page && r.page == e.home with
  | some r => { e with frame := r.frame }
  | none => e

/-- The translation of a page for a core: a cached one as long as it is cached, else the tables. -/
def State.xlate (s : State) (core ctx page : Nat) : Except Cause TlbEntry :=
  match s.tlb? core ctx page with
  | some e => .ok e
  | none =>
    match s.walkCtx (s.portAllows (corePort core)) ctx (page * 4096) with
    | .ok l => .ok (s.nearCopy (coreBasin core) (l.entry ctx page))
    | .error c => .error c

/-- What an access does with its page. -/
inductive Mode where
  | read | write | exec
  deriving DecidableEq, Repr

/-- A translated address. -/
structure Phys where
  pa : Nat
  page : Nat
  key : Nat
  cp : Nat
  host : Bool
  repl : Bool
  deriving DecidableEq, Repr

/-- The permission of an access: the key id for every access, W for a write, X for a fetch (01 R23). -/
def State.permit (s : State) (ctx : Nat) (mode : Mode) (e : TlbEntry) : Bool :=
  (s.key e.key).permits (s.tenantOf ctx) && (mode != .write || e.w) && (mode != .exec || e.x)

/-- The address that an entry gives: a read or a fetch goes to the basin's own copy, a write to the page itself (01 R27, R28). -/
def TlbEntry.phys (e : TlbEntry) (mode : Mode) (va : Nat) : Phys :=
  let pa := ((if mode = .write then e.home else e.frame) + (va / 4096 - e.page)) * 4096 + va % 4096
  ⟨pa, va / 4096, e.key, e.cp, placeOf pa == .host, e.repl⟩

/-- The physical address of a virtual one in the page itself, whichever copy of it serves the reads of the core (01 R27). -/
def State.homeOf (s : State) (core ctx va : Nat) : Option Nat :=
  match s.xlate core ctx (va / 4096) with
  | .ok e => some (e.phys .write va).pa
  | .error _ => none

/-- Translation of a virtual address for a core, with permission (04 R100). -/
def State.physOf (s : State) (core ctx : Nat) (mode : Mode) (va : Nat) : Except Cause Phys :=
  if 2 ^ 48 ≤ va then .error .xlateNp
  else
    match s.xlate core ctx (va / 4096) with
    | .error c => .error c
    | .ok e => if !s.permit ctx mode e then .error .xlateProt else .ok (e.phys mode va)

/-- Translation for a request that enters the crossbar: after permission the connection matrix (04 R100, 15 R265). -/
def State.resolve (s : State) (core ctx : Nat) (mode : Mode) (va : Nat) : Except Cause Phys :=
  match s.physOf core ctx mode va with
  | .error c => .error c
  | .ok ph => if !s.portAllows (corePort core) ph.pa then .error .partition else .ok ph

/-- The ports whose partitions a virtual device owns (15 R264, R267). -/
def State.vdPorts (s : State) (vd : Nat) : List Nat :=
  (List.range 32).filter fun p => (s.vdNow vd).owns (s.port p).part.toNat

/-- The connection matrix for a request that the package makes for a context: one of the ports of its virtual device reaches the
address (log entry 31). -/
def State.fwAllows (s : State) (ctx pa : Nat) : Bool :=
  let ports := s.vdPorts (s.ctx ctx).vd
  ports.isEmpty || ports.any fun p => s.portAllows p pa

/-- Translation without a core: the driver's and Fountainhead's own accesses to a context's memory (15 R279, 16 Table 16-5) walk
its tables and use no TLB (log entry 31). -/
def State.resolveFw (s : State) (ctx : Nat) (mode : Mode) (va : Nat) : Except Cause Phys :=
  if 2 ^ 48 ≤ va then .error .xlateNp
  else
    match s.walkCtx (s.fwAllows ctx) ctx (va / 4096 * 4096) with
    | .error c => .error c
    | .ok l =>
      let e := l.entry ctx (va / 4096)
      if !s.permit ctx mode e then .error .xlateProt
      else
        let ph := e.phys mode va
        if !s.fwAllows ctx ph.pa then .error .partition else .ok ph

/-! ### Filling and shooting down -/

/-- An entry put first in a TLB of a size; a full TLB loses one entry, which the manual leaves open (log entry 11). -/
def tlbInsert (size k : Nat) (e : TlbEntry) (l : List TlbEntry) : List TlbEntry :=
  if l.length < size then e :: l else e :: l.eraseIdx (k % l.length)

/-- The TLBs of a core and its basin after a walk (01 R25). -/
def State.fillTlb (s : State) (core : Nat) (e : TlbEntry) : State :=
  let b := coreBasin core
  let l1 := s.m.l1tlb.getD core []
  let l2 := s.m.l2tlb.getD b []
  { s with m := { s.m with
      l1tlb := s.m.l1tlb.put core (tlbInsert 128 (Config.freeNat s.tick 1) e l1)
      l2tlb := s.m.l2tlb.put b (tlbInsert 32768 (Config.freeNat s.tick 2) e l2) } }

/-- The cached translations of a context that meet a range of pages removed everywhere (01 R26). -/
def State.shootTlb (s : State) (ctx lo hi : Nat) : State :=
  let keep : TlbEntry → Bool := fun e => !(e.ctx == ctx && e.page < hi && lo < e.page + e.pages)
  { s with m := { s.m with
      l1tlb := s.m.l1tlb.mapVals fun _ l => l.filter keep
      l2tlb := s.m.l2tlb.mapVals fun _ l => l.filter keep } }

end Sys2Proof.Machine
end

