-- ==== Sys2Proof/Machine/Mem.lean ====
section
/-! DEFINITION. Device memory: what a path reads, how writes enter and leave the ingress buffers (08 R167), the L1 of a
core (08 R149), the L2 directory (08 R150 to R152, 15 R274) and what a write that performs at its home makes known
(08 R166, 10 R193, 22 R378). -/

namespace Sys2Proof.Machine

/-! ### Lines -/

/-- The mask of n bytes from an offset of a line. -/
def byteMask (off n : Nat) : BitVec 128 := BitVec.ofNat 128 ((2 ^ n - 1) * 2 ^ off)
/-- Byte i of a line. -/
def lineByte (d : BitVec 1024) (i : Nat) : Byte := d.extractLsb' (8 * i) 8
/-- Bytes placed in a line from an offset. -/
def lineOfBytes (off : Nat) (b : List Byte) : BitVec 1024 := BitVec.ofNat 1024 (bytesToNat b * 2 ^ (8 * off))
/-- The offsets of a mask, ascending. -/
def maskBytes (m : BitVec 128) : List Nat := (List.range 128).filter fun i => m.getLsbD i
/-- The bits of the bytes of a mask. -/
def spread (m : BitVec 128) : BitVec 1024 :=
  BitVec.ofNat 1024 ((maskBytes m).foldl (fun a i => a + 255 * 2 ^ (8 * i)) 0)
/-- A line with the bytes of a mask taken from another. -/
def mergeLine (old new : BitVec 1024) (m : BitVec 128) : BitVec 1024 :=
  (old &&& ~~~(spread m)) ||| (new &&& spread m)

/-- Path numbers of 08 Table 8-8. -/
def Path.code : Path → Nat
  | .core => 0 | .sluice => 1 | .array => 2 | .cistern => 3 | .coll => 4 | .host => 5

/-- The paths in order of their bits. -/
def allPaths : List Path := [.core, .sluice, .array, .cistern, .coll, .host]

/-! ### What a path reads -/

/-- A line that reads as it was written under a key id: it lies in the host window, it was last written under that key id
and its present key, under no key id, or never (15 R276, R277). -/
def State.keyHolds (s : State) (line key : Nat) : Bool :=
  placeOf (128 * line) == .host ||
  match s.m.lineKeys.find? line with
  | some (k, v) => k == noKey || ((k == key || key == noKey) && v == (s.key k).version)
  | none => true

/-- The key id and key version of a line after a write: one under no key id leaves a valid pair. -/
def State.keyTag (s : State) (line key : Nat) : Nat × Nat :=
  if key = noKey && s.keyHolds line noKey then (s.m.lineKeys.find? line).getD (noKey, 0)
  else (key, (s.key key).version)

/-- A byte at its home under a key id; under another key id or an old key it is unpredictable (15 R277, log entry 8). -/
def State.homeByte (s : State) (key pa : Nat) : Byte :=
  if s.keyHolds (lineOf pa) key then s.m.home pa else Config.freeByte s.tick pa

/-- The list of an ingress buffer, oldest first. -/
def MemState.buffer (m : MemState) (basin : Nat) (p : Path) : List IngressEntry :=
  m.ingress.getD (8 * basin + p.code) []

/-- An entry writes a byte address. -/
def IngressEntry.writes (e : IngressEntry) (key pa : Nat) : Bool :=
  e.line == lineOf pa && e.key == key && e.upd.isNone && e.mask.getLsbD (pa % 128)

/-- The entries of a region table that a commit changed, as they were and as they are. -/
def Regions.changed (r : Regions) : List RegionEntry :=
  (List.range 16).flatMap fun n =>
    let x := r.old.getD n RegionEntry.reset
    let y := r.active.getD n RegionEntry.reset
    if x = y then [] else [x, y].filter (·.valid)

/-- A line lies in a range that the commit which still drains has rewritten (01 R19). -/
def State.rewritten (s : State) (line : Nat) : Bool :=
  let r := (s.basin (basinOf (128 * line))).regions
  r.busy && r.changed.any fun e => e.holds (128 * line % 2 ^ 43)

/-- A write of the old generation to a rewritten range (01 R19). -/
def State.oldWrite (s : State) (e : IngressEntry) : Bool :=
  s.rewritten e.line && e.gen != (s.basin (basinOf (128 * e.line))).regions.gen

/-- One element update at the home slice: 1 ADD.I32, 2 ADD.F32 with RNE and the canonical NaN (12 R241, 08 R156). -/
def scatCombine (op : Nat) (old v : W32) : W32 :=
  if op = 1 then old + v
  else (fmtF32.round .rne false 0
    (FVal.add false (fmtF32.read false old.toNat) (fmtF32.read false v.toNat))).bits |> BitVec.ofNat 32

/-- The four bytes of an element after a write of the buffer has performed on them. -/
def IngressEntry.over (e : IngressEntry) (at_ : Nat) (b : List Byte) : List Byte :=
  match e.upd with
  | none => b.mapIdx fun i x => if e.mask.getLsbD ((at_ + i) % 128) then lineByte e.data ((at_ + i) % 128) else x
  | some u =>
    if u.addr = at_ then natToBytes 4 (scatCombine u.op (BitVec.ofNat 32 (bytesToNat b)) (BitVec.ofNat 32 u.value)).toNat else b

/-- A byte as a path reads it whose line has element updates in the buffer: they and the writes around them perform for that path in
their order (08 R167, 22 R406). -/
def State.updatedByte (s : State) (p : Path) (key pa : Nat) : Byte :=
  let at_ := pa / 4 * 4
  (((s.m.buffer (basinOf pa) p).filter fun e => e.line == lineOf pa && e.key == key && !s.oldWrite e).foldl
    (fun b e => e.over at_ b) (readBytes (s.homeByte key) at_ 4)).getD (pa - at_) 0

/-- A byte as a path reads it: its own ingress buffer, newest first, then the home (08 R167). What a write of the old generation
put into a rewritten range is as unpredictable as the range (01 R20). -/
def State.pathByte (s : State) (p : Path) (key pa : Nat) : Byte :=
  let l := s.m.buffer (basinOf pa) p
  if l.any fun e => e.line == lineOf pa && e.upd.isSome then s.updatedByte p key pa
  else
    match l.reverse.find? fun e => e.writes key pa && !s.oldWrite e with
    | some e => lineByte e.data (pa % 128)
    | none => s.homeByte key pa

/-- A byte that a path reads for a translated address. -/
def State.readByte (s : State) (p : Path) (ph : Phys) (i : Nat) : Byte := s.pathByte p ph.key (ph.pa + i)

/-- The bytes that a path reads for a translated address. -/
def State.readPath (s : State) (p : Path) (ph : Phys) (n : Nat) : List Byte :=
  (List.range n).map fun i => s.readByte p ph i

/-! ### L1 -/

/-- The key of a line under a key id, or under none, in the tables of lines. -/
def l1Key (line key : Nat) : Nat := 512 * line + key
def keyLine (k : Nat) : Nat := k / 512
def MemState.l1Of (m : MemState) (core : Nat) : SMap L1Line := m.l1.getD core []
def State.setL1 (s : State) (core : Nat) (l : SMap L1Line) : State := { s with m := { s.m with l1 := s.m.l1.put core l } }
def State.l1Line? (s : State) (core : Nat) (ph : Phys) : Option L1Line :=
  if ph.cp = 0 && !ph.host then (s.m.l1Of core).find? (l1Key (lineOf ph.pa) ph.key) else none

/-- Bytes of a line from an offset are valid in L1. -/
def L1Line.covers (l : L1Line) (off n : Nat) : Bool := byteMask off n &&& ~~~l.valid == 0

/-- An access of n bytes hits L1 (08 R150). -/
def State.l1Hit (s : State) (core : Nat) (ph : Phys) (n : Nat) : Bool :=
  match s.l1Line? core ph with
  | some l => l.covers (ph.pa % 128) n
  | none => false

/-- A byte of a plain load: L1 for cache policy 0, else the home slice (08 R149, R150). -/
def State.coreByte (s : State) (core : Nat) (ph : Phys) (i : Nat) : Byte :=
  match s.l1Line? core ph with
  | some l => if l.valid.getLsbD ((ph.pa + i) % 128) then lineByte l.data ((ph.pa + i) % 128) else s.readByte .core ph i
  | none => s.readByte .core ph i

/-- A byte of an ordered load of cluster scope or wider: the core's own dirty bytes, else the home slice (08 R159, R163). -/
def State.orderedByte (s : State) (core : Nat) (ph : Phys) (i : Nat) : Byte :=
  match s.l1Line? core ph with
  | some l =>
    if l.dirty.getLsbD ((ph.pa + i) % 128) then lineByte l.data ((ph.pa + i) % 128) else s.readByte .core ph i
  | none => s.readByte .core ph i

/-- The whole line of an address as a core reads it at the home slice. -/
def State.fetchLine (s : State) (ph : Phys) : BitVec 1024 :=
  lineOfBytes 0 (s.readPath .core { ph with pa := lineOf ph.pa * 128 } 128)

/-! ### A write that performs at its home -/

/-- The writer of a device-memory write, when it is a slot of a group (08 R166). -/
abbrev Writer := Option (Nat × Nat × Bool)

/-- Bytes of a line written at the home, under a key id. Where the line was written under another key, its other bytes
become unpredictable (15 R277). -/
def State.writeHome (s : State) (line key : Nat) (mask : BitVec 128) (data : BitVec 1024) : State :=
  let put := fun (mem : Memory) (i : Nat) => SMap.set mem Memory.unlisted (128 * line + i) (lineByte data i)
  let mem0 :=
    if s.keyHolds line key && (s.m.lostAt line).isNone then s.m.mem
    else (List.range 128).foldl (fun mem i =>
      SMap.set mem Memory.unlisted (128 * line + i) (s.homeByte key (128 * line + i))) s.m.mem
  { s with m := { s.m with
      mem := (maskBytes mask).foldl put mem0
      lineKeys := s.m.lineKeys.put line (s.keyTag line key) } }

/-- A residency after something made it STALE on every core (10 R189): no overflow generation watches it (10 R192). -/
def Residency.stale (r : Residency) : Residency := { r with marks := r.marks + 1, overflow := [] }

/-- A handle table entry made STALE. -/
def State.staleRes (s : State) (ctx index : Nat) : State :=
  s.updCtx ctx fun c => { c with handles := c.handles.upd index fun h => { h with res := h.res.map Residency.stale } }

/-- The entries of a residency removed from every watch filter (10 R192). -/
def State.unwatch (s : State) (ctx index : Nat) : State :=
  { s with basins := s.basins.mapVals fun _ b =>
      { b with watches := b.watches.filter fun w => !(w.ctx == ctx && w.handle == index) } }

/-- The residencies that the overflow generation of a basin watches (10 R194): context and handle table index. -/
def State.overWatched (s : State) (bn : Nat) : List (Nat × Nat) :=
  s.ctxs.flatMap fun c => (c.2.handles.filter fun h =>
    (h.2.res.map fun r => r.overflow.contains bn).getD false).map fun h => (c.1, h.1)

/-- A write in a watched granule makes every residency that watches it STALE (10 R193), and so does every write in the
LPDDR6 range of a basin whose overflow generation watches it (10 R194); its entries in the filters become free (10 R192). -/
def State.watchHit (s : State) (pa : Nat) : State :=
  match placeOf pa with
  | .lpddr bn _ =>
    let hit := ((s.basin bn).watches.filter fun w => w.granule == pa / 65536).map fun w => (w.ctx, w.handle)
    ((hit ++ s.overWatched bn).eraseDups).foldl (fun s' e => (s'.staleRes e.1 e.2).unwatch e.1 e.2) s
  | _ => s

/-- A pending word after a write to a line: a monitor of the line fires. None is armed in the host window, which is polled (22
R378). -/
def Pending.fire (p : Pending) (line : Nat) : Pending :=
  match p.kind with
  | .monitor m => if lineOf m.phys = line && !m.host then { p with kind := .monitor { m with fired := true } } else p
  | _ => p

/-- A group after a write to a line by a writer: monitors fire, and a mark of its window is hit (08 R166). -/
def Group.heard (g : Group) (t n : Nat) (line : Nat) (by_ : Writer) : Group :=
  { g with
    pend := g.pend.map fun p => p.fire line
    spec := g.spec.map fun win =>
      { win with
        savedPend := win.savedPend.map fun p => p.fire line
        conflict := win.conflict || (win.marks.contains line && by_ != some (t, n, win.slot)) } }

/-- The groups after a write to a line has performed for the CORE path. -/
def State.tell (s : State) (line : Nat) (by_ : Writer) : State :=
  { s with teams := s.teams.mapVals fun t tm =>
      { tm with groups := tm.groups.mapIdx fun n g => g.heard t n line by_ } }

/-- What a write that performs at its home makes known. -/
def State.announce (s : State) (line : Nat) (by_ : Writer) : State := (s.watchHit (128 * line)).tell line by_

/-- A write performs at its home slice. -/
def State.land (s : State) (line key : Nat) (mask : BitVec 128) (data : BitVec 1024) (by_ : Writer) : State :=
  (s.writeHome line key mask data).announce line by_

/-- The page of an access to the host window comes first in the ATS translation cache, which holds 256 (19 R298). -/
def State.atsUse (s : State) (pa : Nat) : State :=
  { s with m := { s.m with ats := (pa / 4096 :: s.m.ats.erase (pa / 4096)).take 256 } }

/-- Bytes that perform at their home at once: short-class writes and the host window (08 R167, log entry 16). -/
def State.landBytes (s : State) (ph : Phys) (b : List Byte) (by_ : Writer) : State :=
  (if ph.host then s.atsUse ph.pa else s).land (lineOf ph.pa) ph.key (byteMask (ph.pa % 128) b.length) (lineOfBytes (ph.pa % 128) b) by_

/-! ### The L2 directory -/

/-- The ways of a tenant in a basin (15 R273). -/
def BasinState.waysOf (b : BasinState) (ten : Nat) : BitVec 16 := b.ways.getD ten (if ten = 0 then 0xFFFF else 0)
def BasinState.range (b : BasinState) (ten n : Nat) : RangeRegs := b.ranges.getD (8 * ten + n) ⟨0, 0, 0⟩
/-- Fields of a range (08 Table 8-1). -/
def RangeRegs.waysIn (r : RangeRegs) (owned : BitVec 16) : BitVec 16 := r.ctl.extractLsb' 0 16 &&& owned
def RangeRegs.valid (r : RangeRegs) (owned : BitVec 16) : Bool := r.base.getLsbD 0 && r.waysIn owned != 0
def RangeRegs.sample (r : RangeRegs) : Nat := (r.ctl.extractLsb' 16 4).toNat
def RangeRegs.holds (r : RangeRegs) (pa : Nat) : Bool :=
  (r.base.extractLsb' 12 33).toNat ≤ pa / 4096 && pa / 4096 ≤ (r.limit.extractLsb' 12 33).toNat
/-- The range that applies to an address: the lowest-numbered valid one that holds it (08 R151). -/
def BasinState.rangeAt (b : BasinState) (ten pa : Nat) : Option Nat :=
  (List.range 8).find? fun n => (b.range ten n).valid (b.waysOf ten) && (b.range ten n).holds pa
/-- The ways that no valid range of a tenant names. -/
def BasinState.freeWays (b : BasinState) (ten : Nat) : BitVec 16 :=
  (List.range 8).foldl (fun m n =>
    if (b.range ten n).valid (b.waysOf ten) then m &&& ~~~((b.range ten n).waysIn (b.waysOf ten)) else m) (b.waysOf ten)
/-- Sets of a slice: 16 MiB in 16 ways of lines (00 R2). -/
def l2Sets : Nat := 8192

/-- The range whose class an access receives: that of the sampling rule (08 R152), or what a prefetch asks for. -/
inductive Retain where
  | sampled | always | never
  deriving DecidableEq, Repr

/-- The key of a slice of the package. -/
def State.sliceKey (s : State) (pa : Nat) : Nat := s.sliceOf pa + 64 * basinOf pa

/-- The resident line of the slice and set of an address in a way, with its key. -/
def State.inWay (s : State) (pa way : Nat) : Option (Nat × L2Line) :=
  List.find? (fun e : Nat × L2Line =>
    e.2.way == way && s.sliceKey (128 * keyLine e.1) == s.sliceKey pa &&
      Config.l2Set (keyLine e.1) % l2Sets == Config.l2Set (lineOf pa) % l2Sets) s.m.l2

/-- The order in which the lines of a set give way: those at the lowest retention first, and among them and among the others the
least recently used (08 R150, R152). -/
def L2Line.rank (l : L2Line) : Nat × Nat := (if l.low then 0 else 1, l.used)

/-- The way that a new line takes among those of a mask: the first empty one, else that of the line that gives way first. -/
def State.fillWay (s : State) (pa : Nat) (ways : BitVec 16) : Option Nat :=
  let l := ((List.range 16).filter fun w => ways.getLsbD w).map fun w => (w, s.inWay pa w)
  match l.find? fun x => x.2.isNone with
  | some x => some x.1
  | none => (l.foldl (fun (best : Option (Nat × Nat × Nat)) x =>
      match x.2, best with
      | some (_, y), some (_, r) => if y.rank.1 < r.1 || (y.rank.1 == r.1 && y.rank.2 < r.2) then some (x.1, y.rank) else best
      | some (_, y), none => some (x.1, y.rank)
      | none, _ => best) none).map (·.1)

/-- The range of an access that receives the retained class, if it does, when the counter of the range stands at a count (08 R152). -/
def BasinState.retained (b : BasinState) (rt : Retain) (ten count : Nat) (range : Option Nat) : Option Nat :=
  match rt, range with
  | .sampled, some n => if count % 2 ^ (b.range ten n).sample = 0 then some n else none
  | .always, some n => some n
  | _, _ => none

/-- The directory of L2 after an access of a tenant that misses: the line is put into a way that its class may use, in the place of
the line that gives way (08 R150, R152); one of cache policy 2 or of the never-retained class stands at the lowest retention (22 R398). -/
def State.l2Fill (s : State) (rt : Retain) (ten : Nat) (ph : Phys) (retained : Option Nat) : SMap L2Line :=
  let b := s.basin (basinOf ph.pa)
  let ways := match retained with
    | some n => (b.range ten n).waysIn (b.waysOf ten)
    | none => b.freeWays ten
  match (if ph.cp = 3 then none else s.fillWay ph.pa ways) with
  | none => s.m.l2
  | some way =>
    let rest := match s.inWay ph.pa way with
      | some (k, _) => s.m.l2.erase k
      | none => s.m.l2
    rest.put (l1Key (lineOf ph.pa) ph.key) ⟨ten, way, ph.key, retained, ph.cp == 2 || rt == .never, s.m.l2Seq⟩

/-- A counter of a tenant in a basin grows by one. -/
def countUp (m : SMap W64) (ten : Nat) : SMap W64 := m.put ten (m.getD ten 0 + 1)

/-- The requests of the old generation to the ranges of a basin that a commit rewrote complete, before one of the new generation to
the line of an address passes (01 R19). Their bytes change nothing: the contents of the range are unpredictable (01 R20). -/
def State.oldOut (s : State) (pa : Nat) : State :=
  if s.rewritten (lineOf pa) then
    allPaths.foldl (fun s' p =>
      let k := 8 * basinOf pa + p.code
      let l := s.m.ingress.getD k []
      (l.filter s.oldWrite).foldl (fun s'' e => s''.announce e.line e.writer)
        { s' with m := { s'.m with ingress := s'.m.ingress.put k (l.filter fun e => !s.oldWrite e) } }) s
  else s

/-- An access of a tenant at the L2 slice of a line: the range counter, the counters of hits, misses and foreign hits, and
allocation (08 R150, R152, 15 R274). -/
def State.l2AccessAs (s0 : State) (rt : Retain) (ten : Nat) (ph : Phys) : State :=
  if ph.host then s0.atsUse ph.pa
  else
    let s := s0.oldOut ph.pa
    let bn := basinOf ph.pa
    let b := s.basin bn
    let range := b.rangeAt ten ph.pa
    let ckey := fun n => s.sliceKey ph.pa * 1024 + 8 * ten + n
    let count := match range with
      | some n => s.m.rangeCount.getD (ckey n) 0
      | none => 0
    let k := l1Key (lineOf ph.pa) ph.key
    let hit := s.m.l2.find? k
    { s with
      m := { s.m with
        rangeCount := match range with
          | some n => s.m.rangeCount.set 0 (ckey n) ((count + 1) % 65536)
          | none => s.m.rangeCount
        l2Seq := s.m.l2Seq + 1
        l2 := match hit with
          | some l => s.m.l2.put k { l with used := s.m.l2Seq }
          | none => s.l2Fill rt ten ph (b.retained rt ten count range) }
      basins := s.basins.put bn { b with
        hits := match hit with
          | some l => if l.tenant = ten then countUp b.hits ten else b.hits
          | none => b.hits
        fhits := match hit with
          | some l => if l.tenant = ten then b.fhits else countUp b.fhits ten
          | none => b.fhits
        misses := match hit with
          | some _ => b.misses
          | none => countUp b.misses ten } }

/-- An ordinary access at the L2 slice. -/
def State.l2Access (s : State) (ten : Nat) (ph : Phys) : State := s.l2AccessAs .sampled ten ph

/-! ### Back-invalidation (19 R300) -/

/-- Whether the host holds a line, so that a device write to it must wait. -/
def State.hostHolds (s : State) (line : Nat) : Bool := s.m.hostHeld.contains line

/-- Back-invalidations sent for the lines of a list that the host holds; a step that waits for the answer acts when it has come. -/
def State.askHost (s : State) (lines : List Nat) (act : List Action) : State :=
  { s with m := { s.m with
      backInv := ((lines.filter fun l => s.hostHolds l).eraseDups).foldl (fun m l =>
        m.put l (m.getD l [] ++ act.filter fun a => !(m.getD l []).contains a)) s.m.backInv } }

/-! ### Ingress buffers -/

/-- A write enters the ingress buffer of its path, and performs for that path (08 R167): one of the CORE path hits the marks of
windows and the monitors, whose reads search the buffer (08 R166, 22 R378). -/
def State.push (s : State) (p : Path) (e : IngressEntry) : State :=
  let k := 8 * basinOf (128 * e.line) + p.code
  let s1 : State := { s with m := { s.m with ingress := s.m.ingress.put k (s.m.ingress.getD k [] ++ [e]) } }
  if p = .core then s1.tell e.line e.writer else s1

/-- The entry of bytes written at a translated address. -/
def State.entryOf (s : State) (ph : Phys) (b : List Byte) (engine : Option Nat) (by_ : Writer) : IngressEntry where
  slice := s.sliceOf ph.pa
  gen := (s.basin (basinOf ph.pa)).regions.gen
  line := lineOf ph.pa
  key := ph.key
  mask := byteMask (ph.pa % 128) b.length
  data := lineOfBytes (ph.pa % 128) b
  upd := none
  engine := engine
  writer := by_

/-- The L2 slice drops a line (08 R170). -/
def State.dropL2 (s : State) (line : Nat) : State :=
  { s with m := { s.m with l2 := s.m.l2.filter fun x => keyLine x.1 != line } }

/-- A write leaves its ingress buffer into the slice; that of the host invalidates the line in L2 (08 R170). A write of the
old generation to a rewritten range leaves the contents of its address as unpredictable as the commit made them (01 R20), and one
of the new generation passes behind those (01 R19). -/
def State.leave (s0 : State) (e : IngressEntry) : State :=
  if s0.oldWrite e then s0.announce e.line e.writer
  else
    let s := s0.oldOut (128 * e.line)
    if e.key = noKey then (s.land e.line e.key e.mask e.data e.writer).dropL2 e.line
    else
      match e.upd with
      | none => s.land e.line e.key e.mask e.data e.writer
      | some u =>
        let old : W32 := BitVec.ofNat 32 (bytesToNat (readBytes (s.homeByte e.key) u.addr 4))
        let b := natToBytes 4 (scatCombine u.op old (BitVec.ofNat 32 u.value)).toNat
        s.land e.line e.key (byteMask (u.addr % 128) 4) (lineOfBytes (u.addr % 128) b) e.writer

/-- Every entry of a buffer that satisfies a test leaves, oldest first. -/
def State.drainBuf (s : State) (k : Nat) (test : IngressEntry → Bool) : State :=
  let l := s.m.ingress.getD k []
  let s1 : State := { s with m := { s.m with ingress := s.m.ingress.put k (l.filter fun e => !test e) } }
  (l.filter test).foldl State.leave s1

/-- Every entry of a path that satisfies a test leaves, in every basin. -/
def State.drainPath (s : State) (p : Path) (test : IngressEntry → Bool) : State :=
  [0, 1, 2, 3].foldl (fun s' b => s'.drainBuf (8 * b + p.code) test) s

/-- The lines that a drain of a path would write. -/
def State.drainLines (s : State) (p : Path) (test : IngressEntry → Bool) : List Nat :=
  [0, 1, 2, 3].flatMap fun b => ((s.m.buffer b p).filter test).map (·.line)

/-! ### Write-back and invalidation of L1 (08 R149, R159) -/

/-- The first fault of a nest is the one recorded; a later one sets MULTI (14 R252). -/
def State.recordFault (s : State) (n : Nat) (fi : FaultInfo) : State :=
  s.updNest n fun x =>
    match x.fault with
    | none => { x with fault := some fi, phase := .faulted }
    | some _ => { x with multi := true }

/-- The owning context of a line whose write-back was refused, where no word of its own started it: every nest of it with
a team on the core aborts (14 R259). -/
def State.ownerFault (s : State) (core line ctx : Nat) (c : Cause) : State :=
  s.nests.foldl (fun s' e =>
    if e.2.ctx == ctx && s.teams.any (fun t =>
        t.2.nest == e.1 && t.2.core == core && t.2.phase != .retired && t.2.phase != .saved) then
      s'.recordFault e.1
        { cause := c, sub := none, nested := false, precise := false, pc := 0,
          addr := BitVec.ofNat 64 (128 * line), ix := [0, 0, 0, 0], owner := if c = .releaseWb then ctx else 0, slctx := none, grp := none,
          tinfo := 0, time := s.time, team := none, groups := [] }
    else s') s

/-- Why the write-back of a line of a core is refused, if it is: a shootdown took W from its page (14 R258), or the connection matrix
forbids the request as it enters the crossbar (15 R265, R266). -/
def State.refusal (s : State) (core k : Nat) (l : L1Line) : Option Cause :=
  if l.dirty == 0 then none
  else if l.unwritable then some .releaseWb
  else if s.portAllows (corePort core) (128 * keyLine k) then none
  else some .partition

/-- A line of L1 leaves the core without its bytes. -/
def State.eraseL1 (s : State) (core k : Nat) : State := s.setL1 core ((s.m.l1Of core).erase k)

/-- The slot that wrote all dirty bytes of a line, if one did (08 R166). -/
def L1Line.writer (l : L1Line) : Writer :=
  match l.writers with
  | [x] => some x
  | _ => none

/-- A line of L1 written back where no word of its owner asks for it: its dirty bytes enter the CORE ingress buffer and the line
stays (08 R149); one that is refused is discarded, and its owner faults (14 R259, log entry 108). -/
def State.wbLine (s : State) (core k : Nat) (l : L1Line) : State :=
  if l.dirty = 0 then s
  else
    match s.refusal core k l with
    | some c => (s.eraseL1 core k).ownerFault core (keyLine k) l.ctx c
    | none =>
      let pa := 128 * keyLine k
      let e : IngressEntry :=
        ⟨s.sliceOf pa, (s.basin (basinOf pa)).regions.gen, keyLine k, l.key, l.dirty, l.data, none, none, l.writer⟩
      ((s.l2Access (s.tenantOf l.ctx) ⟨pa, l.page, l.key, 0, false, false⟩).push .core e).setL1 core
        ((s.m.l1Of core).put k { l with dirty := 0, writers := [] })

/-- The lines of a core that satisfy a test written back. -/
def State.wbWhere (s : State) (core : Nat) (test : Nat → Bool) : State :=
  ((s.m.l1Of core).filter fun e => test e.1).foldl (fun s' e => s'.wbLine core e.1 e.2) s

/-- Every dirty line of a core written back. -/
def State.wbCore (s : State) (core : Nat) : State := s.wbWhere core fun _ => true

/-- L1 after an acquire (08 R149, R159): the non-local lines are gone, and of a local line the bytes stay that the core wrote. -/
def State.invCore (s : State) (core : Nat) : State :=
  s.setL1 core (SMap.mapVals (fun _ l => { l with valid := l.dirty }) ((s.m.l1Of core).filter fun e => e.2.dirty != 0))

/-- The L1 of a core replaces a line: its dirty bytes are written back and it is gone (08 R149, 14 R259). -/
def State.evictL1 (s : State) (core k : Nat) : State :=
  match (s.m.l1Of core).find? k with
  | some l => (s.wbLine core k l).eraseL1 core k
  | none => s

/-! ### Accesses of a core -/

/-- Lines that the L1 of a core holds: what scratchpad leaves of 512 KiB (08 R147). -/
def State.l1Lines (s : State) (core : Nat) : Nat := (8 - (s.core core).padUnits) * 512

/-- L1 makes room for one more line: a full one replaces a line, which the manual leaves open (log entry 10). -/
def State.l1Room (s : State) (core : Nat) : State :=
  let l := s.m.l1Of core
  if l.length < s.l1Lines core then s
  else
    match l[Config.freeNat s.tick 7 % l.length]? with
    | some e => s.evictL1 core e.1
    | none => s

/-- A line of L1 that keeps its dirty bytes and takes every other byte from the slice. -/
def L1Line.refill (l : L1Line) (d : BitVec 1024) : L1Line :=
  { l with data := mergeLine d l.data l.dirty, valid := BitVec.allOnes 128 }

/-- A load of n bytes that misses L1 performs at the slice and allocates under cache policy 0 (08 R149, R150). -/
def State.loadFill (s : State) (core ctx : Nat) (ph : Phys) (n : Nat) : State :=
  if s.l1Hit core ph n then s
  else
    let s1 := s.l2Access (s.tenantOf ctx) ph
    let k := l1Key (lineOf ph.pa) ph.key
    match s1.l1Line? core ph with
    | some l => s1.setL1 core ((s1.m.l1Of core).put k (l.refill (s1.fetchLine ph)))
    | none =>
      if ph.cp = 0 && !ph.host then
        let s2 := s1.l1Room core
        s2.setL1 core ((s2.m.l1Of core).put k
          ⟨s2.fetchLine ph, BitVec.allOnes 128, 0, ph.key, false, ctx, ph.page, []⟩)
      else s1

/-- A store of a core: the host window at once, L1 under cache policy 0, else the CORE ingress buffer (08 R149, R150). -/
def State.coreStore (s : State) (core ctx : Nat) (ph : Phys) (b : List Byte) (by_ : Writer) : State :=
  if ph.host then s.landBytes ph b by_
  else if ph.cp = 0 then
    let s1 := if (s.l1Line? core ph).isSome then s else s.loadFill core ctx ph b.length
    let k := l1Key (lineOf ph.pa) ph.key
    let mask := byteMask (ph.pa % 128) b.length
    s1.setL1 core ((s1.m.l1Of core).upd k fun l =>
      { l with
        data := mergeLine l.data (lineOfBytes (ph.pa % 128) b) mask
        valid := l.valid ||| mask
        dirty := l.dirty ||| mask
        ctx := ctx
        page := ph.page
        writers := (if l.dirty = 0 then by_.toList else l.writers ++ by_.toList).eraseDups })
  else (s.l2Access (s.tenantOf ctx) ph).push .core (s.entryOf ph b none by_)

/-- A store that performs at device scope or wider: the line of L1 also leaves for the slice (08 R159, R163), where one of a narrower
scope stays (08 R164); the caller has written the line back before, so that nothing of it can be refused for its page. -/
def State.throughStore (s : State) (core ctx : Nat) (ph : Phys) (b : List Byte) (by_ : Writer) : State :=
  let s1 := s.coreStore core ctx ph b by_
  s1.wbWhere core fun k => k == l1Key (lineOf ph.pa) ph.key

/-- A write of an engine path (08 R167): the host window at once, else the ingress buffer of the path. -/
def State.pathStore (s : State) (p : Path) (ctx : Nat) (ph : Phys) (b : List Byte) (engine : Option Nat) : State :=
  if ph.host then s.landBytes ph b none
  else (s.l2Access (s.tenantOf ctx) ph).push p (s.entryOf ph b engine none)

/-- A short-class write of a path: older writes of the path to the line leave first, and it performs at once (08 R167). -/
def State.shortStore (s : State) (p : Path) (ph : Phys) (b : List Byte) (by_ : Writer) : State :=
  (s.drainPath p fun e => e.line == lineOf ph.pa).landBytes ph b by_

/-- The line of an atomic leaves the issuing core before it executes at the slice (20 R316): it is written back, its
CORE writes leave the ingress buffer, and it is invalidated. -/
def State.atomPrepare (s : State) (core : Nat) (ph : Phys) : State :=
  let k := l1Key (lineOf ph.pa) ph.key
  let s1 := s.wbWhere core fun x => x == k
  let s2 := s1.drainPath .core fun e => e.line == lineOf ph.pa
  s2.eraseL1 core k

/-! ### Lost contents (01 R20, 03 R63) -/

/-- A line of bytes that nothing determines. -/
def freeLine (t line : Nat) : BitVec 1024 :=
  lineOfBytes 0 ((List.range 128).map fun i => Config.freeByte t (128 * line + i))

/-- The contents of ranges of lines become unpredictable until they are written, and L2 holds none of them (01 R20). -/
def MemState.scramble (m : MemState) (ranges : List (Nat × Nat)) (t : Nat) : MemState :=
  let hit := fun line => ranges.any fun r => r.1 ≤ line && line ≤ r.2
  { m with
    mem := m.mem.filter fun x => !hit (lineOf x.1)
    lineKeys := m.lineKeys.filter fun x => !hit x.1
    l1 := m.l1.mapVals fun _ l => SMap.mapVals (fun k x =>
      if hit (keyLine k) then { x with data := mergeLine (freeLine t (keyLine k)) x.data x.dirty } else x)
      (l.filter fun x => !(hit (keyLine x.1) && x.2.dirty == 0))
    l2 := m.l2.filter fun x => !hit (keyLine x.1)
    scrambled := ranges.map (fun r => (r.1, r.2, t)) ++ m.scrambled }

/-! ### Acquire and release (08 R159, R170) -/

/-- An acquire of a core at a scope code: non-local lines go at cluster scope or wider, and at system scope host writes
leave their buffers first. -/
def State.acquire (s : State) (core scope : Nat) : State :=
  let s1 := if scope = 5 then s.drainPath .host fun _ => true else s
  if 2 ≤ scope then s1.invCore core else s1

/-- A release of a core at a scope code: dirty lines are written back at cluster scope or wider, and at system scope
the writes leave for the host to read (09 R173). -/
def State.release (s : State) (core scope : Nat) : State :=
  let s1 := if 2 ≤ scope then s.wbCore core else s
  if scope = 5 then s1.drainPath .core fun _ => true else s1

/-! ### Scratchpad (03 R62, 08 R148) -/

/-- The allocation of a team: its scratchpad size rounded up to 128 bytes (03 R62). -/
def Team.padBytes (t : Team) : Nat := (t.shape.scratch + 127) / 128 * 128

/-- The team and offset of a scratchpad access of n bytes at a 32-bit address; the caller has checked alignment. -/
def State.padAt (s : State) (team : Nat) (tm : Team) (a n : Nat) : Except Cause (Nat × Nat) :=
  if a < 0x80000 then (if a + n ≤ tm.padBytes then .ok (team, a) else .error .xlateNp)
  else if 0x100000 ≤ a && a < 0x700000 then
    let off := (a - 0x100000) % 0x80000
    match tm.peers.find? ((a - 0x100000) / 0x80000) with
    | some peer =>
      match s.teams.find? peer with
      | some pt => if off + n ≤ pt.padBytes then .ok (peer, off) else .error .xlateNp
      | none => .error .xlateNp
    | none => .error .xlateNp
  else .error .xlateNp

def Team.padByte (t : Team) (a : Nat) : Byte := t.pad.getD a 0
def State.padRead (s : State) (team a n : Nat) : List Byte :=
  match s.teams.find? team with
  | some t => readBytes t.padByte a n
  | none => List.replicate n 0

/-- Bytes written into a pad, one after another from an address. -/
def writeBytes (pad : SMap Byte) (a : Nat) (b : List Byte) : SMap Byte :=
  b.foldl (fun (st : SMap Byte × Nat) x => (st.1.set 0 st.2 x, st.2 + 1)) (pad, a) |>.1

/-- A posted array operation after n bytes of a pad have been written by a group: bytes of its A rows among them are unpredictable
when it reads them (22 R382). -/
def ArrayEntry.rewrite (e : ArrayEntry) (team a n : Nat) : ArrayEntry :=
  { e with spoiled := e.spoiled ++ ((List.range n).map fun i => a + i).filter fun x =>
      e.span.1 == team && e.span.2.1 ≤ x && x < e.span.2.1 + e.span.2.2 }

/-- The cores after a slot has written n bytes of a pad. -/
def State.rewriteRows (s : State) (team a n : Nat) : SMap Core :=
  s.cores.mapVals fun _ c =>
    { c with fifo := c.fifo.map fun e => e.rewrite team a n, pass := c.pass.map fun e => e.rewrite team a n }

/-- A write into scratchpad by a writer; it hits the marks of other slots' windows (08 R165, R166). -/
def State.padWrite (s : State) (team a : Nat) (b : List Byte) (by_ : Writer) : State :=
  let lines := [a / 128, (a + b.length - 1) / 128]
  let s0 : State := if by_.isSome then { s with cores := s.rewriteRows team a b.length } else s
  let s1 := s0.updTeam team fun t => { t with pad := writeBytes t.pad a b }
  { s1 with teams := s1.teams.mapVals fun t tm => { tm with groups := tm.groups.mapIdx fun n g =>
      { g with spec := g.spec.map fun win =>
          if (lines.any fun l => win.padMarks.contains (team, l)) && by_ != some (t, n, win.slot) then
            { win with conflict := true }
          else win } } }

/-- Whether a scratchpad access touches a line whose presence bit is clear (08 R148). -/
def State.padAbsent (s : State) (team a n : Nat) : Bool :=
  match s.teams.find? team with
  | some t => t.absent.any fun e => e.1 == a / 128 || e.1 == (a + n - 1) / 128
  | none => false

/-- The presence bits of lines of a pad cleared by one more transfer. -/
def State.padClear (s : State) (team : Nat) (lines : List Nat) : State :=
  s.updTeam team fun t => { t with absent := lines.foldl (fun m l => m.put l (m.getD l 0 + 1)) t.absent }

/-- A transfer has landed in lines of a pad; a line that no other transfer has cleared awaits PRESENCE_BIT_SET. -/
def State.padLanded (s : State) (team : Nat) (lines : List Nat) : State :=
  s.updTeam team fun t => { t with absent := lines.foldl (fun m l => m.put l (m.getD l 0 - 1)) t.absent }

end Sys2Proof.Machine
end

