-- ==== Sys2Proof/Machine/Ops.lean ====
section
/-! DEFINITION. Taking a fault and taking a trap, the one operation each that every word uses, with the return beside them
(14 R249 to R257); speculative windows (08 R165, R166); outstanding results (04 R79, R80). -/

namespace Sys2Proof.Machine

/-! ### Causes (14 Table 14-1, 11 Table 11-9) -/

def Cause.code : Cause → Nat
  | .illegal => 0x01 | .pairRule => 0x02 | .lookahead => 0x03 | .misalign => 0x04 | .xlateNp => 0x05
  | .xlateProt => 0x06 | .atomUnsup => 0x07 | .copyRights => 0x08 | .sluiceFault => 0x09 | .handlerFetch => 0x0A
  | .releaseWb => 0x0B | .partition => 0x0C | .eccUncorr => 0x0D | .nbarNonpersist => 0x0E
  | .trapSw => 0x20 | .bkpt => 0x21 | .nan => 0x22 | .staleRes => 0x23 | .scopeClip => 0x24

def SubCause.code : SubCause → Nat
  | .illegal => 0x01 | .xlateNp => 0x02 | .xlateProt => 0x03 | .misalign => 0x04 | .desc => 0x05
  | .codebookTag => 0x06 | .codebookRange => 0x07 | .barrierInvalid => 0x08 | .csrOrder => 0x09 | .partition => 0x0A
  | .atomUnsup => 0x0B

/-- The causes that are precise when a word of a group raises them. -/
def Cause.precise : Cause → Bool
  | .sluiceFault | .releaseWb | .eccUncorr => false
  | _ => true

/-! ### Speculative windows -/

/-- The window rolled back: nothing of it is left but the fence. -/
def SpecWindow.close (win : SpecWindow) : SpecWindow :=
  { win with marks := [], padMarks := [], stores := [], amax := [], amaxRead := [], left := 0, waits := true, conflict := false, closed := true }

/-- The group back at the boundary after the fence of its window (08 R166). The fence has not completed: the slot issues its next
word when it has. -/
def Group.rollback (g : Group) : Group :=
  match g.spec with
  | some win =>
    if win.closed then g
    else
      { g with
        r := win.saved
        pend := win.savedPend
        spec := some win.close
        w0 := if win.slot then g.w0 else none
        w1 := if win.slot then none else g.w1 }
  | none => g

/-- What happens to the registers of a group otherwise than by a word of its open window: a rollback does not undo it (08 R166). -/
def Group.onRegs (g : Group) (f : GroupRegs → GroupRegs) : Group :=
  { g with r := f g.r, spec := g.spec.map fun win => { win with saved := f win.saved } }

/-- NAN_SEEN is set for an operation that is none of the words of an open window (05 R122, 08 R166). -/
def GroupRegs.setNanSeen (r : GroupRegs) : GroupRegs := { r with gstat := r.gstat ||| 2 }

/-- The fence of the window of a group has completed, and no window is open. -/
def Group.endWindow (g : Group) : Group := { g with spec := none }

/-- A word that may not fault or trap where it stands: inside a speculative window (08 R165), or as a skid word of a team
that halts (14 R250). -/
def Site.blocked (w : Site) : Bool := w.g.spec.isSome || w.skid

/-- A blocked word has no effect: in a window it waits for the fence, and as a skid word it stops its group. -/
def Site.holdBack (w : Site) (s : State) : State :=
  w.upd s fun g =>
    match g.spec with
    | some win => { g with spec := some { win with waits := true } }
    | none => { g with st := { g.st with haltedAt := some w.pc } }

/-! ### Faults (14 R249 to R253) -/

/-- The team halt starts (14 R250); it reaches the other groups at TEAM_HALT. -/
def State.haltTeam (s : State) (t : Nat) : State := s.updTeam t fun tm => { tm with phase := .halting }

/-- A group that faults: it issues nothing further, and its entry names the faulting word, unless the halt of its team has reached
it before (14 R250). -/
def Group.fail (g : Group) (pc : W64) : Group :=
  if g.st.reached then g else { g with st := { g.st with faulted := true, reached := true, haltedAt := some pc } }

/-- What the record of a fault of a word holds (14 Table 14-2). -/
def Site.faultInfo (w : Site) (s : State) (c : Cause) (pc addr : W64) (owner : Nat) : FaultInfo where
  cause := c
  sub := none
  nested := w.g.t.inh
  precise := c.precise
  pc := pc
  addr := addr
  ix := w.tm.ix
  owner := owner
  slctx := none
  grp := some w.grp
  tinfo := 0
  time := s.time
  team := some w.team
  groups := []

/-- Taking a fault: the word has no effect, its group issues nothing further, the team halt starts, and the fault reaches
the walker (14 R250, R252). TEAM_HALT and NEST_ABORT finish the abort. -/
def Site.faultAs (w : Site) (s : State) (c : Cause) (pc addr : W64) (owner : Nat) : State :=
  if w.blocked then w.holdBack s
  else
    ((s.recordFault w.tm.nest (w.faultInfo s c pc addr owner)).haltTeam w.team).updGroup w.team w.grp fun g => g.fail pc

/-- A fault of the word at its own address. -/
def Site.fault (w : Site) (s : State) (c : Cause) (addr : W64) : State := w.faultAs s c w.pc addr 0

/-! ### Traps (14 R254 to R257) -/

/-- A fetch at an address fails for a core and context (03 R65): the translation and its cause, if it does. -/
def State.fetchError (s : State) (core ctx : Nat) (pc : W64) : Option Cause :=
  match s.resolve core ctx .exec pc.toNat with
  | .ok _ => none
  | .error c => some c

/-- The trap registers and the slot at entry (14 R254): every result is written, and no window stays open (04 R80). -/
def Group.enter (g : Group) (b : Bool) (req : TrapReq) (handler : W64) : Group :=
  let ps := g.r.slot b
  { g with
    r := g.r.setSlot b { ps with pc := handler, repc := 0 }
    pend := []
    t := { g.t with
      inh := true
      slot := b
      held := (g.r.slot (!b)).live
      hidden := ps.repc
      depth := g.r.join.length
      tpc := req.tpc
      tcause := (req.arg.setWidth 32 <<< 8) ||| BitVec.ofNat 32 req.cause.code
      taddr := req.addr
      tinfo := req.info
      pend0 := if b then g.t.pend0 else none
      pend1 := if b then none else g.t.pend1 } }

/-- Trap entry: the handler of the context, or HANDLER_FETCH attributed to the word that trapped when its first word
cannot be fetched or its address is 0 (14 R254, R255). -/
def Site.enterTrap (w : Site) (s : State) (req : TrapReq) : State :=
  let handler := (s.ctx w.ctx).handler
  if handler = 0 || (s.fetchError w.core w.ctx handler).isSome then w.faultAs s .handlerFetch req.pc handler 0
  else w.upd s fun g => g.enter w.slot req handler

/-- Taking a trap: `s0` is the state before the word and `s1` the state with its effect. Inside a handler the cause
aborts the nest (14 R255). Otherwise the slot enters the handler, at once when no result of the group is outstanding and no trap of S0
waits before one of S1, else at TRAP_ENTRY (14 R254 step 1, R255). -/
def Site.trap (w : Site) (s0 s1 : State) (req : TrapReq) : State :=
  if w.blocked then w.holdBack s0
  else if w.g.t.inh then w.faultAs s0 req.cause req.pc req.addr 0
  else
    match s1.group? w.team w.grp with
    | none => s1
    | some g =>
      if g.noneOut && !(w.slot && g.t.pend0.isSome) then w.enterTrap s1 req
      else w.upd s1 fun g => { g with t := if w.slot then { g.t with pend1 := some req } else { g.t with pend0 := some req } }

/-- The return from a handler is legal (14 R257): INH is 1, no other slot of the handler is live, and the join stack is as
deep as at entry. -/
def Site.tretOk (w : Site) : Bool :=
  w.g.t.inh && (w.g.t.held || !(w.g.r.slot (!w.slot)).live) && w.g.r.join.length == w.g.t.depth

/-- The group after TRET (14 R257). -/
def Group.leaveHandler (g : Group) (b : Bool) : Group :=
  { g with
    r := g.r.setSlot b { g.r.slot b with pc := g.t.tpc, repc := g.t.hidden }
    t := { g.t with inh := false } }

/-! ### Outstanding results (04 R79, R80) -/

/-- A long-latency word is issued: its destination is outstanding, its window holds the next `la` words, and the slot
moves on. -/
def Site.post (w : Site) (s : State) (la : BitVec 4) (i : Instr) (kind : PendKind) (writes : List RegWrite) (entries : Nat) :
    State :=
  w.upd s fun g =>
    let g1 := g.count w.slot false w.skid
    { g1 with
      pend := g1.pend ++ [⟨g.nextId, w.slot, none, false, i.operands.filter (·.dest), kind, writes, la.toNat, entries⟩]
      nextId := g.nextId + 1
      r := g.r.advance w.slot }

/-- The word waits where it is, and has not issued (08 R153). -/
def Site.await (w : Site) (s : State) (x : Wait) : State := w.upd s fun g => g.setWait w.slot (some x)

/-- The word has issued and waits where it is: a skid word counts when it issues (14 R250). -/
def Site.awaitIssued (w : Site) (s : State) (x : Wait) : State :=
  w.upd s fun g =>
    { g.setWait w.slot (some x) with st := if w.skid then { g.st with skid := g.st.skid + 1 } else g.st }

/-- Miss entries of a core in use (08 R153, log entry 13). -/
def State.entriesUsed (s : State) (core : Nat) : Nat :=
  s.teams.foldl (fun n e =>
    if e.2.core = core then e.2.groups.foldl (fun n g => g.pend.foldl (fun n p => n + p.entries) n) n else n) 0

/-- A slot that may issue a rejected word again. -/
def Site.granted (w : Site) : Bool :=
  match w.g.wait w.slot with
  | some (.granted _ _) => true
  | _ => false

/-- A word that issued before an open window of the other slot ends: a rollback of that window does not undo it (08 R166). -/
def SpecWindow.outlive (win : SpecWindow) (b closes : Bool) (f : GroupRegs → GroupRegs) : SpecWindow :=
  if win.slot == b then win
  else { win with
    saved := f win.saved
    savedPend := (win.savedPend.map (Pending.count b closes)).filter fun p => !p.spent }

/-- The group after the word in a slot ends after a wait: the registers change by `f`, of which the slot's move past the word is a
part. -/
def Group.ended (g : Group) (b closes : Bool) (f : GroupRegs → GroupRegs) : Group :=
  { g.count b closes false with
    r := f g.r
    spec := (g.count b closes false).spec.map fun win => win.outlive b closes f }

/-- The word in a slot ends after a wait: its slot moves on, and its predicate or registers are written. -/
def State.finish (s : State) (t g : Nat) (b : Bool) (f : Group → GroupRegs) : State :=
  match s.siteAt t g b with
  | some w => w.upd s fun g => g.ended b false fun r => (f { g with r := r }).advance b
  | none => s

/-- The control word in a slot ends after a wait: its slot moves on, and it closes the windows of its slot. -/
def State.finishCtl (s : State) (t g : Nat) (b : Bool) : State :=
  match s.siteAt t g b with
  | some w => w.upd s fun g => g.ended b true fun r => r.advance b
  | none => s

/-! ### Waiting for earlier accesses (08 R159, 02 R38) -/

/-- An outstanding word that has not performed its access: a monitor, an operation at the host or a full rendezvous slot. -/
def Pending.unperformed (p : Pending) : Bool :=
  match p.kind with
  | .monitor _ | .host _ | .recv _ _ => true
  | _ => false

/-- An outstanding access comes before the words of the slot: its own, or one of a slot that has joined or left its lanes since
(02 R38). A later memory word waits for it (08 R159). -/
def Site.unperformed (w : Site) : Bool := w.g.pend.any fun p => (p.slot == w.slot || p.both) && p.unperformed

/-- The meaning of a memory or synchronisation word: it waits for the accesses before it. -/
def onMem (s : State) (f : Site → State) : Host.Outcome State Fault Refusal :=
  onSite s fun w => if w.unperformed then s else f w

/-- The slot as a writer, and the action that issues its word. -/
def Site.writer (w : Site) : Writer := some (w.team, w.grp, w.slot)
def Site.act (w : Site) : Action := .issue (.grp w.team w.grp w.slot)

/-- The group after a slot has arrived at a mark: its outstanding words came before that. -/
def Group.arriveAt (g : Group) (b : Bool) (x : W64) : Group :=
  { g with pend := g.pend.map fun p => if p.slot == b && p.joined.isNone then { p with joined := some x } else p }

/-- The group after marks have completed: what came before an arrival at one of them comes before the words of either slot, and so
do the fences (02 R38, 08 R161). -/
def Group.merge (g : Group) (marks : List W64) : Group :=
  if marks.isEmpty then g
  else
    { g with
      pend := g.pend.map fun p => if p.joined.any marks.contains then { p with both := true } else p
      fence0 := max g.fence0 g.fence1
      fence1 := max g.fence0 g.fence1
      held0 := (g.held0 ++ g.held1).eraseDups
      held1 := (g.held0 ++ g.held1).eraseDups }

end Sys2Proof.Machine
end

