-- ==== Sys2Proof/Machine/Flags.lean ====
section
/-! DEFINITION. The sticky flags of GSTAT (03 Table 3-4) and the traps that go with them: NAN_SEEN (05 R122 to R124) and
SCOPE_CLIP (08 R171), and the AMAX registers of a nest (05 R117 to R119). -/

namespace Sys2Proof.Machine

/-- The captured FPMODE (05 R111). -/
def Site.mode (w : Site) : FpMode := FpMode.ofFpm w.g.r.fpm

/-! ### NaN reports (05 R122 to R124) -/

def fpmNanTrap (m : W32) : Bool := m.getLsbD 7
def gstatNanSeen (x : W32) : Bool := x.getLsbD 1

/-- The report of a word that produced (`nanOut`) or read (`nanIn`) a NaN: NAN_SEEN is set, and the first NaN produced
under NANTRAP traps after the word has committed (05 R122, R123), but not inside a handler (14 R255). `s0` is the state
before the word and `s1` has its effect with the slot moved on. -/
def Site.reportNan (w : Site) (s0 s1 : State) (nanOut nanIn : Bool) : State :=
  if nanOut || nanIn then
    let s2 := w.upd s1 fun g => { g with r := { g.r with gstat := g.r.gstat ||| 2 } }
    if nanOut && fpmNanTrap w.g.r.fpm && !gstatNanSeen w.g.r.gstat && !w.g.t.inh then
      w.trap s0 s2 ⟨.nan, w.pc, 0, w.ps.advance.pc, 0, 0⟩
    else s2
  else s1

/-- The commit of a word that may produce or read a NaN. -/
def Site.commitNan (w : Site) (s : State) (r : GroupRegs) (nanOut nanIn : Bool) : State :=
  w.reportNan s (w.commit s r) nanOut nanIn

/-! ### Stochastic rounding (05 R109) -/

/-- The draw of a lane. -/
def GroupRegs.draw (r : GroupRegs) (L : Nat) : W32 := r.lfsr.getD L 0

/-- n steps of an LFSR. -/
def lfsrSteps : Nat → W32 → W32
  | 0, x => x
  | n + 1, x => lfsrSteps n (lfsrStep x)

/-- The LFSR of each lane of a list moved on by n steps. -/
def GroupRegs.stepLfsr (r : GroupRegs) (n : Nat) (lanes : List Nat) : GroupRegs :=
  { r with lfsr := lanes.foldl (fun m L => m.put L (lfsrSteps n (m.getD L 0))) r.lfsr }

/-- The lanes for which a word computes: its active lanes, or lane 0 alone in the uniform form (04 R77, 05 R109). -/
def Site.doing (w : Site) (g : Guard) (uni : Bool) : List Nat := if uni then [0] else w.lanes g

/-- A word with rounded results: `f` gives the result of a lane from its draw, `draws` is the steps of the LFSR that a
lane makes under SR. -/
def Site.rounded (w : Site) (s : State) (g : Guard) (uni : Bool) (d : BitVec 8) (rm : RM) (draws : Nat)
    (f : Nat → W32 → FRes) : State :=
  let rs := (w.doing g uni).map fun L => (L, f L (w.g.r.draw L))
  let r1 := rs.foldl (fun r x =>
    if uni then r.wrS d.toNat (BitVec.ofNat 32 x.2.bits) else r.wrV d.toNat x.1 (BitVec.ofNat 32 x.2.bits)) w.g.r
  let r2 := if rm == .sr then r1.stepLfsr draws (w.doing g uni) else r1
  w.commitNan s r2 (rs.any (·.2.nanOut)) (rs.any (·.2.nanIn))

/-! ### Scope clipping (08 R171) -/

/-- The scope code at which a word runs. -/
def Site.scopeRun (w : Site) (s : State) (c : Scope) : Nat :=
  if c == .sys && (s.vdNow (s.ctx w.ctx).vd).scopeTen then 4 else c.code

/-- The word is clipped. -/
def Site.clipped (w : Site) (s : State) (c : Scope) : Bool := c == .sys && (s.vdNow (s.ctx w.ctx).vd).scopeTen

/-- The state after a word that may have been clipped: SCOPE_CLIP is set, and the policy's trap follows its commit. `s0`
is the state before the word and `s1` has its effect with the slot moved on. -/
def Site.clip (w : Site) (s0 s1 : State) (c : Scope) : State :=
  if w.clipped s0 c then
    let s2 := w.upd s1 fun g => { g with r := { g.r with gstat := g.r.gstat ||| 1 } }
    if (s0.vdNow (s0.ctx w.ctx).vd).clipTrap then
      w.trap s0 s2 ⟨.scopeClip, w.pc, 0, (w.ps.advance).pc, 0, 0⟩
    else s2
  else s1

/-! ### AMAX (05 R117 to R119, 03 R61) -/

/-- AMAX and AMAXST after one committed update: a magnitude in F32 bits if an element was converted, whether an input
was infinite, and ternary bad codes (05 R107, R117). Magnitudes of F32 compare as their bits. -/
def amaxMerge (a st : W32) (mag : Option W32) (inf : Bool) (bad : Nat) : W32 × W32 :=
  let a1 := match mag with
    | some m => if a.toNat < m.toNat then m else a
    | none => a
  let count := min 0xFFFF ((st.extractLsb' 16 16).toNat + bad)
  let low : W32 := (st &&& 3) ||| (if mag.isSome then 1 else 0) ||| (if inf then 2 else 0)
  (a1, (BitVec.ofNat 32 count <<< 16) ||| low)

/-- An update of a slot's registers in lists of eight. -/
def amaxLists (amax st : List W32) (n : Nat) (mag : Option W32) (inf : Bool) (bad : Nat) : List W32 × List W32 :=
  let r := amaxMerge (amax.getD n 0) (st.getD n 0) mag inf bad
  (listUpd (fun _ => r.1) n amax, listUpd (fun _ => r.2) n st)

/-- AMAX and AMAXST of a format slot of a nest. -/
def State.amaxPair (s : State) (nest n : Nat) : W32 × W32 :=
  (s.nests.find? nest).elim (0, 0) fun x => (x.amax.getD n 0, x.amaxst.getD n 0)

/-- An update of the AMAX registers of a nest (03 R61). -/
def State.amaxNest (s : State) (nest n : Nat) (mag : Option W32) (inf : Bool) (bad : Nat) : State :=
  s.updNest nest fun x =>
    let r := amaxLists x.amax x.amaxst n mag inf bad
    { x with amax := r.1, amaxst := r.2 }

/-- An update by a word of a group: inside a speculative window it is held until the commit (08 R166). -/
def Site.amax (w : Site) (s : State) (n : Nat) (mag : Option W32) (inf : Bool) (bad : Nat) : State :=
  if w.g.spec.isSome then
    w.upd s fun g => { g with spec := g.spec.map fun win => { win with amax := win.amax ++ [⟨n, mag, inf, bad⟩] } }
  else s.amaxNest w.tm.nest n mag inf bad

end Sys2Proof.Machine
end

