-- ==== Sys2Proof/Machine/Operands.lean ====
section
/-! DEFINITION. Operand forms: the amount of a shift or shuffle (22 R404, R409), the device and scratchpad addresses of a
lane with their checks (04 R73, R100), and the choice of the lowest faulting lane (04 R99, 14 Table 14-1). -/

namespace Sys2Proof.Machine

/-- The amount of a shift or shuffle in a lane. -/
def Site.amt (w : Site) (uni : Bool) (x : ShAmt) (L : Nat) : W32 :=
  match x with
  | .reg bu b => w.g.r.rd (uni || bu) b.toNat L
  | .imm n => n.setWidth 32

/-- The virtual address of a lane: the pair A and the signed offset (04 R100). A sum beyond 64 bits wraps (log entry 114). -/
def Site.devAddr (w : Site) (as : Bool) (a : BitVec 8) {k : Nat} (off : BitVec k) (L : Nat) : W64 :=
  w.g.r.rd64 as a.toNat L + off.signExtend 64

/-- The scratchpad address of a lane: the register A and the signed offset (04 R100). A sum beyond 32 bits wraps (log entry
114). -/
def Site.padAddr (w : Site) (as : Bool) (a : BitVec 8) {k : Nat} (off : BitVec k) (L : Nat) : W32 :=
  w.g.r.rd as a.toNat L + off.signExtend 32

/-- A cause with the address that Table 14-1 gives it. -/
abbrev Bad := Cause × W64

/-- The translation of an access of a core: the connection matrix sees the requests that enter the crossbar, and so not an
access that `local_` says L1 serves (15 R265, R266). -/
def State.resolveIf (s : State) (core ctx : Nat) (mode : Mode) (local_ : Phys → Bool) (va : Nat) : Except Cause Phys :=
  match s.physOf core ctx mode va with
  | .error c => .error c
  | .ok ph => if !local_ ph && !s.portAllows (corePort core) ph.pa then .error .partition else .ok ph

/-- The checks of a device access of n bytes, in the order of Addr (04 R100). -/
def Site.devPhysIf (w : Site) (s : State) (mode : Mode) (local_ : Phys → Bool) (n : Nat) (va : W64) : Except Bad Phys :=
  if va.toNat % n ≠ 0 then .error (.misalign, va)
  else match s.resolveIf w.core w.ctx mode local_ va.toNat with
    | .ok ph => .ok ph
    | .error c => .error (c, va)

/-- The checks of an access that L1 does not serve. -/
def Site.devPhys (w : Site) (s : State) (mode : Mode) (n : Nat) (va : W64) : Except Bad Phys :=
  w.devPhysIf s mode (fun _ => false) n va

/-- The checks of a scratchpad access of n bytes, in the order of Addr (03 R62, 04 R100). -/
def Site.padPhys (w : Site) (s : State) (n : Nat) (a : W32) : Except Bad (Nat × Nat) :=
  if a.toNat % n ≠ 0 then .error (.misalign, a.setWidth 64)
  else match s.padAt w.team w.tm a.toNat n with
    | .ok x => .ok x
    | .error c => .error (c, a.setWidth 64)

/-! ### Tiles (04 Table 4-10 order 5, 10 Tables 10-7 to 10-10) -/

/-- A bit field of a 64-bit word as a number. -/
def fld (x : W64) (lo n : Nat) : Nat := (x.extractLsb' lo n).toNat

/-- The lanes that stand for the quarters with an active lane (02 R41). -/
def Site.quarters (w : Site) (g : Guard) : List Nat :=
  (List.range 4).filterMap fun q => (w.lanes g).find? fun L => L / 8 == q

/-- The tiles that a quarter of MX.RUN or MX.DIST names: the first and how many. -/
def Site.runTiles (w : Site) (f : MxRunF) (L : Nat) : Nat × Nat :=
  (((w.g.r.rdV f.a.toNat L).extractLsb' 16 6).toNat, (fld (w.g.r.rdV64 f.c.toNat L) 32 7 + 2) / 2)

/-- The tiles that a matrix word names. -/
def Site.tiles (w : Site) : Instr → List (Nat × Nat)
  | .mxRun f => (w.quarters f.g).map (w.runTiles f)
  | .mxDist f => (w.quarters f.g).map (w.runTiles f)
  | .mxDrain f => [(fld (w.g.r.rdS64 f.a.toNat) 0 6, 1)]
  | .mxTopk f => [(fld (w.g.r.rdS64 f.a.toNat) 0 6, (fld (w.g.r.rdS64 f.a.toNat) 14 7 + 32) / 32)]
  | .mxZero f => [(fld (w.g.r.rdS64 f.a.toNat) 0 6, fld (w.g.r.rdS64 f.a.toNat) 14 7 + 1)]
  | _ => []

/-- Some tile that a matrix word names lies at or above the grant of the team: ILLEGAL. -/
def Site.tileBad (w : Site) (i : Instr) : Bool := (w.tiles i).any fun x => w.tm.shape.tiles < x.1 + x.2

/-- The results of every lane in ascending order, or the failure of the lowest failing lane (04 R99). -/
def eachLane {α : Type} (f : Nat → Except Bad α) : List Nat → Except Bad (List (Nat × α))
  | [] => .ok []
  | L :: rest =>
    match f L with
    | .error e => .error e
    | .ok x =>
      match eachLane f rest with
      | .error e => .error e
      | .ok t => .ok ((L, x) :: t)

end Sys2Proof.Machine
end

