-- ==== Sys2Proof/Machine/Admit.lean ====
section
/-! DEFINITION. When a slot may issue (02 R51, 14 R260, 15 R269), and what a word must get before it can act: a translation for its pages, from a walker if no TLB holds one (01 R25),
and room in the ingress buffers (08 R154, R167). A word that gets none is rejected, and issues again (08 R153). -/

namespace Sys2Proof.Machine

/-! ### Readiness -/

/-- Where the team stands lets a group issue: it runs, it drains, or it halts and words of skid are left (14 R250). -/
def Site.mayRun (w : Site) : Bool :=
  match w.tm.phase with
  | .running | .stopping _ => true
  | .halting => !w.g.st.reached || w.g.st.skid < 4
  | _ => false

/-- The speculative window of the group lets the slot issue (08 R165). -/
def Site.windowOpen (w : Site) : Bool :=
  match w.g.spec with
  | some win => win.slot == w.slot && 0 < win.left && !win.waits
  | none => true

/-- The scratchpad lines whose presence bits a slot awaits (08 R148). -/
def Site.parked (w : Site) : List (Nat × Nat) :=
  match w.g.wait w.slot with
  | some (.absent l) => l
  | _ => []

/-- What the slot waits for, if it does, lets it issue its word again: it was rejected and is granted, or it awaits presence bits. -/
def Site.retries (w : Site) : Bool :=
  match w.g.wait w.slot with
  | some (.granted _ _) | some (.absent _) => true
  | _ => false

/-- Nothing but what it waits for keeps the slot from issuing: no pending trap, no handler in the other slot, and no closed window of
an outstanding result of its own (02 R51, 04 R80, 14 R254). -/
def Site.able (w : Site) : Bool :=
  !w.g.st.ended && !w.g.st.faulted && w.g.st.haltedAt == none && !w.g.st.stopped && w.mayRun &&
  (if w.slot then w.g.t.pend1 else w.g.t.pend0) == none &&
  !(w.g.t.inh && w.g.t.held && w.slot != w.g.t.slot) &&
  w.windowOpen &&
  w.g.pend.all fun p => !(p.slot == w.slot && p.left == 0)

/-- The slot waits for nothing: no barrier or other wait, and nothing else keeps it from issuing (02 R51). -/
def Site.ready (w : Site) : Bool := (w.g.wait w.slot == none || w.retries) && w.able

/-! ### What scheduling and pre-emption hold (14 R260, 15 R269) -/

/-- The group stands at a reconvergence point: one slot is live, no entry stands above the yield depth, and no repeat is active
(02 R39). -/
def Group.reconverged (g : Group) : Bool :=
  ((g.r.slot false).live != (g.r.slot true).live) && g.r.join.length ≤ g.r.yieldDepth && g.r.s0.repc == 0 &&
  g.r.s1.repc == 0 && g.spec.isNone

/-- The ns after which a stop is forced. -/
def forceLimit : Nat := 50000

/-- The hardware partition of a core (15 R264). -/
def State.partOf (s : State) (core : Nat) : Nat := (s.port (corePort core)).part.toNat

/-- Devices that a partition schedules. -/
def State.scheduled (s : State) (part vd : Nat) : Bool := (s.vdNow vd).enabled && (s.vdNow vd).owns part

/-- Between the slices that a device has in a partition nothing of it runs there (15 R269, log entry 34). -/
def State.between (s : State) (core ctx : Nat) : Bool :=
  s.scheduled (s.partOf core) (s.ctx ctx).vd &&
  !((s.part (s.partOf core)).slice.elim false fun x => x.vd == (s.ctx ctx).vd)

/-- The presence bits that a slot awaits are set (08 R148). -/
def Site.present (w : Site) (s : State) : Bool := w.parked.all fun x => !s.padAbsent x.1 (128 * x.2) 128

/-- The group may issue: a stopping one does not go on at a reconvergence point, nor past the word boundary after which its stop is
forced (14 R260); and the scratchpad lines that it awaits are present. -/
def Site.unstopped (w : Site) (s : State) : Bool :=
  (match w.tm.phase with
  | .stopping since => !w.g.reconverged && s.time - since < forceLimit
  | _ => true) && !s.between w.core w.ctx && w.present s

/-! ### Aged requests (08 R153, R154) -/

/-- When the request of a slot was first rejected, if it has aged and may be made again. -/
def State.agedAt (s : State) (t n : Nat) (b : Bool) : Option Nat :=
  match s.siteAt t n b with
  | some w =>
    match w.g.wait b with
    | some (.rejected since true) | some (.granted since true) => if w.able && w.unstopped s then some since else none
    | _ => none
  | none => none

/-- The times at which the aged requests of some cores were first rejected. -/
def State.agedSince (s : State) (cores : Nat → Bool) : List Nat :=
  s.teams.flatMap fun e =>
    if cores e.2.core then
      (List.range e.2.groups.length).flatMap fun n => [false, true].filterMap (s.agedAt e.1 n)
    else []

/-- Whether some request of a core, of the cores of its basin, or of the package has aged (08 R154). -/
def State.agedOn (s : State) (core : Nat) : Bool := !(s.agedSince (· == core)).isEmpty
def State.agedIn (s : State) (core : Nat) : Bool := !(s.agedSince fun c => coreBasin c == coreBasin core).isEmpty
def State.agedAny (s : State) : Bool := !(s.agedSince fun _ => true).isEmpty

/-- A request of a slot for n miss entries is rejected: too few are free, or aged requests come first (08 R153, R154). -/
def Site.rejects (w : Site) (s : State) (n : Nat) : Bool :=
  0 < n && (8192 < s.entriesUsed w.core + n || (s.agedOn w.core && !w.granted))

/-- A word is rejected, or rejected again (08 R153, R154). -/
def Site.reject (w : Site) (s : State) : State :=
  match w.g.wait w.slot with
  | some (.granted since aged) => w.await s (.rejected since aged)
  | _ => w.await s (.rejected s.clk false)

/-! ### Requests of other steps (08 R154, log entry 123) -/

/-- A request turned away is aged after this many cycles (08 R154). -/
def agedAfter : Nat := 256

/-- The step of a request is turned away at a resource; the time of its first rejection stands if it was turned away before. -/
def State.turnAway (s : State) (k : Nat) (act : Action) : State :=
  if s.turned.any fun x => x.2.1 == act then s else { s with turned := s.turned ++ [(k, act, s.retry.getD s.clk)] }

/-- An aged request waits at a resource that comes before that of the step which is made now: aged requests go first, the oldest of
them first (08 R154). -/
def State.agedFirst (s : State) (k : Nat) : Bool :=
  s.turned.any fun x => x.1 == k && agedAfter ≤ s.clk - x.2.2 &&
    match s.retry with
    | some since => x.2.2 < since || s.clk - since < agedAfter
    | none => true

/-! ### Walkers (01 R25) -/

/-- Walkers of a basin. -/
def walkerCount : Nat := 64

/-- The walk of a page has failed for the step that is made again now. -/
def State.walkFailed (s : State) (core ctx page : Nat) : Bool :=
  match s.m.failed with
  | some (c, x, l, t) => c == core && x == ctx && t == s.tick && l.contains page
  | none => false

/-- A page that no TLB of a core translates and whose walk has not just failed: a walker must look for its translation first. -/
def State.needWalk (s : State) (core ctx page : Nat) : Bool :=
  page < 2 ^ 36 && (s.tlb? core ctx page).isNone && !s.walkFailed core ctx page

/-- The walks under way in the basin of a core. -/
def State.walksOf (s : State) (core : Nat) : List Walk := s.m.walks.getD (coreBasin core) []

/-- A walk for a page of a context on a core. -/
def Walk.isOf (x : Walk) (core ctx page : Nat) : Bool := x.core == core && x.ctx == ctx && x.page == page

/-- The walk of a page is under way. -/
def State.walking (s : State) (core ctx page : Nat) : Bool := (s.walksOf core).any fun x => x.isOf core ctx page

/-- The walk that a step begins, with the pages of it whose walks have failed before. -/
def State.walkFor (s : State) (core ctx page : Nat) (act : Action) : Walk :=
  ⟨core, ctx, page, act, match s.m.failed with
    | some (c, x, l, t) => if c == core && x == ctx && t == s.tick then l else []
    | none => []⟩

/-- A walk taken up by one of the walkers of the core's basin, unless one for the page is under way; none when all are busy. -/
def State.beginWalk (s : State) (x : Walk) : Option State :=
  let l := s.walksOf x.core
  if s.walking x.core x.ctx x.page then some s
  else if walkerCount ≤ l.length then none
  else some { s with m := { s.m with walks := s.m.walks.put (coreBasin x.core) (l ++ [x]) } }

/-- The number of the walkers of a core's basin among the resources that turn requests away. -/
def walkersOf (core : Nat) : Nat := 6 + coreBasin core

/-- The work of an engine or a context waits for the walk of a page: it begins it, or it is turned away where no walker is free or an
aged request comes first. -/
def State.walkOr (s : State) (core ctx page : Nat) (act : Action) : State :=
  if s.walking core ctx page then s
  else if s.agedFirst (walkersOf core) then s.turnAway (walkersOf core) act
  else (s.beginWalk (s.walkFor core ctx page act)).getD (s.turnAway (walkersOf core) act)

/-- The state in which the work of an engine or a context waits for the walk of one of its pages, if it needs one. -/
def State.awaitWalk (s : State) (core ctx : Nat) (act : Action) (pages : List Nat) : Option State :=
  (pages.find? (s.needWalk core ctx)).map fun p => s.walkOr core ctx p act

/-! ### Ingress buffers (08 R154, R167) -/

/-- Some slice has no room left in its ingress buffer of a path (log entry 91). -/
def State.ingressFull (s : State) (p : Path) : Bool :=
  [0, 1, 2, 3].any fun b =>
    let l := s.m.buffer b p
    l.any fun e => Config.ingressSize + 1 ≤ (l.filter fun x => x.slice == e.slice).length

/-- The state in which a step that writes device memory on a path waits for room in the ingress buffers, if it must. -/
def State.awaitRoom (s : State) (p : Path) (act : Action) : Option State :=
  if s.ingressFull p || s.agedFirst p.code then some (s.turnAway p.code act) else none

/-! ### Words -/

/-- The virtual addresses of the lines that a lane of CCTL names (20 R338): the address itself for its own line. -/
def Site.cctlLines (w : Site) (f : CctlF) (L : Nat) : List Nat :=
  let a := (w.devAddr f.as f.a f.off L).toNat
  let count := (w.g.r.rdV f.b.toNat L).toNat
  if !f.range then [a]
  else if count = 0 then []
  else (List.range ((a + count - 1) / 128 - a / 128 + 1)).map fun k => max a ((a / 128 + k) * 128)

/-- The device addresses that a word names as it issues. -/
def Site.devAddrs (w : Site) : Instr → List W64
  | .ld f => (w.lanes f.g).map (w.devAddr f.as f.a f.off)
  | .ldu f => [w.devAddr true f.a f.off 0]
  | .st f => (w.lanes f.g).map (w.devAddr f.as f.a f.off)
  | .atom f => (w.lanes f.g).map (w.devAddr f.as f.a f.off)
  | .cctl f => ((w.lanes f.g).flatMap (w.cctlLines f)).map (BitVec.ofNat 64)
  | .pref f => (w.lanes f.g).map (w.devAddr f.as f.a f.off)
  | .mwait f => [w.g.r.rdS64 f.a.toNat + BitVec.ofNat 64 (8 * f.off.toNat)]
  | .sigop f => [w.g.r.rdS64 f.a.toNat]
  | .a2av f | .aredc f | .esort f | .scatter f => [w.g.r.rdS64 f.a.toNat]
  | .gather f => [w.g.r.rdS64 f.a.toNat]
  | _ => []

/-- A word that writes device memory at its issue, by another than a short-class write, which skips the ingress buffers (08 R167). -/
def Instr.writesDevice : Instr → Bool
  | .st _ | .nlaunch _ => true
  | _ => false

/-- What a word of a slot waits for before it acts, if it does: a walk, which it begins or for which it is rejected, or room for
its writes; aged requests take a walker, and room, before it (08 R154). -/
def Site.admission (w : Site) (s : State) (pages : List Nat) (writes : Bool) : Option State :=
  match pages.find? (s.needWalk w.core w.ctx) with
  | some page =>
    if s.walking w.core w.ctx page then some s
    else if !w.granted && (s.agedIn w.core || s.agedFirst (walkersOf w.core)) then some (w.reject s)
    else some ((s.beginWalk (s.walkFor w.core w.ctx page w.act)).getD (w.reject s))
  | none =>
    if writes && (s.ingressFull .core || (!w.granted && (s.agedAny || s.agedFirst Path.core.code))) then some (w.reject s) else none

/-- The pages of a word. -/
def Site.pages (w : Site) (i : Instr) : List Nat :=
  ((w.devAddrs i).map fun a => a.toNat / 4096).eraseDups

end Sys2Proof.Machine
end

