-- ==== Sys2Proof/Machine/Issue.lean ====
section
/-! DEFINITION. What stands between a slot and its word: the fetch (04 R65), the repeat (02 R47 to R49),
the decode checks in order (04 R85), lookahead (04 R80) and speculative windows (08 R165). Likewise for a Sluice context
(11 R211, R216). -/

namespace Sys2Proof.Machine

/-- What preparing an issue gives: no word runs and the state is as given, or a word runs from a state. -/
inductive Prep where
  | hold (s : State)
  | run (i : Instr) (s : State)

/-! ### Fetch -/

/-- The word at an address as a core fetches it through the CORE path (04 R65, 08 Table 8-8). -/
def State.fetch (s : State) (core ctx : Nat) (pc : W64) : Except Cause W64 :=
  match s.resolve core ctx .exec pc.toNat with
  | .error c => .error c
  | .ok ph => .ok (BitVec.ofNat 64 (bytesToNat (s.readPath .core ph 8)))

/-- The slice after a fetch has accessed it (15 R274, log entry 18). -/
def State.fetched (s : State) (core ctx : Nat) (pc : W64) : State :=
  match s.resolve core ctx .exec pc.toNat with
  | .error _ => s
  | .ok ph => s.l2Access (s.tenantOf ctx) ph

/-! ### Repeat (02 R48, 22 R402) -/

/-- The opcodes that REP may repeat. -/
def repTarget (op : Nat) : Bool :=
  (0x01 ≤ op && op ≤ 0x20) || (0x22 ≤ op && op ≤ 0x37) ||
  (0x38 ≤ op && op ≤ 0x3F && op != 0x3C && op != 0x3E) || (0x40 ≤ op && op ≤ 0x47 && op != 0x41) ||
  op == 0x58 || op == 0x59 || op == 0x5B || op == 0x5C || op == 0x5D || op == 0x5F || op == 0x60 || op == 0x61

/-- Whether the layout of an opcode has the fields A, B and C (04 Table 4-1); every target has D. -/
def layoutHas (op : Nat) : Bool × Bool × Bool :=
  if op == 0x14 then (false, false, false)
  else if op == 0x02 || op == 0x09 || op == 0x17 || op == 0x20 then (true, false, false)
  else if 0x58 ≤ op then (true, true, false)
  else (true, true, true)

/-- The strides SD, SA, SB and SC of REPC. -/
def repStride (x : BitVec 12) (k : Nat) : Nat := (x.extractLsb' (9 - 3 * k) 3).toNat

/-- The target is legal for the strides (02 R48). -/
def repLegal (word : W64) (x : BitVec 12) : Bool :=
  let op := (word.extractLsb' 55 8).toNat
  let has := layoutHas op
  !word.getLsbD 63 && repTarget op && (has.1 || repStride x 1 == 0) && (has.2.1 || repStride x 2 == 0) &&
  (has.2.2 || repStride x 3 == 0)

/-- A field of the word moved on by its stride, or none beyond 255 (02 R48). -/
def stepField (word : W64) (at_ stride done : Nat) : Option W64 :=
  let f := (word.extractLsb' at_ 8).toNat + done * stride
  if stride = 0 then some word
  else if 255 < f then none
  else some ((word &&& ~~~((0xFF : W64) <<< at_)) ||| (BitVec.ofNat 64 f <<< at_))

/-- The target with its stepped fields. -/
def stepWord (word : W64) (x : BitVec 12) (done : Nat) : Option W64 :=
  (((stepField word 39 (repStride x 0) done).bind fun w => stepField w 31 (repStride x 1) done).bind fun w =>
    stepField w 23 (repStride x 2) done).bind fun w => stepField w 15 (repStride x 3) done

/-! ### Decode checks (04 R85) -/

/-- The halves of a pair word as they stand, for the allocation check that comes before the bank rules. -/
def pairCand (word : W64) : Option Instr :=
  let h1 : W64 := (word.extractLsb' 32 31).setWidth 64
  let h2 : W64 := (word.extractLsb' 1 31).setWidth 64
  match HOp.ofCode (h1.extractLsb' 25 6).toNat, HOp.ofCode (h2.extractLsb' 25 6).toNat with
  | some o1, some o2 => some (o1.mk1 ⟨candHalf h1, o2, candHalf h2⟩)
  | _, _ => none

/-- Orders 2 to 6 of 04 Table 4-10 for a team with an allocation. -/
def decodeFor (alloc : Nat) (word : W64) : Except Cause Instr :=
  match decodeCore word with
  | .ok i => if i.allocOk alloc then .ok i else .error .illegal
  | .error .pairRule =>
    match pairCand word with
    | some i => if i.allocOk alloc then .error .pairRule else .error .illegal
    | none => .error .illegal
  | .error _ => .error .illegal

/-! ### Lookahead (04 R79, R80) -/

/-- A word touches the destination of an outstanding word. -/
def Instr.touches (i : Instr) (p : Pending) : Bool := i.operands.any fun o => p.dests.any fun d => o.meets d

/-- The word lies in a window of its slot and touches the destination: LOOKAHEAD. -/
def Site.lookahead (w : Site) (i : Instr) : Bool :=
  w.g.pend.any fun p => p.slot == w.slot && Instr.touches i p

/-- The word touches an outstanding destination of the other slot and waits. -/
def Site.crossWait (w : Site) (i : Instr) : Bool :=
  w.g.pend.any fun p => p.out && p.slot != w.slot && Instr.touches i p

/-! ### Words that end a speculative window (08 Table 8-6) -/

/-- A guarded branch of the site diverges (02 R37). -/
def Site.diverges (w : Site) (g : Guard) : Bool := w.active g != 0 && w.active g != w.mask

/-- Words of 08 Table 8-6, and an AMAXRD that clears its slot, which a rollback could not undo (log entry 23). -/
def Site.endsWindow (w : Site) : Instr → Bool
  | .atom _ | .atoms _ | .mwait _ | .sigop _ | .fence _ | .xfence _ => true
  | .ld f => f.ord != .plain
  | .lds f => f.ord != .plain
  | .ldu f => f.ord != .plain
  | .st f => f.ord != .plain
  | .sts f => f.ord != .plain
  | .bar | .cbar | .nbar | .binit _ | .barv _ | .bwait _ | .binv _ | .xsend _ | .xrecv _ | .itemq _ => true
  | .fork _ | .rdv _ | .mxDist _ | .mxDrain _ | .mxRalloc _ | .mxRevoke _ | .mxRload _ | .mxRpin _ | .mxRqry _
  | .mxRun _ | .mxTopk _ | .mxZero _ | .a2av _ | .aredc _ | .esort _ | .gather _ | .scatter _ => true
  | .nlaunch _ | .nbnd _ | .pref _ | .cctl _ => true
  | .fmode _ | .ltile _ => true
  | .amaxrd f => f.clr
  | .bra f => w.diverges f.g
  | .call _ | .ret | .joinw | .mjoin _ | .exitw _ | .endw | .looph _ => true
  | .bkpt _ | .srd _ | .swr _ | .trapw _ | .tret | .yieldw => true
  | _ => false

/-! ### Preparing a word of a group -/

/-- A NaN that an array operation owes the group is reported before its next word (05 R124): the trap, or NAN_SEEN alone
where no trap is taken. -/
def Site.payNan (w : Site) (s : State) (info : W32) : State :=
  let s1 := w.upd s fun g => { g.onRegs GroupRegs.setNanSeen with st := { g.st with owedNan := none } }
  if w.g.t.inh then s1
  else w.trap s s1 ⟨.nan, w.pc, 0, w.pc, 0, info⟩

/-- The decoded word before it runs: the wait for a result of the other slot, whose registers it may not read before; its tiles (order
5 of 04 Table 4-10), lookahead, the window, and what it must get before it acts (04 R80, R85). -/
def Site.letRun (w : Site) (s : State) (i : Instr) : Prep :=
  if w.crossWait i then .hold s
  else if w.tileBad i then .hold (w.fault s .illegal 0)
  else if w.lookahead i then .hold (w.fault s .lookahead 0)
  else if w.g.spec.isSome && w.endsWindow i then .hold (w.holdBack s)
  else
    match w.admission s (w.pages i) (Instr.writesDevice i) with
    | some s1 => .hold s1
    | none => .run i { s.fetched w.core w.ctx w.pc with cur := some (.grp w.team w.grp w.slot) }

/-- The fetched word: the repeat, then the decode checks. -/
def Site.decodeWord (w : Site) (s : State) (word : W64) : Prep :=
  let x := repcStrides w.ps.repc
  if w.ps.repc != 0 && !repLegal word x then .hold (w.faultAs s .illegal (w.pc - 8) 0 0)
  else
    match (if w.ps.repc = 0 then some word else stepWord word x (repcDone w.ps.repc)) with
    | none => .hold (w.fault s .illegal 0)
    | some word1 =>
      match decodeFor w.tm.shape.vregs word1 with
      | .error c => .hold (w.fault s c 0)
      | .ok i => w.letRun s i

/-- Preparing the next word of a slot. -/
def Site.prepare (w : Site) (s : State) : Prep :=
  if !(w.ready && w.unstopped s) then .hold s
  else
    match w.g.st.owedNan with
    | some info => .hold (w.payNan s info)
    | none =>
      match w.admission s [w.pc.toNat / 4096] false with
      | some s1 => .hold s1
      | none =>
        match s.fetch w.core w.ctx w.pc with
        | .error c => .hold (w.fault s c w.pc)
        | .ok word => w.decodeWord s word

/-! ### Sluice contexts -/

/-- Taking a Sluice fault (11 R222, R231, 18 R296): work that has not performed is discarded. The fault of a forked context
reaches the walker, which aborts the nest; that of a packet's context is taken up by SLUICE_PACKET_FAULT. -/
def State.slFault (s : State) (core n : Nat) (sub : SubCause) (pc addr : W64) : State :=
  let c := (s.core core).sl n
  let s1 := s.updSl core n fun c => { c with work := [], todo := [], wait := none, faulted := some (sub, pc, addr, s.time) }
  match c.owner with
  | .team t nest =>
    s1.recordFault nest
      { cause := .sluiceFault, sub := some sub, nested := false, precise := false, pc := pc, addr := addr,
        ix := (s.teams.find? t).elim [0, 0, 0, 0] (·.ix), owner := 0, slctx := some n, grp := none, tinfo := 0,
        time := s.time, team := none, groups := [] }
  | _ => s1

/-- A Sluice fault of the word that the context runs. -/
def SlSite.fault (w : SlSite) (s : State) (sub : SubCause) (addr : W64) : State :=
  s.slFault w.core w.n sub w.c.pc addr

/-- The sub-cause of a failed access (11 Table 11-9). -/
def Cause.sub : Cause → SubCause
  | .xlateProt => .xlateProt
  | .misalign => .misalign
  | .partition => .partition
  | .atomUnsup => .atomUnsup
  | .illegal => .illegal
  | _ => .xlateNp

/-- Where the team of a context stands, or the slice of a packet's context, lets it issue: one that drains only ends the
transfers of its word, so that it is saved at a word boundary (11 R232, 15 R269). -/
def SlSite.held (w : SlSite) (s : State) : Bool :=
  match w.c.owner with
  | .team t _ =>
    match s.teams.find? t with
    | some tm =>
      match tm.phase with
      | .running => s.between w.core w.c.ctx
      | .stopping _ => w.c.todo.isEmpty || s.between w.core w.c.ctx
      | _ => true
    | none => true
  | .packet _ _ =>
    w.c.todo.isEmpty &&
    (((s.core w.core).draining.find? w.c.ctx).isSome ||
      !((s.part (s.partOf w.core)).slice.elim false fun x => x.vd == (s.ctx w.c.ctx).vd))
  | .none => false

/-- Transfer slots of a context (11 R220). -/
def slSlots : Nat := 64

/-- Transfers of a context that hold a slot. -/
def SlCtx.inFlight (c : SlCtx) : Nat :=
  (c.work.filter fun x => match x with
    | .xfer _ _ _ _ _ _ _ _ => true
    | _ => false).length

/-- The context is not ready: it waits, also for a free transfer slot and for the ticket of its FORK to be written (11 R211, R213), it
has faulted, or its team or its slice does not let it issue. -/
def SlSite.waits (w : SlSite) (s : State) : Bool :=
  let tm := match w.c.owner with
    | .team t _ => s.teams.find? t
    | _ => none
  w.c.faulted.isSome || w.held s || (!w.c.todo.isEmpty && slSlots ≤ w.c.inFlight) ||
  match w.c.wait with
  | some (.ticket grp id) => tm.elim false fun t => (t.groups[grp]?).elim false fun g => g.pend.any fun p => p.out && p.id == id
  | some _ => true
  | none => false

/-- Lines of the instruction cache of a Sluice processor: 16 KiB (11 R211, log entry 122). -/
def slCacheLines : Nat := 128

/-- The line of an address as the instruction cache of a core holds it. -/
def Core.cached? (c : Core) (ph : Phys) : Option (List Byte) :=
  (c.icache.find? fun e => e.1 == lineOf ph.pa && e.2.1 == ph.key).map (·.2.2)

/-- The translation of a fetch of a Sluice context: the connection matrix sees the request where the cache does not serve it. -/
def State.slFetchAt (s : State) (core ctx : Nat) (pc : W64) : Except Cause Phys :=
  s.resolveIf core ctx .exec (fun ph => ((s.core core).cached? ph).isSome) pc.toNat

/-- The line that a fetch of a Sluice context finds: that of the cache, else that at the home slice. -/
def State.slLine (s : State) (core : Nat) (ph : Phys) : List Byte :=
  ((s.core core).cached? ph).getD (s.readPath .core { ph with pa := 128 * lineOf ph.pa } 128)

/-- The word at an address as a Sluice context fetches it, through the instruction cache (04 R65, 11 R211). -/
def State.slFetch (s : State) (core ctx : Nat) (pc : W64) : Except Cause W64 :=
  match s.slFetchAt core ctx pc with
  | .error c => .error c
  | .ok ph => .ok (BitVec.ofNat 64 (bytesToNat (((s.slLine core ph).drop (ph.pa % 128)).take 8)))

/-- The state after a fetch of a Sluice context: its line is the one last used in the cache, and where the cache did not hold it the
slice was accessed (log entries 18 and 122). -/
def State.slFetched (s : State) (core ctx : Nat) (pc : W64) : State :=
  match s.slFetchAt core ctx pc with
  | .error _ => s
  | .ok ph =>
    let s1 := if ((s.core core).cached? ph).isSome then s else s.l2Access (s.tenantOf ctx) ph
    s1.updCore core fun c => { c with
      icache := ((lineOf ph.pa, ph.key, s.slLine core ph) ::
        c.icache.filter fun e => !(e.1 == lineOf ph.pa && e.2.1 == ph.key)).take slCacheLines }

/-- A nest or a packet that starts now fetches code as it is written now: the instruction caches are empty (04 R87, log entry 122). -/
def State.freshCode (s : State) : State := { s with cores := s.cores.mapVals fun _ c => { c with icache := [] } }

/-- Preparing the next word of a Sluice context (11 R211, R216). -/
def SlSite.prepare (w : SlSite) (s : State) : Prep :=
  if w.waits s then .hold s
  else
    match s.awaitWalk w.core w.c.ctx w.act [w.c.pc.toNat / 4096] with
    | some s1 => .hold s1
    | none =>
      match s.slFetch w.core w.c.ctx w.c.pc with
      | .error c => .hold (w.fault s c.sub w.c.pc)
      | .ok word =>
        match decodeSluice word with
        | .error _ => .hold (w.fault s .illegal 0)
        | .ok i =>
          .run i { (s.slFetched w.core w.c.ctx w.c.pc).updSl w.core w.n fun c => { c with wait := none } with
            cur := some (.sluice w.core w.n) }

/-- Preparing the next word of an issuer; a slot that is not live and a context that does not run issue nothing. -/
def State.prepare (s : State) : Issuer → Prep
  | .grp t g b =>
    match s.siteAt t g b with
    | some w => w.prepare s
    | none => .hold s
  | .sluice core n =>
    match s.slAt core n with
    | some w => w.prepare s
    | none => .hold s

end Sys2Proof.Machine
end

