-- ==== Sys2Proof/Machine/Control.lean ====
section
/-! DEFINITION. The control words (20 R330 to R335, 21 R344 to R346, R366 to R372, 22 R374, R391, R402, R403): the slots and
the join stack of a group (02 R36, R37), item queues and refill (02 R42 to R44), and the end of a group (21 R344). -/

namespace Sys2Proof.Machine

/-! ### The join stack (02 R36, R37) -/

/-- Entries that a join stack or a call stack holds. -/
def stackLimit : Nat := 256

/-- The registers with an entry of the join stack removed; the yield depth falls with the depth (23 R447). -/
def GroupRegs.dropJoin (r : GroupRegs) (i : Nat) : GroupRegs :=
  { r with join := r.join.eraseIdx i, yieldDepth := min r.yieldDepth (r.join.length - 1) }

/-- The lanes of a complete mark continue: in a preferred slot if it is empty, else in the other if it is empty, else as
a path (02 R37 step 4). -/
def GroupRegs.giveLanes (r : GroupRegs) (pref : Bool) (pc : W64) (mask : W32) : GroupRegs :=
  if !(r.slot pref).live then r.setSlot pref ⟨pc, mask, 0⟩
  else if !(r.slot (!pref)).live then r.setSlot (!pref) ⟨pc, mask, 0⟩
  else { r with join := .path pc mask :: r.join }

/-- A complete mark (02 R37 step 4). -/
def JoinEntry.complete : JoinEntry → Bool
  | .mark _ e a _ => e == a
  | .path _ _ => false

/-- The rejoin addresses of the complete marks. -/
def GroupRegs.done (r : GroupRegs) : List W64 :=
  r.join.filterMap fun e => match e with
    | .mark x e a _ => if e == a then some x else none
    | .path _ _ => none

/-- Complete marks removed, the topmost first, at most n of them (02 R37 step 4). -/
def GroupRegs.settleN : Nat → GroupRegs → GroupRegs
  | 0, r => r
  | n + 1, r =>
    match r.join.findIdx? JoinEntry.complete with
    | none => r
    | some i =>
      match r.join[i]? with
      | some (.mark x _ a last) =>
        GroupRegs.settleN n (if a = 0 then r.dropJoin i else (r.dropJoin i).giveLanes last (x + 8) a)
      | _ => r

/-- An empty slot takes a path from the top of the join stack (02 R37 step 6). -/
def GroupRegs.takePath (r : GroupRegs) (b : Bool) : GroupRegs :=
  if (r.slot b).live then r
  else
    match r.join with
    | .path pc mask :: _ => (r.dropJoin 0).setSlot b ⟨pc, mask, 0⟩
    | _ => r

/-- The registers after a slot has lost lanes: complete marks, then paths into empty slots. -/
def GroupRegs.settle (r : GroupRegs) (b : Bool) : GroupRegs :=
  ((GroupRegs.settleN r.join.length r).takePath b).takePath (!b)

/-- The target of a branch word (20 R330). -/
def Site.target (w : Site) (off : BitVec 24) : W64 := w.pc + 8 + (off.signExtend 64 <<< 3)

/-- The registers with the PC of the issuing slot replaced. -/
def Site.goto (w : Site) (pc : W64) : GroupRegs := w.g.r.setSlot w.slot { w.ps with pc := pc }

/-- The registers with the slot at the next word. -/
def Site.nextPc (w : Site) : GroupRegs := w.g.r.advance w.slot

/-- Whether the other slot of the group is live; a slot that a handler holds does not count (20 R335). -/
def Site.otherLive (w : Site) : Bool := (w.g.r.slot (!w.slot)).live && !(w.g.t.inh && w.g.t.held)

/-! ### The end of a group (21 R344) -/

/-- The group has executed END: it issues nothing further. -/
def Group.finish (g : Group) (pc : W64) : Group :=
  { g with
    r := { g.r with join := [], calls := [], loopHead := none, s0 := ⟨0, 0, 0⟩, s1 := ⟨0, 0, 0⟩ }
    w0 := none
    w1 := none
    st := { g.st with ended := true, endPc := pc } }

/-- Every slot of the group that is live waits at END, and one does. -/
def Group.atEnd (g : Group) : Bool :=
  (g.w0 == some .atEnd || g.w1 == some .atEnd) &&
  (!(g.r.slot false).live || g.w0 == some .atEnd) && (!(g.r.slot true).live || g.w1 == some .atEnd)

/-- A group whose live slots all wait at END ends, once no result is outstanding. -/
def State.settleEnd (s : State) (t n : Nat) : State :=
  s.updGroup t n fun g =>
    if g.atEnd && g.noneOut && !g.st.ended then
      g.finish (if g.w0 == some .atEnd then (g.r.slot false).pc else (g.r.slot true).pc)
    else g

/-- END in a slot: it waits for outstanding results and for the other slot (21 R344). `s1` is the state from which the
group ends. -/
def Site.endGroup (w : Site) (s s1 : State) : State :=
  if w.g.t.inh then w.fault s .illegal 0
  else if !w.g.noneOut then s
  else if (w.g.r.slot (!w.slot)).live && w.g.wait (!w.slot) != some .atEnd then w.awaitIssued s .atEnd
  else w.upd s1 fun g => g.finish w.pc

/-- END (21 R344). -/
def execEndw (s : State) := onSite s fun w => w.endGroup s (w.commitCtl s w.g.r)

/-! ### Branches -/

/-- BRA (20 R331). -/
def execBra (f : BraF) (s : State) := onSite s fun w =>
  let t := w.active f.g
  if t = w.mask then w.commitCtl s (w.goto (w.target f.off))
  else if t = 0 then w.commitCtl s w.nextPc
  else
    let r := w.g.r.setSlot w.slot ⟨w.pc + 8, w.mask &&& ~~~t, 0⟩
    if !(w.g.r.slot (!w.slot)).live then w.commitCtl s (r.setSlot (!w.slot) ⟨w.target f.off, t, 0⟩)
    else if stackLimit ≤ w.g.r.join.length then w.fault s .illegal 0
    else w.commitCtl s { r with join := .path (w.target f.off) t :: r.join }

/-- BRAU (20 R332). -/
def execBrau (f : BrauF) (s : State) := onSite s fun w =>
  if (w.g.r.rdS f.a.toNat == 0) == f.eq then w.commitCtl s (w.goto (w.target f.off)) else w.commitCtl s w.nextPc

/-- CALL (20 R335). -/
def execCall (f : Off) (s : State) := onSite s fun w =>
  if w.otherLive then s
  else if stackLimit ≤ w.g.r.calls.length then w.fault s .illegal 0
  else w.commitCtl s { w.goto (w.target f.off) with calls := (w.pc + 8) :: w.g.r.calls }

/-- RET (22 R403). -/
def execRet (s : State) := onSite s fun w =>
  if w.otherLive then s
  else
    match w.g.r.calls with
    | [] => w.fault s .illegal 0
    | pc :: rest => w.commitCtl s { w.goto pc with calls := rest }

/-- NOP (22 R391). -/
def execNop (_ : Guard) (s : State) := onSite s fun w => w.commitCtl s w.nextPc

/-- REP (02 R47 to R49, 22 R402). -/
def execRep (f : RepF) (s : State) := onSite s fun w =>
  w.commitCtl s (w.g.r.setSlot w.slot
    { w.ps with pc := w.pc + 8, repc := mkRepc (f.n.toNat + 1) 0 (f.sd ++ f.sa ++ f.sb ++ f.sc) })

/-! ### Divergence and reconvergence -/

/-- MJOIN (22 R374, 02 R37 step 1). -/
def execMjoin (f : Off) (s : State) := onSite s fun w =>
  if stackLimit ≤ w.g.r.join.length then w.fault s .illegal 0
  else w.commitCtl s { w.nextPc with join := .mark (w.target f.off) w.mask 0 w.slot :: w.g.r.join }

/-- A mark whose expected mask shares a lane with a slot's. -/
def JoinEntry.shares (m : W32) : JoinEntry → Bool
  | .mark _ e _ _ => e &&& m != 0
  | .path _ _ => false

/-- The arrival of lanes at a mark. -/
def JoinEntry.arrive (m : W32) (b : Bool) : JoinEntry → JoinEntry
  | .mark x e a _ => .mark x e (a ||| m) b
  | p => p

/-- The address at which a mark is joined. -/
def JoinEntry.at? : JoinEntry → Option W64
  | .mark x _ _ _ => some x
  | .path _ _ => none

/-- JOIN (21 R367, 02 R37 steps 3, 4 and 6). -/
def execJoinw (s : State) := onSite s fun w =>
  match w.g.r.join.findIdx? (JoinEntry.shares w.mask) with
  | none => w.fault s .illegal 0
  | some i =>
    if (w.g.r.join[i]?).bind JoinEntry.at? != some w.pc then w.fault s .illegal 0
    else
      let r := w.g.r.setSlot w.slot { w.ps with mask := 0 }
      let r1 : GroupRegs := { r with join := listUpd (JoinEntry.arrive w.mask w.slot) i r.join }
      (w.upd (w.commitCtl s (r1.settle w.slot)) fun g => (g.arriveAt w.slot w.pc).merge r1.done).settleEnd w.team w.grp

/-! ### Item queues (02 R42 to R44) -/

/-- Items that an item queue holds. -/
def itemLimit : Nat := 1024

/-- ITEMQ (21 R366), a release at team scope: at once when there is room and no push waits, else the push waits in order. -/
def execItemq (f : GA) (s : State) := onMem s fun w =>
  let items := (w.lanes f.g).map fun L => w.g.r.rdV f.a.toNat L
  if items.isEmpty then w.commitCtl s w.nextPc
  else if w.tm.itemWait.isEmpty && w.tm.itemq.length + items.length ≤ itemLimit then
    (w.commitCtl s w.nextPc).updTeam w.team fun t => { t with itemq := t.itemq ++ items }
  else
    (w.awaitIssued s .itemq).updTeam w.team fun t => { t with itemWait := t.itemWait ++ [⟨w.grp, w.slot, items⟩] }

/-- The refill of LOOPH in the issuing slot (02 R43): `r` are the registers of the group, `at_` the address of LOOPH, which counts as
a skid word or not. -/
def Site.refill (w : Site) (s : State) (skid : Bool) (r : GroupRegs) (at_ label : W64) (d : Nat) : State :=
  let ls := (lanesOf r.exited).take w.tm.itemq.length
  let added := maskOf ls.contains
  let r1 := ((ls.zip w.tm.itemq).foldl (fun r' x => r'.wrV d x.1 x.2) { r with loopHead := some at_ })
  let m := (r.slot w.slot).mask ||| added
  let r2 : GroupRegs :=
    if m = 0 then { r1.setSlot w.slot ⟨label, r.exited, 0⟩ with exited := 0 }
    else { r1.setSlot w.slot ⟨at_ + 8, m, 0⟩ with exited := r.exited &&& ~~~added }
  (w.commitCtlAs s skid r2).updTeam w.team fun t => { t with itemq := t.itemq.drop ls.length }

/-- LOOPH (21 R372, 02 R43). -/
def execLooph (f : LoophF) (s : State) := onSite s fun w =>
  w.refill s w.skid w.g.r w.pc (w.target f.off) f.d.toNat

/-- A mark without the lanes of a mask in its expected mask. -/
def JoinEntry.without (x : W32) : JoinEntry → JoinEntry
  | .mark pc e a l => .mark pc (e &&& ~~~x) a l
  | p => p

/-- A lane is left in a path or in the arrived mask of a mark. -/
def JoinEntry.holdsLane : JoinEntry → Bool
  | .mark _ _ a _ => a != 0
  | .path _ _ => true

/-- No lane is left in a slot, a path or an arrived mask (02 R44). -/
def GroupRegs.noLane (r : GroupRegs) : Bool :=
  !(r.slot false).live && !(r.slot true).live && !r.join.any JoinEntry.holdsLane

/-- The resumption of a group at its loop head with no active lane (02 R44): the word there is fetched and refills the
issuing slot, or takes its label; the EXIT has counted as the word. Another word at the loop head raises ILLEGAL (log entry 24). -/
def Site.resume (w : Site) (s : State) (r : GroupRegs) (head : W64) : State :=
  let s1 := w.commitCtl s r
  let bad := fun (c : Cause) (addr : W64) => if w.blocked then w.holdBack s else w.faultAs s1 c head addr 0
  match s.fetch w.core w.ctx head with
  | .error c => bad c head
  | .ok word =>
    match decodeFor w.tm.shape.vregs word with
    | .ok (.looph f) => w.refill s1 false r head (head + 8 + (f.off.signExtend 64 <<< 3)) f.d.toNat
    | _ => bad .illegal 0

/-- EXIT (21 R346, 02 R37 step 5, R44). An EXIT that leaves no lane waits for outstanding results, as END and the word at
the loop head do (04 R80). -/
def execExitw (g : Guard) (s : State) := onSite s fun w =>
  let x := w.active g
  if x = 0 then w.commitCtl s w.nextPc
  else
    let r := w.g.r.setSlot w.slot ⟨w.pc + 8, w.mask &&& ~~~x, w.ps.repc⟩
    let r1 : GroupRegs := { r with join := r.join.map (JoinEntry.without x), exited := r.exited ||| x }
    if r1.noLane then
      if !w.g.noneOut then s
      else
        match w.g.r.loopHead with
        | none => w.endGroup s (w.commitCtl s r1)
        | some head => w.resume s (GroupRegs.settleN r1.join.length r1) head
    else (w.upd (w.commitCtl s (r1.settle w.slot)) fun g => g.merge r1.done).settleEnd w.team w.grp

end Sys2Proof.Machine
end

