-- ==== Sys2Proof/Machine/Integer.lean ====
section
/-! DEFINITION. The meanings of the integer and logic words (20 R311 to R339, 21 R363 to R371, 22 R375 to R408). -/

namespace Sys2Proof.Machine

/-- The operand in a field of a typed word: a register or a pair (00 R7, 03 R54). -/
def Site.val (w : Site) (uni : Bool) (ty : Ty) (n : BitVec 8) (L : Nat) : Nat :=
  if ty.is64 then (w.g.r.rd64 uni n.toNat L).toNat else (w.g.r.rd uni n.toNat L).toNat

/-- A register operand of 32 bits. -/
def Site.val32 (w : Site) (uni : Bool) (n : BitVec 8) (L : Nat) : W32 := w.g.r.rd uni n.toNat L

/-- A typed result: a register or a pair. -/
def Site.intRes (w : Site) (s : State) (g : Guard) (uni : Bool) (ty : Ty) (d : BitVec 8) (f : Nat → Nat) : State :=
  if ty.is64 then w.res64 s g uni d fun L => BitVec.ofNat 64 (f L) else w.res s g uni d fun L => BitVec.ofNat 32 (f L)

/-- A logic word of two registers. -/
def Site.logic (w : Site) (s : State) (f : Bin) (op : W32 → W32 → W32) : State :=
  w.res s f.g f.uni f.d fun L => op (w.val32 f.uni f.a L) (w.val32 (f.uni || f.bu) f.b L)

/-- A logic word of a register and the sign-extended immediate (04 R70, 20 R312). -/
def Site.logicImm (w : Site) (s : State) (f : ImmB) (op : W32 → W32 → W32) : State :=
  w.res s f.g f.uni f.d fun L => op (w.val32 f.uni f.a L) (f.imm.signExtend 32)

/-- A word of one register. -/
def Site.unary (w : Site) (s : State) (f : Un) (op : W32 → W32) : State :=
  w.res s f.g f.uni f.d fun L => op (w.val32 f.uni f.a L)

/-- A shift word (22 R404, R405). -/
def Site.shift (w : Site) (s : State) (f : Shift) (op : W32 → W32 → W32) : State :=
  w.res s f.g f.uni f.d fun L => op (w.val32 f.uni f.a L) (w.amt f.uni f.amt L)

/-- A typed word of two operands (21 R363). -/
def Site.typed2 (w : Site) (s : State) (f : BinT) (op : Nat → Nat → Nat) : State :=
  w.intRes s f.g f.uni f.ty f.d fun L => op (w.val f.uni f.ty f.a L) (w.val (f.uni || f.bu) f.ty f.b L)

/-- A typed word of two operands with saturation (21 R363). -/
def Site.typedSat (w : Site) (s : State) (f : BinS) (op : Nat → Nat → Nat) : State :=
  w.intRes s f.g f.uni f.ty f.d fun L => op (w.val f.uni f.ty f.a L) (w.val (f.uni || f.bu) f.ty f.b L)

/-- AND (20 R311). -/
def execAnd (f : Bin) (s : State) := onSite s fun w => w.logic s f (· &&& ·)
/-- OR (22 R394). -/
def execOr (f : Bin) (s : State) := onSite s fun w => w.logic s f (· ||| ·)
/-- XOR (23 R443). -/
def execXor (f : Bin) (s : State) := onSite s fun w => w.logic s f (· ^^^ ·)
/-- ANDI (20 R312). -/
def execAndi (f : ImmB) (s : State) := onSite s fun w => w.logicImm s f (· &&& ·)
/-- ORI (22 R394). -/
def execOri (f : ImmB) (s : State) := onSite s fun w => w.logicImm s f (· ||| ·)
/-- XORI (23 R443). -/
def execXori (f : ImmB) (s : State) := onSite s fun w => w.logicImm s f (· ^^^ ·)
/-- NOT (22 R392). -/
def execNot (f : Un) (s : State) := onSite s fun w => w.unary s f (~~~ ·)
/-- BREV (20 R333). -/
def execBrev (f : Un) (s : State) := onSite s fun w => w.unary s f aluBrev
/-- CLZ (20 R339). -/
def execClz (f : Un) (s : State) := onSite s fun w => w.unary s f aluClz
/-- POPC (22 R397). -/
def execPopc (f : Un) (s : State) := onSite s fun w => w.unary s f aluPopc

/-- BFI (20 R325). -/
def execBfi (f : BitIns) (s : State) := onSite s fun w =>
  w.res s f.g f.uni f.d fun L => aluBfi f.pos f.len (w.val32 f.uni f.a L) (w.val32 (f.uni || f.bu) f.b L)
/-- BFX (20 R326). -/
def execBfx (f : BitExt) (s : State) := onSite s fun w =>
  w.res s f.g f.uni f.d fun L => aluBfx f.signed f.pos f.len (w.val32 f.uni f.a L)

/-- ROT (22 R405). -/
def execRot (f : Shift) (s : State) := onSite s fun w => w.shift s f aluRot
/-- SAR (22 R405). -/
def execSar (f : Shift) (s : State) := onSite s fun w => w.shift s f aluSar
/-- SHL (22 R405). -/
def execShl (f : Shift) (s : State) := onSite s fun w => w.shift s f aluShl
/-- SHR (22 R405). -/
def execShr (f : Shift) (s : State) := onSite s fun w => w.shift s f aluShr

/-- IABS (21 R364). -/
def execIabs (f : UnT) (s : State) := onSite s fun w =>
  w.intRes s f.g f.uni f.ty f.d fun L => aluIabs f.ty (w.val f.uni f.ty f.a L)
/-- INEG (21 R364). -/
def execIneg (f : UnT) (s : State) := onSite s fun w =>
  w.intRes s f.g f.uni f.ty f.d fun L => aluIneg f.ty (w.val f.uni f.ty f.a L)
/-- IADD (21 R364). -/
def execIadd (f : BinS) (s : State) := onSite s fun w => w.typedSat s f (aluIadd f.ty f.sat)
/-- ISUB (21 R364). -/
def execIsub (f : BinS) (s : State) := onSite s fun w => w.typedSat s f (aluIsub f.ty f.sat)
/-- IADDI (21 R364). -/
def execIaddi (f : ImmT) (s : State) := onSite s fun w =>
  w.intRes s f.g f.uni f.ty f.d fun L => aluIaddi f.ty f.sat (w.val f.uni f.ty f.a L) f.imm
/-- IMAD (21 R364). -/
def execImad (f : TriT) (s : State) := onSite s fun w =>
  w.intRes s f.g f.uni f.ty f.d fun L =>
    aluImad f.ty (w.val f.uni f.ty f.a L) (w.val (f.uni || f.bu) f.ty f.b L) (w.val f.uni f.ty f.c L)
/-- IMAX (21 R364). -/
def execImax (f : BinT) (s : State) := onSite s fun w => w.typed2 s f (aluImax f.ty)
/-- IMIN (21 R364). -/
def execImin (f : BinT) (s : State) := onSite s fun w => w.typed2 s f (aluImin f.ty)
/-- IMUL (21 R364). -/
def execImul (f : BinT) (s : State) := onSite s fun w => w.typed2 s f (aluImul f.ty)
/-- IMULH (21 R364). -/
def execImulh (f : BinT) (s : State) := onSite s fun w => w.typed2 s f (aluImulh f.ty)

/-- ISETP (21 R365). -/
def execIsetp (f : SetpI) (s : State) := onSite s fun w =>
  w.pred s f.g f.p fun L => f.cmp.holds (f.ty.value (w.val false f.ty f.a L)) (f.ty.value (w.val f.bu f.ty f.b L))
/-- LEA (21 R371). -/
def execLea (f : LeaF) (s : State) := onSite s fun w =>
  w.res64 s f.g f.uni f.d fun L =>
    BitVec.ofNat 64 (aluLea f.signed f.sh (w.val f.uni .i64 f.a L) (w.val32 (f.uni || f.bu) f.b L))
/-- MOV (22 R375). -/
def execMov (f : MovF) (s : State) := onSite s fun w =>
  w.res s f.g (f.kind == .ss) f.d fun L => w.val32 (f.kind != .vv) f.src L
/-- MOVI (22 R376). -/
def execMovi (f : MovImm) (s : State) := onSite s fun w => w.res s f.g f.uni f.d fun _ => f.imm
/-- PLOP (22 R396). -/
def execPlop (f : PlopF) (s : State) := onSite s fun w =>
  w.pred s f.g f.p fun L =>
    aluPlop f.lut ((w.g.r.rdP f.a.toNat).getLsbD L) ((w.g.r.rdP f.b.toNat).getLsbD L)
/-- SEL (22 R408). -/
def execSel (f : SelF) (s : State) := onSite s fun w =>
  w.res s f.g false f.d fun L =>
    if (w.g.r.rdP f.pc.toNat).getLsbD L then w.val32 false f.a L else w.val32 f.bu f.b L

end Sys2Proof.Machine
end

