-- ==== Sys2Proof/Machine/Lane.lean ====
section
/-! DEFINITION. The meanings of the words that move values between lanes and groups (20 R324, 21 R373, 22 R400 to R409,
23 R441 to R445), with the rendezvous slots of a team (02 R45). -/

namespace Sys2Proof.Machine

/-- BCAST (20 R324). -/
def execBcast (f : BcastF) (s : State) := onSite s fun w =>
  w.commit s (w.g.r.wrS f.d.toNat (w.g.r.rdV f.a.toNat f.lane.toNat))

/-- LTILE (21 R373, 02 R40). -/
def execLtile (f : LtileF) (s : State) := onSite s fun w => w.commit s { w.g.r with ltile := f.w.setWidth 32 }

/-- The tile width in force (02 R40). -/
def Site.width (w : Site) : Nat := w.g.r.ltile.toNat

/-- REDUX and SCAN: every active lane receives what its node holds, and a NaN that one produced is reported (22 R401). -/
def Site.reduced (w : Site) (s : State) (g : Guard) (ty : Ty) (d : BitVec 8) (node : Nat → RNode) : State :=
  w.commitNan s (w.g.r.wrLanes d.toNat (w.lanes g) fun L => (node L).elim 0 fun x => ROp.output ty w.mode x.1)
    ((w.lanes g).any fun L => (node L).elim false fun x => x.2 || ROp.nanOut ty x.1) false

/-- REDUX (22 R400, R401). -/
def execRedux (f : LaneOp) (s : State) := onSite s fun w =>
  w.reduced s f.g f.ty f.d fun L =>
    reduxTile f.op f.ty w.mode w.width (w.active f.g) (fun i => w.val32 false f.a i) (tileBase w.width L)

/-- SCAN (22 R400, R401). -/
def execScan (f : ScanF) (s : State) := onSite s fun w =>
  w.reduced s f.g f.ty f.d fun L =>
    scanLane f.op f.ty w.mode f.excl w.width (w.active f.g) (fun i => w.val32 false f.a i) L

/-- SHFL (22 R409). -/
def execShfl (f : ShflF) (s : State) := onSite s fun w =>
  w.res s f.g false f.d fun L => w.val32 false f.a (shflSrc f.mode w.width L (w.amt false f.amt L).toNat)

/-- VOTE (23 R441). -/
def execVote (f : VoteF) (s : State) := onSite s fun w =>
  let r := voteTile f.kind w.width (w.active f.g) (w.g.r.rdP f.a.toNat)
  if f.kind == .ballot then w.res s f.g false f.d r
  else w.pred s f.g (f.d.setWidth 3) fun L => r L == 1

/-! ### Rendezvous slots (02 R45) -/

/-- A rendezvous slot: empty at first. -/
def Team.rdvSlot (t : Team) (n : Nat) : RdvSlot := t.rdv.getD n ⟨false, [], []⟩

/-- A rendezvous slot replaced. -/
def State.setRdv (s : State) (t n : Nat) (x : RdvSlot) : State := s.updTeam t fun tm => { tm with rdv := tm.rdv.put n x }

/-- A waiter is a sender. -/
def RdvWaiter.isSend : RdvWaiter → Bool
  | .send _ _ _ => true
  | .recv _ _ => false

/-- The 32 words of a v register. -/
def GroupRegs.whole (r : GroupRegs) (n : Nat) : List W32 := allLanes.map fun L => r.rdV n L

/-- The writes of a whole v register. -/
def wholeWrites (d : Nat) (data : List W32) : List RegWrite := allLanes.map fun L => .v d L (data.getD L 0)

/-- XSEND (23 R444, R445): at once into an empty slot that no sender waits for, else the word waits in order. -/
def execXsend (f : XsendF) (s : State) := onMem s fun w =>
  let n := f.slot.toNat
  let x := w.tm.rdvSlot n
  if !x.full && !(x.waiters.any RdvWaiter.isSend) then
    (w.commit s w.g.r).setRdv w.team n { x with full := true, data := w.g.r.whole f.a.toNat }
  else
    (w.awaitIssued s (.xsend n f.a.toNat)).setRdv w.team n { x with waiters := x.waiters ++ [.send w.grp w.slot f.a.toNat] }

/-- XRECV (23 R444, R445): the slot at once when it is full and no receiver waits, else in order. -/
def execXrecv (f : XrecvF) (s : State) := onMem s fun w =>
  let n := f.slot.toNat
  let x := w.tm.rdvSlot n
  if x.full && x.waiters.all RdvWaiter.isSend then
    (w.post s f.la (.xrecv f) .value (wholeWrites f.d.toNat x.data) 0).setRdv w.team n { x with full := false, data := [] }
  else
    (w.post s f.la (.xrecv f) (.recv n f.d.toNat) [] 0).setRdv w.team n
      { x with waiters := x.waiters ++ [.recv w.grp w.g.nextId] }

end Sys2Proof.Machine
end

