-- ==== Sys2Proof/Machine/Order.lean ====
section
/-! DEFINITION. What the memory and synchronisation words share: waiting behind an access that has not performed, releases
with unwritable lines (14 R259), acquires (08 R159, R164, R170), rejection (08 R153), collapse (01 R28), lines that the
host holds (19 R300), and the held accesses of a speculative window (08 R165). -/

namespace Sys2Proof.Machine

/-! ### Miss entries -/

/-- The lines that an access of a core takes miss entries for: the distinct ones that L1 does not serve (log entry 13). -/
def missLines (hit : Phys → Bool) (phs : List Phys) : List Nat :=
  ((phs.filter fun ph => !hit ph).map fun ph => lineOf ph.pa).eraseDups

/-! ### Collapse of replicated pages (01 R28) -/

/-- A collapse holds the writes to an address. -/
def Collapse.holds (c : Collapse) (pa : Nat) : Bool := c.frame ≤ pa / 4096 && pa / 4096 < c.frame + c.pages

/-- The page that a written address of a context belongs to, as its tables map it: first virtual page, pages, and first frame. -/
def State.pageOf (s : State) (ctx : Nat) (ph : Phys) : Nat × Nat × Nat :=
  match s.walkCtx (fun _ => true) ctx (ph.page * 4096) with
  | .ok l => let e := l.entry ctx ph.page; (e.page, e.pages, e.home)
  | .error _ => (ph.page, 1, ph.pa / 4096)

/-- A write to a replicated page of a context waits for its collapse; the first one raises the event (01 R28). -/
def State.joinCollapse (s : State) (ctx : Nat) (act : Action) (ph : Phys) : State :=
  let join := fun (c : Collapse) => { c with waiters := if c.waiters.contains act then c.waiters else c.waiters ++ [act] }
  if s.m.collapses.any fun c => c.holds ph.pa then
    { s with m := { s.m with collapses := s.m.collapses.map fun c => if c.holds ph.pa then join c else c } }
  else
    let (page, pages, frame) := s.pageOf ctx ph
    { s with m := { s.m with collapses := s.m.collapses ++ [⟨ctx, page, pages, frame, false, [act]⟩] } }

/-- The state in which a step waits whose writes touch a replicated page or one that collapses, if they do. -/
def State.collapseWait (s : State) (ctx : Nat) (act : Action) (phs : List Phys) : Option State :=
  match phs.filter fun ph => ph.repl || s.m.collapses.any fun c => c.holds ph.pa with
  | [] => none
  | l => some (l.foldl (fun s' ph => s'.joinCollapse ctx act ph) s)

/-! ### Write-backs that are refused (14 R259) -/

/-- The lines of a core whose write-back is refused, with their keys, owners and causes. -/
def State.refusals (s : State) (core : Nat) (test : Nat → Bool) : List (Nat × Nat × Cause) :=
  (s.m.l1Of core).filterMap fun e =>
    if test e.1 then (s.refusal core e.1 e.2).map fun c => (e.1, e.2.ctx, c) else none

/-- Lines of a core whose write-back for a word was refused are discarded, and the cause of the first is raised against the word; the
other lines that satisfy a test are written back (14 R259). -/
def Site.refuse (w : Site) (s : State) (core : Nat) (test : Nat → Bool) (x : Nat × Nat × Cause) (rest : List (Nat × Nat × Cause)) :
    State :=
  if w.blocked then w.holdBack s
  else
    let s1 := (x :: rest).foldl (fun s' e => s'.eraseL1 core e.1) s
    w.faultAs (s1.wbWhere core test) x.2.2 w.pc (BitVec.ofNat 64 (128 * keyLine x.1)) (if x.2.2 = .releaseWb then x.2.1 else 0)

/-- Dirty lines of the core that satisfy a test written back for a word. A refused one of the word's own context (of any
context when `every`) raises its cause against the word; one of another context faults its owner (14 R259, log entry 108). -/
def Site.writeBack (w : Site) (s : State) (test : Nat → Bool) (every : Bool) : Except State State :=
  match (s.refusals w.core test).filter fun e => every || e.2.1 == w.ctx with
  | [] => .ok (s.wbWhere w.core test)
  | x :: rest => .error (w.refuse s w.core test x rest)

/-! ### Release and acquire (08 R159, R164, R170) -/

/-- The lines of a list that the host holds: the device asks for them, and the step that writes them waits (19 R300). -/
def State.needHost (s : State) (lines : List Nat) (act : List Action) : Option State :=
  if lines.any s.hostHolds then some (s.askHost lines act) else none

/-- The lines that a release of a core at a scope code writes at their home before it ends: at system scope its dirty lines and what
stands in the CORE buffers. -/
def State.releaseLines (s : State) (core sc : Nat) : List Nat :=
  if sc = 5 then
    (((s.m.l1Of core).filter fun e => e.2.dirty != 0).map fun e => keyLine e.1) ++ s.drainLines .core fun _ => true
  else []

/-- A release at a scope code: dirty lines are written back at cluster scope or wider, and at system scope the writes of
the core leave their buffers for the host. The error is the state in which the word waits or faults. -/
def Site.releaseAt (w : Site) (s : State) (sc : Nat) : Except State State :=
  if sc < 2 then .ok s
  else
    match w.writeBack s (fun _ => true) false with
    | .error e => .error e
    | .ok s1 =>
      if sc = 5 then
        match s1.needHost (s1.drainLines .core fun _ => true) [w.act] with
        | some s2 => .error s2
        | none => .ok (s1.drainPath .core fun _ => true)
      else .ok s1

/-- The holder of a line is another core (08 R164). -/
def State.heldLine (s : State) (core line : Nat) : Bool :=
  match s.m.holders.find? line with
  | some c => c != core
  | none => false

/-- A line whose holder is another core stops an acquire at device scope or wider (08 R164). -/
def State.heldElsewhere (s : State) (core : Nat) (phs : List Phys) : Bool := phs.any fun ph => s.heldLine core (lineOf ph.pa)

/-- The lines that a slot has read by relaxed accesses while another core held them. -/
def Group.heldBy (g : Group) (b : Bool) : List Nat := if b then g.held1 else g.held0

/-- The lines that a slot has read so replaced. -/
def Group.setHeld (g : Group) (b : Bool) (l : List Nat) : Group := if b then { g with held1 := l } else { g with held0 := l }

/-- A relaxed atomic read, with an acquire fence after it, acts as the acquire: the lines among those read that another core holds are
noted, and the fence promotes them (08 R161, R164). -/
def Site.noteHeld (w : Site) (s : State) (ord : MemOrd) (phs : List Phys) : State :=
  let l := (phs.map fun ph => lineOf ph.pa).filter fun x => s.heldLine w.core x
  if ord == .plain || ord == .acq || ord == .ar || l.isEmpty then s
  else w.upd s fun g => g.setHeld w.slot ((g.heldBy w.slot ++ l).eraseDups)

/-- An acquire fence of the slot at a scope code waits for the promotion of a line that an earlier relaxed read of it found held. -/
def Site.fenceWaits (w : Site) (s : State) (sc : Nat) : Bool := 3 ≤ sc && (w.g.heldBy w.slot).any fun x => s.heldLine w.core x

/-- The scope code at which a write of a slot releases what its core has written: that of a releasing write, or that of an earlier
fence of the slot for another atomic one (08 R161). -/
def Site.relScope (w : Site) (ord : MemOrd) (sc : Nat) : Nat :=
  match ord with
  | .rel | .ar => sc
  | .rlx | .acq => if w.slot then w.g.fence1 else w.g.fence0
  | .plain => 0

/-- A release at a scope code that leaves the lines of the core in its L1 makes it the holder of the CP 0 lines that it writes
(08 R164). -/
def holderScope (sc : Nat) : Bool := sc = 1 || sc = 2

/-- The core recorded as the holder of the CP 0 lines of a release at team or cluster scope (08 R164). -/
def State.recordHolder (s : State) (core sc : Nat) (phs : List Phys) : State :=
  if holderScope sc then
    { s with m := { s.m with holders :=
        (phs.filter fun ph => ph.cp == 0 && !ph.host).foldl (fun m ph => m.put (lineOf ph.pa) core) s.m.holders } }
  else s

/-- A second core's notice waits until the current holder is promoted (08 R164). -/
def State.noticeWaits (s : State) (core sc : Nat) (phs : List Phys) : Bool :=
  holderScope sc && s.heldElsewhere core (phs.filter fun ph => ph.cp == 0)

/-- The clean bytes of an L1 line read again from the slice, after an access that read there. -/
def State.refresh (s : State) (core : Nat) (ph : Phys) : State :=
  match s.l1Line? core ph with
  | some l => s.setL1 core ((s.m.l1Of core).put (l1Key (lineOf ph.pa) ph.key) (l.refill (s.fetchLine ph)))
  | none => s

/-- A load that performs at the home slice. -/
def State.homeLoad (s : State) (core ctx : Nat) (ph : Phys) : State :=
  (s.l2Access (s.tenantOf ctx) ph).refresh core ph

/-- The dirty bytes of a core in the lines of a list written back, so that a read at the slice finds them (08 R165, 22 R378). -/
def State.pushOut (s : State) (core : Nat) (phs : List Phys) : State :=
  s.wbWhere core fun k => phs.any fun ph => k == l1Key (lineOf ph.pa) ph.key

/-! ### Speculative windows (08 R165) -/

/-- The byte that a held store of the window writes last at an address. -/
def SpecWindow.byte? (win : SpecWindow) (pad : Option Nat) (addr : Nat) : Option Byte :=
  win.stores.reverse.findSome? fun h =>
    if h.pad == pad && h.addr ≤ addr && addr < h.addr + h.data.length then h.data[addr - h.addr]? else none

/-- A byte with the held stores of the group's window over it. -/
def Site.over (w : Site) (pad : Option Nat) (addr : Nat) (b : Byte) : Byte :=
  ((w.g.spec.bind fun win => win.byte? pad addr).getD b)

/-- The window of the group changed, when one is open. -/
def Site.inWindow (w : Site) (s : State) (f : SpecWindow → SpecWindow) : State :=
  if w.g.spec.isSome then w.upd s fun g => { g with spec := g.spec.map f } else s

/-- Read marks placed on lines of device memory. -/
def Site.mark (w : Site) (s : State) (phs : List Phys) : State :=
  w.inWindow s fun win => { win with marks := win.marks ++ phs.map fun ph => lineOf ph.pa }

/-- Marks placed on lines of scratchpad. -/
def Site.padMark (w : Site) (s : State) (l : List (Nat × Nat)) : State :=
  w.inWindow s fun win => { win with padMarks := win.padMarks ++ l.map fun x => (x.1, x.2 / 128) }

end Sys2Proof.Machine
end

