-- ==== Sys2Proof/Machine/MemWords.lean ====
section
/-! DEFINITION. The memory words (20 R314 to R319, R337, R338, 21 R368 to R370, 22 R377 to R379, R398, 23 R433 to R435). -/

namespace Sys2Proof.Machine

/-! ### Loads -/

/-- Registers that data of n bytes takes (04 R73). -/
def dataRegs (n : Nat) : Nat := max 1 (n / 4)

/-- The register writes of a load of bytes (21 R369). -/
def loadWrites (uni : Bool) (d n L : Nat) (b : List Byte) : List RegWrite :=
  (List.range (dataRegs n)).map fun k =>
    let x : W32 := BitVec.ofNat 32 (bytesToNat b / 2 ^ (32 * k))
    if uni then .s (d + k) x else .v (d + k) L x

/-- The bytes that a load of the slot reads in device memory: held stores of its window first; at the slice for an ordered
load of cluster scope or wider and inside a window, else through L1 (08 R149, R159, R165). -/
def Site.loadBytes (w : Site) (s : State) (home : Bool) (ph : Phys) (n : Nat) : List Byte :=
  (List.range n).map fun i =>
    w.over none (ph.pa + i)
      (if w.g.spec.isSome then s.readByte .core ph i
       else if home then s.orderedByte w.core ph i else s.coreByte w.core ph i)

/-- LD and LDU (21 R368 to R370). -/
def Site.load (w : Site) (s : State) (i : Instr) (la : BitVec 4) (lanes : List Nat) (uni as : Bool) (a : BitVec 8)
    (off : BitVec 13) (n : Nat) (scope : Scope) (ord : MemOrd) (d : BitVec 8) : State :=
  let sc := w.scopeRun s scope
  let home := w.g.spec.isSome || (ord != .plain && 2 ≤ sc)
  let hit := fun ph => !home && s.l1Hit w.core ph n
  match eachLane (fun L => w.devPhysIf s .read hit n (w.devAddr as a off L)) lanes with
  | .error (c, x) => w.fault s c x
  | .ok l =>
    let phs := l.map (·.2)
    let entries := (missLines hit phs).length
    if w.rejects s entries then w.reject s
    else if ord == .acq && 3 ≤ sc && s.heldElsewhere w.core phs then s
    else
      let s0 := if w.g.spec.isSome then s.pushOut w.core phs else s
      let writes := l.flatMap fun x => loadWrites uni d.toNat n x.1 (w.loadBytes s0 home x.2 n)
      let s1 := phs.foldl (fun s' ph =>
        if home then s'.homeLoad w.core w.ctx ph else s'.loadFill w.core w.ctx ph n) (w.mark s0 phs)
      let s2 := w.noteHeld (w.post s1 la i .value writes entries) ord phs
      let s3 := if ord == .acq then s2.acquire w.core sc else s2
      w.clip s s3 scope

/-- LD (21 R368 to R370). -/
def execLd (f : LoadF) (s : State) := onMem s fun w =>
  w.load s (.ld f) f.la (w.lanes f.g) false f.as f.a f.off f.sz.bytes f.scope f.ord f.d
/-- LDU (21 R368 to R370). -/
def execLdu (f : LduF) (s : State) := onMem s fun w =>
  w.load s (.ldu f) f.la [0] true true f.a f.off f.sz.bytes f.scope f.ord f.d

/-- The scratchpad accesses of a word by lane, or its failure. -/
def Site.padLanes (w : Site) (s : State) (lanes : List Nat) (as : Bool) (a : BitVec 8) {k : Nat} (off : BitVec k) (n : Nat) :
    Except Bad (List (Nat × Nat × Nat)) :=
  eachLane (fun L => w.padPhys s n (w.padAddr as a off L)) lanes

/-- Some access touches a line whose presence bit is clear (08 R148). -/
def State.absentIn (s : State) (l : List (Nat × Nat × Nat)) (n : Nat) : Bool := l.any fun x => s.padAbsent x.2.1 x.2.2 n

/-- The lines that an access of n bytes touches in the pads. -/
def padLines (l : List (Nat × Nat × Nat)) (n : Nat) : List (Nat × Nat) :=
  (l.flatMap fun x => [(x.2.1, x.2.2 / 128), (x.2.1, (x.2.2 + n - 1) / 128)]).eraseDups

/-- The word waits for the presence bits of the lines that it touches; its slot is not ready until they are set (08 R148). -/
def Site.park (w : Site) (s : State) (l : List (Nat × Nat × Nat)) (n : Nat) : State :=
  w.await s (.absent ((padLines l n).filter fun x => s.padAbsent x.1 (128 * x.2) 128))

/-- A byte of a counted barrier object whose fields a store has left unpredictable (11 R226, log entry 25). -/
def State.spoiledAt (s : State) (team a : Nat) : Bool :=
  (s.teams.find? team).elim false fun t => (t.objects.find? (a / 8)).elim false fun o => o.used && o.spoiled

/-- The bytes of scratchpad as a word reads them: those of a spoiled object are free. -/
def State.padSeen (s : State) (team a n : Nat) : List Byte :=
  (s.padRead team a n).mapIdx fun i b => if s.spoiledAt team (a + i) then Config.freeByte s.tick (2 ^ 50 + a + i) else b

/-- The bytes that a load of the slot reads in scratchpad. -/
def Site.padBytes (w : Site) (s : State) (team a n : Nat) : List Byte :=
  (s.padSeen team a n).mapIdx fun i b => w.over (some team) (a + i) b

/-- LDS (21 R368 to R370). -/
def execLds (f : LoadF) (s : State) := onMem s fun w =>
  match w.padLanes s (w.lanes f.g) f.as f.a f.off f.sz.bytes with
  | .error (c, x) => w.fault s c x
  | .ok l =>
    if s.absentIn l f.sz.bytes then w.park s l f.sz.bytes
    else
      let writes := l.flatMap fun x => loadWrites false f.d.toNat f.sz.bytes x.1 (w.padBytes s x.2.1 x.2.2 f.sz.bytes)
      let s1 := w.post (w.padMark s (l.map (·.2))) f.la (.lds f) .value writes 0
      if f.ord == .acq then s1.acquire w.core f.scope.code else s1

/-! ### Stores -/

/-- The data of a store in a lane (23 R434). -/
def Site.storeData (w : Site) (b : BitVec 8) (n L : Nat) : List Byte :=
  natToBytes n ((List.range (dataRegs n)).foldl (fun x k => x + (w.g.r.rdV (b.toNat + k) L).toNat * 2 ^ (32 * k)) 0)

/-- The held stores of a window for the lanes of a store. -/
def Site.hold (w : Site) (s : State) (l : List HeldStore) : State :=
  w.inWindow (w.commit s w.g.r) fun win => { win with stores := win.stores ++ l }

/-- The keys of the lines of a list of addresses. -/
def Site.lineKeys (_ : Site) (phs : List Phys) (k : Nat) : Bool := phs.any fun ph => k == l1Key (lineOf ph.pa) ph.key

/-- ST (23 R433 to R435). -/
def execSt (f : StoreF) (s : State) := onMem s fun w =>
  let n := f.sz.bytes
  let sc := w.scopeRun s f.scope
  let through := f.ord != .plain && 3 ≤ sc
  let hit := fun ph => (s.l1Line? w.core ph).isSome
  match eachLane (fun L => w.devPhysIf s .write (fun ph => !through && hit ph) n (w.devAddr f.as f.a f.off L)) (w.lanes f.g) with
  | .error (c, x) => w.fault s c x
  | .ok l =>
    let phs := l.map (·.2)
    let collapse := s.collapseWait w.ctx w.act phs
    let rel := w.relScope f.ord sc
    if w.g.spec.isSome then
      (if collapse.isSome then w.holdBack s
       else w.hold s (l.map fun x => ⟨none, x.2.pa, x.2.page, x.2.key, x.2.cp, x.2.host, w.storeData f.b n x.1⟩))
    else
      match collapse with
      | some s1 => s1
      | none =>
        if w.rejects s (missLines hit (phs.filter fun ph => ph.cp == 0 && !ph.host)).length then w.reject s
        else if s.noticeWaits w.core rel phs then s
        else
          match (if f.ord == .rel then w.releaseAt s sc else if through then w.writeBack s (w.lineKeys phs) false else .ok s) with
          | .error e => e
          | .ok s1 =>
            let s2 := l.foldl (fun s' x =>
              if through then s'.throughStore w.core w.ctx x.2 (w.storeData f.b n x.1) w.writer
              else s'.coreStore w.core w.ctx x.2 (w.storeData f.b n x.1) w.writer) s1
            w.clip s (w.commit (s2.recordHolder w.core rel phs) w.g.r) f.scope

/-- An STS or ATOMS has written to bytes: the fields of an object there are unpredictable (11 R226). -/
def State.spoil (s : State) (team a n : Nat) : State :=
  s.updTeam team fun t =>
    { t with objects := [a / 8, (a + n - 1) / 8].foldl (fun m k =>
        m.put k ⟨(m.find? k).elim false (·.used), true⟩) t.objects }

/-- STS (23 R433 to R435). -/
def execSts (f : StoreF) (s : State) := onMem s fun w =>
  let n := f.sz.bytes
  match w.padLanes s (w.lanes f.g) f.as f.a f.off n with
  | .error (c, x) => w.fault s c x
  | .ok l =>
    if s.absentIn l n then w.park s l n
    else if w.g.spec.isSome then
      w.hold s (l.map fun x => ⟨some x.2.1, x.2.2, 0, 0, 0, false, w.storeData f.b n x.1⟩)
    else
      match (if f.ord == .rel then w.releaseAt s f.scope.code else .ok s) with
      | .error e => e
      | .ok s1 =>
        w.commit (l.foldl (fun s' x =>
          (s'.padWrite x.2.1 x.2.2 (w.storeData f.b n x.1) w.writer).spoil x.2.1 x.2.2 n) s1) w.g.r

/-! ### Atomics -/

/-- The operand and the compare value of an atomic in a lane (20 R315). -/
def Site.operand (w : Site) (r : BitVec 8) (n L : Nat) : Nat :=
  if n = 8 then (w.g.r.rdV64 r.toNat L).toNat else (w.g.r.rdV r.toNat L).toNat

/-- One lane of an atomic at its home slice: the new state and the old value (20 R315, R316). -/
def State.atomAt (s : State) (core ctx : Nat) (by_ : Writer) (op : AOp) (n : Nat) (ph : Phys) (b cmp : Nat) : State × Nat :=
  let s1 := (s.l2Access (s.tenantOf ctx) ph).atomPrepare core ph
  let old := bytesToNat (readBytes (s1.homeByte ph.key) ph.pa n)
  (s1.landBytes ph (natToBytes n (atomNew op n old b cmp)) by_, old)

/-- The address of an atomic lane as a translated one. -/
def AtomLane.ph (x : AtomLane) : Phys := ⟨x.phys, 0, x.key, x.cp, placeOf x.phys == .host, false⟩

/-- Lanes of an atomic in ascending order as far as they act in the package: the state, the register writes, and the
lanes from the first one that acts at the host on (09 R173). -/
def State.runAtoms (core ctx : Nat) (by_ : Writer) (op : AOp) (n d : Nat) :
    List AtomLane → State → State × List RegWrite × List AtomLane
  | [], s => (s, [], [])
  | x :: rest, s =>
    if x.ph.host then (s, [], x :: rest)
    else
      let (s1, old) := s.atomAt core ctx by_ op n x.ph x.operand x.compare
      let (s2, ws, host) := State.runAtoms core ctx by_ op n d rest s1
      (s2, loadWrites false d n x.lane (natToBytes n old) ++ ws, host)

/-- An acquiring, and a releasing, atomic. -/
def ordAcq : MemOrd → Bool
  | .acq | .ar => true
  | _ => false
def ordRel : MemOrd → Bool
  | .rel | .ar => true
  | _ => false

/-- The operations of the host window (08 Table 8-2). -/
def hostOp : AOp → Bool
  | .add | .exch | .cas => true
  | _ => false

/-- ATOM (20 R314 to R318). -/
def execAtom (f : AtomF) (s : State) := onMem s fun w =>
  let n := f.sz.bytes
  let check := fun L =>
    match w.devPhys s .write n (w.devAddr f.as f.a f.off L) with
    | .error e => .error e
    | .ok ph => if ph.host && !hostOp f.op then .error (.atomUnsup, w.devAddr f.as f.a f.off L) else .ok ph
  match eachLane check (w.lanes f.g) with
  | .error (c, x) => w.fault s c x
  | .ok l =>
    let phs := l.map (·.2)
    let dev := phs.filter fun ph => !ph.host
    let sc := w.scopeRun s f.scope
    let entries := (missLines (fun _ => false) phs).length
    let rel := w.relScope f.ord sc
    match s.collapseWait w.ctx w.act phs with
    | some s1 => s1
    | none =>
      if w.rejects s entries then w.reject s
      else if ordAcq f.ord && 3 ≤ sc && s.heldElsewhere w.core phs then s
      else if s.noticeWaits w.core rel phs then s
      else
        match s.needHost ((dev.map fun ph => lineOf ph.pa) ++ (if ordRel f.ord then s.releaseLines w.core sc else [])) [w.act] with
        | some s1 => s1
        | none =>
          match (if ordRel f.ord then w.releaseAt s sc else .ok s) with
          | .error e => e
          | .ok s1 =>
            match w.writeBack s1 (w.lineKeys dev) false with
            | .error e => e
            | .ok s2 =>
              let lanes := l.map fun x => (⟨x.1, w.devAddr f.as f.a f.off x.1, x.2.pa, x.2.key, x.2.cp,
                w.operand f.b n x.1, w.operand f.d n x.1⟩ : AtomLane)
              let (s3, ws, host) := State.runAtoms w.core w.ctx w.writer f.op n f.d.toNat lanes s2
              let s4 := w.noteHeld (s3.recordHolder w.core rel dev) f.ord phs
              match host with
              | [] =>
                let s5 := w.post s4 f.la (.atom f) .value ws entries
                w.clip s (if ordAcq f.ord then s5.acquire w.core sc else s5) f.scope
              | x :: rest =>
                let acq := if ordAcq f.ord then some sc else none
                w.clip s (w.post s4 f.la (.atom f) (.host ⟨f.op, n, f.d.toNat, x, rest, acq, w.pc⟩) ws entries) f.scope

/-- A scratchpad address in a peer window other than the team's own (03 R62). -/
def Site.inPeer (w : Site) (a : W32) : Bool :=
  0x100000 ≤ a.toNat && w.tm.peers.find? ((a.toNat - 0x100000) / 0x80000) != some w.team

/-- ATOMS (20 R319). -/
def execAtoms (f : AtomF) (s : State) := onMem s fun w =>
  let n := f.sz.bytes
  match w.padLanes s (w.lanes f.g) f.as f.a f.off n with
  | .error (c, x) => w.fault s c x
  | .ok l =>
    let peer := (w.lanes f.g).any fun L => w.inPeer (w.padAddr f.as f.a f.off L)
    let sc := if peer then max 2 f.scope.code else f.scope.code
    if s.absentIn l n then w.park s l n
    else
      match (if ordRel f.ord then w.releaseAt s sc else .ok s) with
      | .error e => e
      | .ok s1 =>
        let (s2, ws) := l.foldl (fun (st : State × List RegWrite) x =>
          let old := bytesToNat (st.1.padSeen x.2.1 x.2.2 n)
          let new := atomNew f.op n old (w.operand f.b n x.1) (w.operand f.d n x.1)
          ((st.1.padWrite x.2.1 x.2.2 (natToBytes n new) w.writer).spoil x.2.1 x.2.2 n,
            st.2 ++ loadWrites false f.d.toNat n x.1 (natToBytes n old))) (s1, [])
        let s3 := w.post s2 f.la (.atoms f) .value ws 0
        if ordAcq f.ord then s3.acquire w.core sc else s3

/-! ### CCTL and PREF -/

/-- One line of CCTL after its check for unwritable lines. -/
def State.cctlLine (s : State) (core : Nat) (op : CctlOp) (ph : Phys) : State :=
  let k := l1Key (lineOf ph.pa) ph.key
  let wb := fun (s : State) => (s.wbWhere core (· == k)).drainPath .core fun e => e.line == lineOf ph.pa
  let inv := fun (s : State) => s.eraseL1 core k
  match op with
  | .wb => wb s
  | .inv => (inv s).drainPath .core fun e => e.line == lineOf ph.pa
  | .wbinv => inv (wb s)

/-- CCTL (20 R337, R338). -/
def execCctl (f : CctlF) (s : State) := onMem s fun w =>
  let vas := (w.lanes f.g).flatMap (w.cctlLines f)
  match eachLane (fun va => match s.resolve w.core w.ctx .read va with
      | .ok ph => .ok ph
      | .error c => .error (c, BitVec.ofNat 64 va)) vas with
  | .error (c, x) => w.fault s c x
  | .ok l =>
    let phs := (l.map (·.2)).filter fun ph => !ph.host
    let lines := phs.map fun ph => lineOf ph.pa
    match s.needHost lines [w.act] with
    | some s1 => s1
    | none =>
      match (if f.op == .inv then .ok s else w.writeBack s (w.lineKeys phs) true) with
      | .error e => e
      | .ok s1 => w.commit (phs.foldl (fun s' ph => s'.cctlLine w.core f.op ph) s1) w.g.r

/-- A prefetched line (22 R398). -/
def State.prefetch (s : State) (core ctx cls : Nat) (ph : Phys) : State :=
  if cls = 0 then s.loadFill core ctx ph 1
  else s.l2AccessAs (if cls = 2 then .always else if cls = 3 then .never else .sampled) (s.tenantOf ctx) ph

/-- PREF (22 R398): requests that do not translate, and those to the host window, are dropped. -/
def execPref (f : PrefF) (s : State) := onMem s fun w =>
  let phs := (w.lanes f.g).filterMap fun L =>
    match s.resolve w.core w.ctx .read (w.devAddr f.as f.a f.off L).toNat with
    | .ok ph => if ph.host then none else some ph
    | .error _ => none
  if w.rejects s (missLines (fun ph => s.l1Hit w.core ph 1) phs).length then w.reject s
  else w.commit (phs.foldl (fun s' ph => s'.prefetch w.core w.ctx f.cls.toNat ph) s) w.g.r

/-! ### MWAIT (22 R377 to R379) -/

/-- The value that a monitor reads at the home slice, and the state after the read: dirty bytes of the core in the line are written
back first, and its L1 takes what the slice holds (08 R163, 22 R378). -/
def State.monRead (s : State) (core ctx : Nat) (ph : Phys) (n : Nat) : State × Nat :=
  let s1 := s.pushOut core [ph]
  (s1.homeLoad core ctx ph, bytesToNat (s1.readPath .core ph n))

/-- The register writes of an MWAIT that ends with a value. -/
def Monitor.writes (m : Monitor) (v : Nat) (timeout : Bool) : List RegWrite :=
  (if m.ty.is64 then [.s m.d (BitVec.ofNat 32 v), .s (m.d + 1) (BitVec.ofNat 32 (v / 2 ^ 32))]
   else [.s m.d (BitVec.ofNat 32 v)]) ++ [.p m.p m.mask (if timeout then 0xFFFFFFFF else 0)]

/-- Whether a value ends the wait, and with which report: the condition, or the limit at a clock (22 R378). -/
def Monitor.ends (m : Monitor) (clk v : Nat) : Option Bool :=
  if m.cmp.holds (m.ty.value v) (m.ty.value m.b.toNat) then some false
  else if m.limit != 0xFFFFFFFF && m.limit.toNat ≤ clk - m.t0 then some true
  else none

/-- MWAIT (22 R377 to R379). -/
def execMwait (f : MwaitF) (s : State) := onMem s fun w =>
  let n := if f.ty.is64 then 8 else 4
  let va := w.g.r.rdS64 f.a.toNat + BitVec.ofNat 64 (8 * f.off.toNat)
  match w.devPhys s .read n va with
  | .error (c, x) => w.fault s c x
  | .ok ph =>
    if s.heldElsewhere w.core [ph] then s
    else
      let b : W64 := if f.ty.is64 then w.g.r.rdS64 f.b.toNat else (w.g.r.rdS f.b.toNat).setWidth 64
      let m : Monitor := ⟨w.pc, va, ph.pa, ph.key, ph.host, f.ty, f.cmp, b, w.g.r.rdS f.c.toNat, s.clk, s.clk, f.d.toNat,
        f.p.toNat, w.mask, false⟩
      let (s1, v) := s.monRead w.core w.ctx ph n
      match m.ends s.clk v with
      | some late => (w.post s1 f.la (.mwait f) .value (m.writes v late) 0).acquire w.core 3
      | none => w.post s1 f.la (.mwait f) (.monitor m) [] 0

end Sys2Proof.Machine
end

