-- ==== Sys2Proof/Machine/Sync.lean ====
section
/-! DEFINITION. Barriers (02 R46, 09 R174), counted barrier objects (11 R226 to R228), fences, signals and cross-path fences
(20 R320 to R336, 21 R356, 22 R388, 23 R410 to R412, R442). -/

namespace Sys2Proof.Machine

/-! ### Barriers -/

/-- The scope code of a barrier (09 R174). -/
def BarKind.scope : BarKind → Nat
  | .bar => 1
  | .cbar => 2
  | .nbar => 3

/-- A barrier word: illegal in a handler, a release at arrival, then the slot waits (20 R320, 22 R388). -/
def Site.barrier (w : Site) (s : State) (k : BarKind) : State :=
  if w.g.t.inh then w.fault s .illegal 0
  else
    match w.releaseAt s k.scope with
    | .error e => e
    | .ok s1 => w.awaitIssued s1 (.barrier k)

/-- BAR (20 R320). -/
def execBar (s : State) := onMem s fun w => w.barrier s .bar
/-- CBAR (20 R336). -/
def execCbar (s : State) := onMem s fun w => w.barrier s .cbar
/-- NBAR (22 R388): only in a persistent nest. -/
def execNbar (s : State) := onMem s fun w =>
  if w.g.t.inh then w.fault s .illegal 0
  else if (s.nests.find? w.tm.nest).elim false (·.launch.persist) then w.barrier s .nbar
  else w.fault s .nbarNonpersist 0

/-- A group has arrived at a barrier: each of its live slots waits there, and one does, and what it accessed before has performed; or
it has executed END (02 R46, 09 R174). -/
def Group.arrivedAt (g : Group) (k : BarKind) : Bool :=
  g.st.ended ||
  (!g.pend.any Pending.unperformed &&
   (g.w0 == some (.barrier k) || g.w1 == some (.barrier k)) &&
   (!(g.r.slot false).live || g.w0 == some (.barrier k)) && (!(g.r.slot true).live || g.w1 == some (.barrier k)))

/-- Some group of a team waits at a barrier. -/
def Team.waitsAt (t : Team) (k : BarKind) : Bool :=
  t.groups.any fun g => g.w0 == some (.barrier k) || g.w1 == some (.barrier k)

/-- The teams that take part in a barrier of a team (02 R46). -/
def State.barTeams (s : State) (t : Nat) (tm : Team) : BarKind → List Nat
  | .bar => [t]
  | .cbar => if tm.peers.isEmpty then [t] else tm.peers.vals
  | .nbar => (s.teams.filter fun e => e.2.nest == tm.nest).map (·.1)

/-- A barrier is complete: every group that takes part has arrived, and no team of it is saved (17 R295). -/
def State.barDone (s : State) (ts : List Nat) (k : BarKind) : Bool :=
  ts.all fun t => match s.teams.find? t with
    | some tm => tm.phase == .retired || (tm.phase != .saved && tm.groups.all fun g => g.arrivedAt k)
    | none => true

/-- The slots of a team that wait at a barrier go on past it. -/
def State.barRelease (s : State) (k : BarKind) (t : Nat) : State :=
  match s.teams.find? t with
  | some tm =>
    (List.range tm.groups.length).foldl (fun s' n =>
      let go := fun (b : Bool) (x : State) =>
        match x.group? t n with
        | some g => if g.wait b == some (.barrier k) then x.finish t n b (fun g => g.r) else x
        | none => x
      go true (go false s')) s
  | none => s

/-- The cores of a list of teams. -/
def State.coresOf (s : State) (ts : List Nat) : List Nat :=
  (ts.filterMap fun t => (s.teams.find? t).map (·.core)).eraseDups

/-- The slots of the teams of a barrier that wait at it, those on a core first. -/
def State.barSlots (s : State) (ts : List Nat) (k : BarKind) (core : Nat) : List Site :=
  let all := ts.flatMap fun t => (List.range ((s.teams.find? t).elim 0 (·.groups.length))).flatMap fun n =>
    [false, true].filterMap fun b => (s.siteAt t n b).filter fun w => w.g.wait b == some (.barrier k)
  (all.filter fun w => w.core == core) ++ all.filter fun w => w.core != core

/-- The first core whose lines of a context a barrier could not write back as it completes, with those lines. -/
def State.barRefused (s : State) (cores : List Nat) (ctx : Nat) : Option (Nat × (Nat × Nat × Cause) × List (Nat × Nat × Cause)) :=
  cores.findSome? fun c =>
    match (s.refusals c fun _ => true).filter fun e => e.2.1 == ctx with
    | x :: rest => some (c, x, rest)
    | [] => none

/-- The completion of a barrier of some kind at which groups of a team wait: what the groups that take part had written by then is
released, the slots go on, and every core acquires (09 R174). A write-back of the context that is refused then raises its cause against
a barrier word that waits, and the barrier does not complete (14 R259). -/
def State.barComplete (s : State) (t : Nat) (tm : Team) (k : BarKind) : State :=
  let ts := s.barTeams t tm k
  if tm.waitsAt k && s.barDone ts k then
    let cores := s.coresOf ts
    match (if 2 ≤ k.scope then s.barRefused cores tm.ctx else none) with
    | some (c, x, rest) => (s.barSlots ts k c).head?.elim s fun w => w.refuse s c (fun _ => true) x rest
    | none =>
      let s1 := if 2 ≤ k.scope then cores.foldl (fun s' c => s'.wbCore c) s else s
      cores.foldl (fun s' c => s'.acquire c k.scope) (ts.foldl (fun s' t => s'.barRelease k t) s1)
  else s

/-- BARRIER_COMPLETE (02 R46). -/
def execBarrierComplete (team : Nat) (s : State) : Host.Outcome State Fault Refusal :=
  match s.teams.find? team with
  | some tm => .next ([BarKind.bar, .cbar, .nbar].foldl (fun s' k => s'.barComplete team tm k) s)
  | none => .next s

/-! ### Counted barrier objects (11 R226 to R228) -/

/-- The fields of an object (11 Table 11-7). -/
structure BarObj where
  inv : Bool
  err : Bool
  pend : Nat
  phase : Bool
  expect : Nat
  arrived : Nat
  deriving DecidableEq, Repr

def BarObj.ofWord (x : W64) : BarObj :=
  ⟨x.getLsbD 63, x.getLsbD 62, (x.extractLsb' 49 13).toNat, x.getLsbD 48, (x.extractLsb' 16 16).toNat,
    (x.extractLsb' 0 16).toNat⟩

def BarObj.word (o : BarObj) : W64 :=
  BitVec.ofNat 64 (o.inv.toNat * 2 ^ 63 + o.err.toNat * 2 ^ 62 + o.pend % 2 ^ 13 * 2 ^ 49 + o.phase.toNat * 2 ^ 48 +
    o.expect % 2 ^ 16 * 2 ^ 16 + o.arrived % 2 ^ 16)

/-- The object at an offset of a team's pad: free once an STS or ATOMS has written to it (11 R226, log entry 25). -/
def State.object (s : State) (team a : Nat) : BarObj :=
  let spoiled := (s.teams.find? team).elim false fun t => (t.objects.find? (a / 8)).elim false (·.spoiled)
  if spoiled then BarObj.ofWord (BitVec.ofNat 64 (Config.freeNat s.tick (2 ^ 20 + a)))
  else BarObj.ofWord (BitVec.ofNat 64 (bytesToNat (s.padRead team a 8)))

/-- An object replaced. -/
def State.setObject (s : State) (team a : Nat) (o : BarObj) (by_ : Writer) : State :=
  (s.padWrite team a (natToBytes 8 o.word.toNat) by_).updTeam team fun t =>
    { t with objects := t.objects.put (a / 8) ⟨true, false⟩ }

/-- An arrival of n: the object, and whether a phase completed (11 R227). -/
def BarObj.arrive (o : BarObj) (n : Nat) : BarObj × Bool :=
  let x := o.arrived + n
  if o.expect = 0 then ({ o with arrived := x % 2 ^ 16 }, false)
  else ({ o with arrived := x % o.expect, phase := o.phase ^^ (x / o.expect % 2 == 1) }, o.expect ≤ x)

/-- A slot waits on an object. -/
def Group.bwaits (g : Group) (b : Bool) (a : Nat) : Bool :=
  match g.wait b with
  | some (.bwait x _ _) => x == a
  | _ => false

/-- The Sluice contexts of a team that wait on an object. -/
def State.slWaiters (s : State) (team a : Nat) : List (Nat × Nat) :=
  match s.teams.find? team with
  | some tm =>
    ([0, 1, 2, 3].filter fun n =>
      let c := (s.core tm.core).sl n
      (match c.owner with | .team t _ => t == team | _ => false) &&
      (match c.wait with | some (.barrier x _) => x == a | _ => false)).map fun n => (tm.core, n)
  | none => []

/-- Whether anything waits on an object. -/
def State.hasWaiters (s : State) (team a : Nat) : Bool :=
  (match s.teams.find? team with
    | some tm => tm.groups.any fun g => g.bwaits false a || g.bwaits true a
    | none => false) || !(s.slWaiters team a).isEmpty

/-- The predicate of a wait, written in every lane of the slot as the word ends (20 R321). -/
def State.endBwait (s : State) (t n : Nat) (b ok : Bool) : State :=
  match s.siteAt t n b with
  | some w =>
    match w.g.wait b with
    | some (.bwait _ _ p) => s.finish t n b fun g => ({ w with g := g } : Site).wrPred (BitVec.ofNat 3 p) ok
    | _ => s
  | none => s

/-- Every BWAIT on an object returns (20 R328, R334). -/
def State.wakeGroups (s : State) (team a : Nat) (ok : Bool) : State :=
  match s.teams.find? team with
  | some tm =>
    (List.range tm.groups.length).foldl (fun s' n =>
      [false, true].foldl (fun x b =>
        match x.group? team n with
        | some g => if g.bwaits b a then x.endBwait team n b ok else x
        | none => x) s') s
  | none => s

/-- Every waiter on an object wakes: with the phase flipped, or invalidated, a Sluice context then with a fault at its offset in the own
window (11 R227, Table 11-8, log entry 118). -/
def State.wake (s : State) (team a : Nat) (inv : Bool) : State :=
  (s.slWaiters team a).foldl (fun s' x =>
    if inv then s'.slFault x.1 x.2 .barrierInvalid ((s'.core x.1).sl x.2).pc (BitVec.ofNat 64 a)
    else s'.updSl x.1 x.2 fun c => { c.advance with wait := none }) (s.wakeGroups team a (!inv))

/-- An arrival on an object that is not invalid, with `posted` when it takes down PEND (11 R227). -/
def State.arriveOn (s : State) (team a n : Nat) (posted : Bool) (by_ : Writer) : State :=
  let (o, done) := (s.object team a).arrive n
  let s1 := s.setObject team a { o with pend := if posted then o.pend - 1 else o.pend } by_
  if done then s1.wake team a false else s1

/-- The object that a counted barrier word names: its offset in the team's own pad, or the failure (20 R322). -/
def Site.objAt (w : Site) (s : State) (a : BitVec 8) : Except Bad Nat :=
  let x := w.g.r.rdS a.toNat
  match w.padPhys s 8 x with
  | .error e => .error e
  | .ok (team, off) => if team == w.team then .ok off else .error (.xlateNp, x.setWidth 64)

/-- The meaning of a counted barrier word on its object (20 R322). -/
def Site.onObject (w : Site) (s : State) (a : BitVec 8) (f : Nat → State) : State :=
  match w.objAt s a with
  | .error (c, x) => w.fault s c x
  | .ok off => if s.padAbsent w.team off 8 then w.await s (.absent [(w.team, off / 128)]) else f off

/-- BARV (20 R323). -/
def execBarv (f : BarvF) (s : State) := onMem s fun w =>
  w.onObject s f.a fun off =>
    let s1 := w.commit s w.g.r
    if (s.object w.team off).inv then s1 else s1.arriveOn w.team off f.n.toNat false w.writer

/-- BINIT (20 R327, 11 R227). -/
def execBinit (f : BinitF) (s : State) := onMem s fun w =>
  w.onObject s f.a fun off =>
    let expect := (w.g.r.rdS f.b.toNat).toNat % 2 ^ 16
    if s.hasWaiters w.team off || (s.object w.team off).pend != 0 then w.commit s (w.wrPred f.p false)
    else if expect = 0 then w.fault s .illegal 0
    else
      (w.commit s (w.wrPred f.p true)).setObject w.team off ⟨false, false, 0, false, expect, 0⟩ w.writer

/-- BINV (20 R328). -/
def execBinv (f : SReg) (s : State) := onMem s fun w =>
  w.onObject s f.a fun off =>
    let o := s.object w.team off
    let s1 := w.commit s w.g.r
    if o.inv then s1 else (s1.setObject w.team off { o with inv := true } w.writer).wake w.team off true

/-- BWAIT (20 R334). -/
def execBwait (f : BwaitF) (s : State) := onMem s fun w =>
  w.onObject s f.a fun off =>
    let o := s.object w.team off
    if o.inv || o.phase != f.ph then
      w.commit (s.setObject w.team off o w.writer) (w.wrPred f.p (!o.inv))
    else w.awaitIssued (s.setObject w.team off o w.writer) (.bwait off f.ph f.p.toNat)

/-! ### Fences -/

/-- The window that a FENCE.SPEC opens (08 R165): 16 words, at the boundary after the fence. -/
def Group.openWindow (g : Group) (b : Bool) (sc : Scope) (clipped : Bool) : Group :=
  { g with spec := some ⟨b, sc, clipped, g.r, g.pend, [], [], [], [], [], 16, false, false, false⟩ }

/-- The slot has executed a fence at a scope code: a later ordered write of it releases at that scope, and one at device scope or wider
has acquired what its relaxed reads found (08 R161, R164). -/
def Group.fenced (g : Group) (b : Bool) (sc : Nat) : Group :=
  let x := if holderScope sc then sc else 0
  let g1 := if 3 ≤ sc then g.setHeld b [] else g
  if b then { g1 with fence1 := x } else { g1 with fence0 := x }

/-- FENCE (21 R356, 08 R160, R165): the release acts at once; the acquire too, or at the end of the window, once the lines that earlier
relaxed reads of the slot found held by another core are promoted (08 R161, R164). -/
def execFence (f : FenceF) (s : State) := onMem s fun w =>
  let sc := w.scopeRun s f.scope
  if w.fenceWaits s sc then s
  else
    match w.releaseAt s sc with
    | .error e => e
    | .ok s1 =>
      if f.spec then
        let clip := w.clipped s f.scope
        w.upd (w.commit s1 (if clip then { w.g.r with gstat := w.g.r.gstat ||| 1 } else w.g.r)) fun g =>
          (g.openWindow w.slot f.scope clip).fenced w.slot sc
      else w.clip s (w.upd (w.commit (s1.acquire w.core sc) w.g.r) fun g => g.fenced w.slot sc) f.scope

/-- The paths of a mask of 08 Table 8-8. -/
def pathsOf (m : BitVec 8) : List Path := allPaths.filter fun p => m.getLsbD p.code

/-- XFENCE (23 R442, 08 R168). No engine keeps staged read data between its words. -/
def execXfence (f : XfenceF) (s : State) := onMem s fun w =>
  match (if f.src.getLsbD 0 then w.writeBack s (fun _ => true) true else .ok s) with
  | .error e => e
  | .ok s1 =>
    match s1.needHost ((pathsOf f.src).flatMap fun p => s1.drainLines p fun _ => true) [w.act] with
    | some s2 => s2
    | none =>
      let s2 := (pathsOf f.src).foldl (fun s' p => s'.drainPath p fun _ => true) s1
      w.commit (if f.dst.getLsbD 0 then s2.invCore w.core else s2) w.g.r

/-! ### Signals (23 R410 to R412) -/

/-- A signal operation at the home of its address, for a core (23 R411). -/
def State.signalAt (s : State) (core ctx : Nat) (ph : Phys) (op : SigKind) (b : W64) (by_ : Writer) : State :=
  let s1 := (s.l2Access (s.tenantOf ctx) ph).atomPrepare core ph
  let old : W64 := BitVec.ofNat 64 (bytesToNat (readBytes (s1.homeByte ph.key) ph.pa 8))
  s1.landBytes ph (natToBytes 8 (sigNew op old b).toNat) by_

/-- The scope of a signal word. -/
def sigScope (sys : Bool) : Scope := if sys then .sys else .dev

/-- SIGOP (23 R410 to R412). -/
def execSigop (f : SigopF) (s : State) := onMem s fun w =>
  let va := w.g.r.rdS64 f.a.toNat
  let b := w.g.r.rdS64 f.b.toNat
  match w.devPhys s .write 8 va with
  | .error (c, x) => w.fault s c x
  | .ok ph =>
    match s.collapseWait w.ctx w.act [ph] with
    | some s1 => s1
    | none =>
      let sc := w.scopeRun s (sigScope f.sys)
      match s.needHost ((if ph.host then [] else [lineOf ph.pa]) ++ s.releaseLines w.core sc) [w.act] with
      | some s1 => s1
      | none =>
        match w.releaseAt s sc with
        | .error e => e
        | .ok s1 =>
          if ph.host then w.awaitIssued s1 (.hostSignal f.op va ph.pa b f.sys)
          else w.clip s (w.commit (s1.signalAt w.core w.ctx ph f.op b w.writer) w.g.r) (sigScope f.sys)

end Sys2Proof.Machine
end

