-- ==== Sys2Proof/Machine/CoreEvents.lean ====
section
/-! DEFINITION. The steps of cores, caches and translation that no word encodes: results that land, waits that end, buffers
that drain, walks, replicas and collapses. A step whose occasion has not come changes nothing (log entry 6). -/

namespace Sys2Proof.Machine

/-! ### Outstanding results -/

/-- An outstanding word of a group changed, in the group and in what its window would restore. -/
def Group.updPend (g : Group) (id : Nat) (f : Pending → Pending) : Group :=
  let go := fun (p : Pending) => if p.id = id then f p else p
  { g with
    pend := g.pend.map go
    spec := g.spec.map fun win => { win with savedPend := win.savedPend.map go } }

/-- An outstanding word of a group. -/
def Group.pending? (g : Group) (id : Nat) : Option Pending := g.pend.find? fun p => p.id == id

/-- The first outstanding word of a slot that satisfies a test. -/
def Group.pendOf? (g : Group) (b : Bool) (test : PendKind → Bool) : Option Pending :=
  g.pend.find? fun p => p.slot == b && test p.kind

/-- A word after its result has landed: its window stays open for the words that are left (04 R80). -/
def Pending.land (p : Pending) : Pending := { p with kind := .landed, writes := [], entries := 0 }

/-- The group after a result has landed. -/
def Group.land (g : Group) (p : Pending) : Group :=
  { g with
    r := g.r.applyWrites p.writes
    pend := (g.pend.map fun q => if q.id = p.id then q.land else q).filter fun q => !q.spent }

/-- LONG_LATENCY_RESULT (04 R80). -/
def execLongLatencyResult (team grp id : Nat) (s : State) : Host.Outcome State Fault Refusal :=
  match (s.group? team grp).bind fun g => g.pending? id with
  | some p =>
    if p.kind == .value then .next ((s.updGroup team grp fun g => g.land p).settleEnd team grp) else .next s
  | none => .next s

/-! ### Rejection (08 R153, R154) -/

/-- REJECTED_REISSUE (08 R153, R154): aged requests first, the oldest first. -/
def execRejectedReissue (team grp : Nat) (slot : Bool) (s : State) : Host.Outcome State Fault Refusal :=
  match s.siteAt team grp slot with
  | some w =>
    match w.g.wait slot with
    | some (.rejected since aged) =>
      if s.entriesUsed w.core < 8192 && (s.agedSince (· == w.core)).all (fun t => aged && since ≤ t) then
        .next (w.await s (.granted since aged))
      else .next s
    | _ => .next s
  | none => .next s

/-- REQUEST_AGED (08 R154). -/
def execRequestAged (team grp : Nat) (slot : Bool) (s : State) : Host.Outcome State Fault Refusal :=
  match s.siteAt team grp slot with
  | some w =>
    match w.g.wait slot with
    | some (.rejected since false) =>
      if 256 ≤ s.clk - since then .next (w.await s (.rejected since true)) else .next s
    | _ => .next s
  | none => .next s

/-! ### Presence bits, rendezvous and item queues -/

/-- PRESENCE_BIT_SET (08 R148): every transfer that cleared the bit has landed. -/
def execPresenceBitSet (team line : Nat) (s : State) : Host.Outcome State Fault Refusal :=
  .next (s.updTeam team fun t => if t.absent.find? line = some 0 then { t with absent := t.absent.erase line } else t)

/-- The groups of a team issue. -/
def Team.issues (t : Team) : Bool :=
  match t.phase with
  | .running | .stopping _ => true
  | _ => false

/-- The waiter of a rendezvous slot whose turn has come: the first receiver of a full slot, the first sender of an empty
one (02 R45). -/
def RdvSlot.turn? (x : RdvSlot) : Option RdvWaiter := x.waiters.find? fun y => y.isSend != x.full

/-- RENDEZVOUS_SERVE (02 R45, 23 R445). -/
def execRendezvousServe (team slotNo : Nat) (s : State) : Host.Outcome State Fault Refusal :=
  match s.teams.find? team with
  | none => .next s
  | some tm =>
    let x := tm.rdvSlot slotNo
    if !tm.issues then .next s
    else
      match x.turn? with
      | none => .next s
      | some y =>
        let rest := x.waiters.erase y
        match y with
        | .send grp b a =>
          match s.siteAt team grp b with
          | some w =>
            .next ((s.finish team grp b fun g => g.r).setRdv team slotNo ⟨true, w.g.r.whole a, rest⟩)
          | none => .next (s.setRdv team slotNo { x with waiters := rest })
        | .recv grp id =>
          .next ((s.updGroup team grp fun g => g.updPend id fun p =>
            match p.kind with
            | .recv _ d => { p with kind := .value, writes := wholeWrites d x.data }
            | _ => p).setRdv team slotNo ⟨false, [], rest⟩)

/-- ITEMQ_PUSH_SERVED (02 R42, 21 R366). -/
def execItemqPushServed (team : Nat) (s : State) : Host.Outcome State Fault Refusal :=
  match s.teams.find? team with
  | some tm =>
    match tm.itemWait with
    | p :: rest =>
      if tm.issues && tm.itemq.length + p.items.length ≤ itemLimit then
        .next ((s.finishCtl team p.grp p.slot).updTeam team fun t =>
          { t with itemq := t.itemq ++ p.items, itemWait := rest })
      else .next s
    | [] => .next s
  | none => .next s

/-! ### MWAIT (22 R378, R379) -/

/-- A fault of a word that issued earlier, at its address: the word is no longer outstanding. -/
def Site.faultLate (w : Site) (s : State) (c : Cause) (pc addr : W64) : State :=
  ((s.recordFault w.tm.nest (w.faultInfo s c pc addr 0)).haltTeam w.team).updGroup w.team w.grp fun g => g.fail pc

/-- The group without an outstanding word, which its window would not restore either. -/
def Group.dropPend (g : Group) (id : Nat) : Group :=
  { g with
    pend := g.pend.filter fun q => q.id != id
    spec := g.spec.map fun win => { win with savedPend := win.savedPend.filter fun q => q.id != id } }

/-- The monitor of a slot of a team that issues or halts, whose halt waits for it (04 R80), with the slot's site. -/
def State.monitor? (s : State) (team grp : Nat) (b : Bool) : Option (Site × Pending × Monitor) :=
  match s.teams.find? team with
  | some tm =>
    match tm.groups[grp]? with
    | some g =>
      match g.pendOf? b fun k => match k with | .monitor _ => true | _ => false with
      | some p => match p.kind with
        | .monitor m => if tm.issues || tm.phase == .halting then some (⟨team, grp, b, tm, g⟩, p, m) else none
        | _ => none
      | none => none
    | none => none
  | none => none

/-- The monitor reads again, by a translation of now (01 R26): a line held by another core is promoted first (08 R164), and then the
wait ends with an acquire at device scope, or the monitor goes on as `m'`. -/
def Site.monAgain (w : Site) (s : State) (p : Pending) (m m' : Monitor) : State :=
  match s.resolve w.core w.ctx .read m.addr.toNat with
  | .error c => w.faultLate (w.upd s fun g => g.dropPend p.id) c m.pc m.addr
  | .ok ph =>
    if s.heldElsewhere w.core [ph] then s
    else
      let (s1, v) := s.monRead w.core w.ctx ph (if m.ty.is64 then 8 else 4)
      match m.ends s.clk v with
      | some late =>
        (w.upd s1 fun g => g.updPend p.id fun p => { p with kind := .value, writes := m.writes v late }).acquire w.core 3
      | none =>
        w.upd s1 fun g => g.updPend p.id fun p => { p with kind := .monitor { m' with phys := ph.pa, key := ph.key, host := ph.host } }

/-- MWAIT_WAKE (22 R378): after a write to the line. -/
def execMwaitWake (team grp : Nat) (slot : Bool) (s : State) : Host.Outcome State Fault Refusal :=
  match s.monitor? team grp slot with
  | some (w, p, m) => if m.fired then .next (w.monAgain s p m { m with fired := false }) else .next s
  | none => .next s

/-- MWAIT_TIMEOUT (22 R378): the limit is reached, and the location is read once more. -/
def execMwaitTimeout (team grp : Nat) (slot : Bool) (s : State) : Host.Outcome State Fault Refusal :=
  match s.monitor? team grp slot with
  | some (w, p, m) =>
    if m.limit != 0xFFFFFFFF && m.limit.toNat ≤ s.clk - m.t0 then .next (w.monAgain s p m m) else .next s
  | none => .next s

/-- MWAIT_HOST_POLL (22 R378): the host window is read every 1,024 cycles. -/
def execMwaitHostPoll (team grp : Nat) (slot : Bool) (s : State) : Host.Outcome State Fault Refusal :=
  match s.monitor? team grp slot with
  | some (w, p, m) =>
    if m.host && 1024 ≤ s.clk - m.lastPoll then .next (w.monAgain s p m { m with lastPoll := s.clk }) else .next s
  | none => .next s

/-! ### Holders and ingress buffers -/

/-- HOLDER_PROMOTION (08 R164): the holder writes back every dirty line, and the holding ends. -/
def execHolderPromotion (line : Nat) (s : State) : Host.Outcome State Fault Refusal :=
  match s.m.holders.find? line with
  | some core =>
    let s1 := s.wbCore core
    .next { s1 with m := { s1.m with holders := s1.m.holders.erase line } }
  | none => .next s

/-- Path number p of 08 Table 8-8. -/
def pathOf (p : Nat) : Option Path := allPaths[p]?

/-- INGRESS_DRAIN (08 R167): the oldest write of a buffer leaves into the slice, once the host does not hold its line
(19 R300). -/
def execIngressDrain (basin slice path : Nat) (s : State) : Host.Outcome State Fault Refusal :=
  let k := 8 * basin + path
  let l := s.m.ingress.getD k []
  match l.find? fun e => e.slice == slice with
  | some e =>
    if path != Path.host.code && s.hostHolds e.line then .next (s.askHost [e.line] [.event (.ingressDrain basin slice path)])
    else .next ({ s with m := { s.m with ingress := s.m.ingress.put k (l.erase e) } }.leave e)
  | none => .next s

/-- DEFERRED_RELEASE_WB (14 R259): a line whose write-back is refused is replaced: it is discarded, and its owner faults. -/
def execDeferredReleaseWb (core line : Nat) (s : State) : Host.Outcome State Fault Refusal :=
  match s.refusals core fun k => keyLine k == line with
  | (k, _, _) :: _ => .next (s.evictL1 core k)
  | [] => .next s

/-! ### Speculative windows (08 R166) -/

/-- A held store performs. -/
def Site.performHeld (w : Site) (s : State) (h : HeldStore) : State :=
  match h.pad with
  | some team => (s.padWrite team h.addr h.data w.writer).spoil team h.addr h.data.length
  | none => s.coreStore w.core w.ctx ⟨h.addr, h.page, h.key, h.cp, h.host, false⟩ h.data w.writer

/-- The window of a group commits: its held stores in program order, and the AMAX updates. -/
def Site.commitWindow (w : Site) (s : State) (win : SpecWindow) : State :=
  let s1 := win.stores.foldl (fun s' h => w.performHeld s' h) (w.upd s Group.endWindow)
  win.amax.foldl (fun s' x => s'.amaxNest w.tm.nest x.slotNo x.mag x.inf x.bad) s1

/-- A held store would enter the crossbar as the window commits, and the connection matrix refuses it now (15 R266). -/
def HeldStore.refused (h : HeldStore) (s : State) (core : Nat) : Bool :=
  h.pad.isNone && !s.portAllows (corePort core) h.addr &&
  !(s.l1Line? core ⟨h.addr, h.page, h.key, h.cp, h.host, false⟩).isSome

/-- A window must roll back: a conflicting invalidation has hit a mark (08 R166), an AMAX register that it read has changed since, so
that its reads and updates have no place in the one order of the slot (05 R119, log entry 23), or a store that it holds is refused
and must raise PARTITION without speculation (15 R266, log entry 124). -/
def Site.mustRollBack (w : Site) (s : State) (win : SpecWindow) : Bool :=
  win.closed || win.conflict || (win.amaxRead.any fun x => s.amaxPair w.tm.nest x.1 != x.2) ||
  win.stores.any fun h => h.refused s w.core

/-- SPEC_WINDOW_COMMIT (08 R166): the fence completes with its acquire, which makes the host's writes perform at system scope, and its
window commits, or rolls back; nothing more is to be done of one that was rolled back before. The trap of a clipped fence rolls it back
as well, and is then taken (21 R356). -/
def execSpecWindowCommit (team grp : Nat) (s : State) : Host.Outcome State Fault Refusal :=
  match (s.group? team grp).bind (·.spec) with
  | none => .next s
  | some win0 =>
    match s.siteAt team grp win0.slot with
    | none => .next (s.updGroup team grp Group.endWindow)
    | some w0 =>
      let sc := if win0.clipped then 4 else win0.scope.code
      let traps := win0.clipped && (s.vdNow (s.ctx w0.ctx).vd).clipTrap
      let s1 := s.acquire w0.core sc
      match s1.siteAt team grp win0.slot with
      | none => .next s1
      | some w =>
        match w.g.spec with
        | none => .next s1
        | some win =>
          if traps || w.mustRollBack s1 win then
            let s2 := w.upd s1 fun g => g.rollback.endWindow
            match s2.siteAt team grp win.slot with
            | some w1 => if traps then .next (w1.trap s2 s2 ⟨.scopeClip, w1.pc - 8, 0, w1.pc, 0, 0⟩) else .next s2
            | none => .next s2
          else .next (w.commitWindow s1 win)

/-! ### Walks (01 R25) -/

/-- A table entry read through L2 at its home basin (01 R25, 15 R274). -/
def State.tableRead (s : State) (ctx a : Nat) : State :=
  s.l2Access (s.tenantOf ctx) ⟨a, 0, noKey, 1, placeOf a == .host, false⟩

/-- The step that missed is made again next, with the pages of it whose walks have failed; a page that the tables do not map then fails
for it (01 R25, log entry 11). -/
def State.again (s : State) (x : Walk) (failed : List Nat) : State :=
  if failed.isEmpty then s
  else { s with agenda := x.act :: s.agenda, m := { s.m with failed := some (x.core, x.ctx, failed, s.tick + 1) } }

/-- PAGE_WALK (01 R25): a walk that is under way ends, and its core's TLBs take what it found; a page that it did not find fails for
the step that missed. -/
def execPageWalk (core ctx page : Nat) (s : State) : Host.Outcome State Fault Refusal :=
  match (s.walksOf core).find? fun x => x.isOf core ctx page with
  | none => .next s
  | some x =>
    if coreCount ≤ core then .next s
    else
      let s1 : State := { s with m := { s.m with walks := s.m.walks.put (coreBasin core) ((s.walksOf core).erase x) } }
      let s2 := (s.walkReads (page * 4096) [4, 3, 2, 1] (s.ctx ctx).rootPa).foldl (fun s' a => s'.tableRead ctx a) s1
      match s.walkCtx (s.portAllows (corePort core)) ctx (page * 4096) with
      | .ok y => .next ((s2.fillTlb core (s.nearCopy (coreBasin core) (y.entry ctx page))).again x x.failed)
      | .error _ => .next (s2.again x (x.failed ++ [page]))

/-! ### Shootdowns (01 R26, 14 R258) -/

/-- The tables of a context still let it write a page. -/
def State.stillWrites (s : State) (ctx page : Nat) : Bool :=
  match s.walkCtx (fun _ => true) ctx (page * 4096) with
  | .ok l => l.w
  | .error _ => false

/-- Dirty lines of pages from which W has gone are marked (14 R258). -/
def State.markUnwritable (s : State) (ctx lo hi : Nat) : State :=
  { s with m := { s.m with l1 := s.m.l1.mapVals fun _ l => l.mapVals fun _ x =>
      if x.ctx == ctx && lo ≤ x.page && x.page < hi && x.dirty != 0 && !s.stillWrites ctx x.page then
        { x with unwritable := true }
      else x } }

/-- A monitor of a page of a range. -/
def Monitor.inRange (m : Monitor) (lo hi : Nat) : Bool := lo ≤ m.addr.toNat / 4096 && m.addr.toNat / 4096 < hi

/-- An armed monitor of a range reads again, by a new translation (01 R26); a poll of the host window translates anew each time. -/
def Pending.wakeRange (lo hi : Nat) (p : Pending) : Pending :=
  match p.kind with
  | .monitor m => if m.inRange lo hi && !m.host then { p with kind := .monitor { m with fired := true } } else p
  | _ => p

/-- The groups of a context after a shootdown of a range: its armed monitors there read again. -/
def State.wakeMonitors (s : State) (ctx lo hi : Nat) : State :=
  { s with teams := s.teams.mapVals fun _ tm =>
      if tm.ctx = ctx then
        { tm with groups := tm.groups.map fun g => { g with
            pend := g.pend.map (Pending.wakeRange lo hi)
            spec := g.spec.map fun win => { win with savedPend := win.savedPend.map (Pending.wakeRange lo hi) } } }
      else tm }

/-- A shootdown takes the cached translations of a range away, marks lines and has monitors read again. -/
def State.shoot (s : State) (ctx lo hi : Nat) : State := ((s.shootTlb ctx lo hi).markUnwritable ctx lo hi).wakeMonitors ctx lo hi

/-- A group has an access of a range under way that its slots go on with: stores of an open window, or a monitor that has not read
again. -/
def Group.usesRange (g : Group) (lo hi : Nat) : Bool :=
  (g.spec.elim false fun w => !w.stores.isEmpty) ||
  g.pend.any fun p => match p.kind with
    | .monitor m => m.fired && m.inRange lo hi
    | _ => false

/-- A group has a request at the host, which performs there whatever becomes of the group (09 R175). -/
def Group.atHost (g : Group) : Bool :=
  (g.pend.any fun p => match p.kind with
    | .host _ => true
    | _ => false) ||
  [g.w0, g.w1].any fun x => match x with
    | some (.hostSignal _ _ _ _ _) => true
    | _ => false

/-- Accesses of a context that used a translation of a range have not performed; those of a saved team begin again when it resumes. -/
def State.usesRange (s : State) (ctx lo hi : Nat) : Bool :=
  s.teams.any fun t => t.2.ctx == ctx && t.2.phase != .saved &&
    t.2.groups.any fun g => g.atHost || (t.2.issues && g.usesRange lo hi)

/-- The paths of the package itself. -/
def devicePaths : List Path := [.core, .sluice, .array, .cistern, .coll]

/-- Every write of the package leaves its buffer; the state that waits for the host is the error. -/
def State.performAll (s : State) (act : Action) : Except State State :=
  match s.needHost (devicePaths.flatMap fun p => s.drainLines p fun _ => true) [act] with
  | some s1 => .error s1
  | none => .ok (devicePaths.foldl (fun s' p => s'.drainPath p fun _ => true) s)

/-- The end of a shootdown of a range, once every access that used a translation of it has performed. -/
def State.endShoot (s : State) (ctx lo hi : Nat) (act : Action) (f : State → State) : State :=
  if s.usesRange ctx lo hi then s
  else
    match s.performAll act with
    | .error s1 => s1
    | .ok s1 => f (s1.shootTlb ctx lo hi)

/-! ### Replicated pages (01 R27, R28) -/

/-- Lines of frames copied to other frames under a key id. -/
def State.copyFrames (s : State) (key src dst pages : Nat) : State :=
  (List.range (32 * pages)).foldl (fun s' i =>
    let ph : Phys := ⟨4096 * src + 128 * i, 0, key, 1, false, false⟩
    s'.writeHome (32 * dst + i) key (BitVec.allOnes 128)
      (lineOfBytes 0 ((List.range 128).map fun k => s.homeByte key (ph.pa + k)))) s

/-- REPLICA_PLACEMENT (01 R27): a copy of a replicated page in another basin, at a frame of the pool that the driver reserves there,
once no write to the page is on its way (log entry 104). -/
def execReplicaPlacement (ctx page : Nat) (pool : PoolFrame) (s : State) : Host.Outcome State Fault Refusal :=
  let basin := pool.basin
  let frame := pool.frame
  match s.walkCtx (fun _ => true) ctx (page * 4096) with
  | .ok l =>
    let e := l.entry ctx page
    let writing := s.m.ingress.any fun b => b.2.any fun x => e.home ≤ x.line / 32 && x.line / 32 < e.home + e.pages
    let taken := s.m.replicas.any fun r => (r.basin == basin && r.ctx == ctx && r.vpage == e.page) ||
      (r.frame < frame + e.pages && frame < r.frame + r.pages)
    if e.repl && basin < 4 && basin != basinOf (e.home * 4096) && frame % e.pages == 0 &&
        frame / 2 ^ 31 == basin && (frame % 2 ^ 31 + e.pages) * 4096 ≤ lpddrSize && !writing && !taken &&
        !(s.m.collapses.any fun c => c.holds (4096 * e.home)) then
      match s.needHost ((List.range (32 * e.pages)).map fun i => 32 * frame + i) [.event (.replicaPlacement ctx page pool)] with
      | some s1 => .next s1
      | none =>
        let s1 := s.copyFrames e.key e.home frame e.pages
        .next { s1 with m := { s1.m with replicas := s1.m.replicas ++ [⟨ctx, e.page, e.pages, e.home, basin, frame⟩] } }
    else .next s
  | .error _ => .next s

/-- The address and level of the leaf entry of a page, as firmware finds it. -/
def State.leafEntry (s : State) (va : Nat) : List Nat → Nat → Option (Nat × Nat)
  | [], _ => none
  | level :: rest, table =>
    let at_ := entryAddr va level table
    let e : W64 := BitVec.ofNat 64 (s.m.homeNat at_ 8)
    if !pteV e then none
    else if pteLeaf e then some (at_, level)
    else s.leafEntry va rest (pteFrame e * 4096)

/-- REPL cleared in the entry at an address. -/
def State.clearRepl (s : State) (at_ : Nat) : State :=
  let e := s.m.homeNat at_ 1
  s.land (lineOf at_) noKey (byteMask (at_ % 128) 1) (lineOfBytes (at_ % 128) [BitVec.ofNat 8 e &&& 0xF7]) none

/-- The table entries in which a collapse clears REPL: the leaf, or the 16 of a 64 KiB page. -/
def State.replEntries (s : State) (c : Collapse) : List Nat :=
  match s.leafEntry (c.page * 4096) [4, 3, 2, 1] (s.ctx c.ctx).rootPa with
  | none => []
  | some (at_, level) =>
    if level == 1 && pteC64 (BitVec.ofNat 64 (s.m.homeNat at_ 8)) then
      (List.range 16).map fun i => at_ / 128 * 128 + 8 * i
    else [at_]

/-- COLLAPSE_EVENT (01 R28, steps 1 to 4): REPL is cleared in the entry, the page is shot down, and its replicas return to their
pools. Writes to the page wait until COLLAPSE_RELEASE. -/
def execCollapseEvent (ctx page : Nat) (s : State) : Host.Outcome State Fault Refusal :=
  match s.m.collapses.find? fun c => c.ctx == ctx && c.page == page && !c.cleared with
  | none => .next s
  | some c =>
    let l := s.replEntries c
    match s.needHost (l.map lineOf) [.event (.collapseEvent ctx page)] with
    | some s1 => .next s1
    | none =>
      let s1 := (l.foldl State.clearRepl s).shoot ctx c.page (c.page + c.pages)
      .next { s1 with m := { s1.m with
        replicas := s1.m.replicas.filter fun r => !(r.ctx == ctx && c.page ≤ r.vpage && r.vpage < c.page + c.pages)
        collapses := s1.m.collapses.map fun x => if x = c then { c with cleared := true } else x } }

/-- The TLBs of the core whose slot waited take the new translation of a page. -/
def State.refill (s : State) (ctx page : Nat) (a : Action) : State :=
  match a with
  | .issue (.grp t _ _) =>
    match s.teams.find? t with
    | some tm =>
      if tm.ctx = ctx && (s.tlb? tm.core ctx page).isNone then
        match s.walkCtx (s.portAllows (corePort tm.core)) ctx (page * 4096) with
        | .ok x => s.fillTlb tm.core (x.entry ctx page)
        | .error _ => s
      else s
    | none => s
  | _ => s

/-- COLLAPSE_RELEASE (01 R28, step 5): the shootdown has completed, and the held writes go on in their order of arrival. -/
def execCollapseRelease (ctx page : Nat) (s : State) : Host.Outcome State Fault Refusal :=
  match s.m.collapses.find? fun c => c.ctx == ctx && c.page == page && c.cleared with
  | none => .next s
  | some c =>
    .next (s.endShoot ctx c.page (c.page + c.pages) (.event (.collapseRelease ctx page)) fun s1 =>
      let s2 := c.waiters.foldl (fun s' a => s'.refill ctx c.page a) s1
      { s2 with
        agenda := c.waiters ++ s2.agenda
        m := { s2.m with collapses := s2.m.collapses.filter fun x => x != c } })

/-! ### Traps that waited (14 R254, R255) -/

/-- The trap of a slot that waits. -/
def TrapRegs.pend? (t : TrapRegs) (b : Bool) : Option TrapReq := if b then t.pend1 else t.pend0

/-- The group with no trap of a slot waiting. -/
def Group.takePend (g : Group) (b : Bool) : Group :=
  { g with t := if b then { g.t with pend1 := none } else { g.t with pend0 := none } }

/-- TRAP_ENTRY (14 R254, R255): every result of the group is written and no handler runs; an open window rolls back first
(08 R166), and its fence completes before the slot goes on. The trap of S0 comes before that of S1. -/
def execTrapEntry (team grp : Nat) (slot : Bool) (s : State) : Host.Outcome State Fault Refusal :=
  match s.siteAt team grp slot with
  | some w =>
    match w.g.t.pend? slot with
    | some req =>
      if (slot && w.g.t.pend0.isSome) || w.g.t.inh || !w.tm.issues then .next s
      else if w.g.spec.isSome then .next (w.upd s Group.rollback)
      else if !w.g.noneOut then .next s
      else .next (w.enterTrap (w.upd s fun g => g.takePend slot) req)
    | none => .next s
  | none => .next s

/-! ### The host's answers to words (09 R173, 23 R411) -/

/-- The host has performed the request of an atomic: the next lanes follow, or the word's results are known. -/
def State.hostAtomOk (s : State) (team grp : Nat) (tm : Team) (p : Pending) (h : HostAtomic) (by_ : Writer) : State :=
  let old := bytesToNat (readBytes (s.homeByte h.cur.key) h.cur.phys h.bytes)
  let s1 := s.landBytes h.cur.ph (natToBytes h.bytes (atomNew h.op h.bytes old h.cur.operand h.cur.compare)) by_
  let (s2, ws, rest) := State.runAtoms tm.core tm.ctx by_ h.op h.bytes h.d h.rest s1
  let writes := p.writes ++ loadWrites false h.d h.bytes h.cur.lane (natToBytes h.bytes old) ++ ws
  match rest with
  | x :: more =>
    s2.updGroup team grp fun g => g.updPend p.id fun p =>
      { p with kind := .host { h with cur := x, rest := more }, writes := writes }
  | [] =>
    let s3 := s2.updGroup team grp fun g => g.updPend p.id fun p => { p with kind := .value, writes := writes }
    match h.acquire with
    | some sc => s3.acquire tm.core sc
    | none => s3

/-- The host has refused the request of an atomic: ATOM_UNSUP, and no register is written. -/
def State.hostAtomBad (s : State) (team grp : Nat) (slot : Bool) (tm : Team) (g : Group) (p : Pending) (h : HostAtomic) :
    State :=
  let s1 := s.updGroup team grp fun g => g.dropPend p.id
  Site.faultLate ⟨team, grp, slot, tm, g⟩ s1 .atomUnsup h.pc h.cur.va

/-- The lines that the package writes for the lanes of an atomic that follow the one at the host. -/
def HostAtomic.lines (h : HostAtomic) : List Nat := (h.rest.takeWhile fun x => !x.ph.host).map fun x => lineOf x.phys

/-- HOST_ATOMIC_COMPLETION (09 R173, 23 R411): the host answers the request of an ATOM or of a SIGOP. -/
def execHostAtomicCompletion (team grp : Nat) (slot ok : Bool) (s : State) : Host.Outcome State Fault Refusal :=
  match s.teams.find? team with
  | none => .next s
  | some tm =>
    match tm.groups[grp]? with
    | none => .next s
    | some g =>
      match g.pendOf? slot fun k => match k with | .host _ => true | _ => false with
      | some p =>
        match p.kind with
        | .host h =>
          if ok then
            match s.needHost h.lines [.event (.hostAtomicCompletion team grp slot ok)] with
            | some s1 => .next s1
            | none => .next (s.hostAtomOk team grp tm p h (some (team, grp, slot)))
          else .next (s.hostAtomBad team grp slot tm g p h)
        | _ => .next s
      | none =>
        match s.siteAt team grp slot, g.wait slot with
        | some w, some (.hostSignal op va pa b sys) =>
          if ok then
            let old : W64 := BitVec.ofNat 64 (bytesToNat (readBytes s.m.home pa 8))
            let s1 := s.landBytes ⟨pa, 0, 0, 3, true, false⟩ (natToBytes 8 (sigNew op old b).toNat) w.writer
            let s2 := s1.finish team grp slot fun g => if w.clipped s (sigScope sys) then { g.r with gstat := g.r.gstat ||| 1 } else g.r
            .next (w.clip s s2 (sigScope sys))
          else .next (w.faultLate s .atomUnsup w.pc va)
        | _, _ => .next s

end Sys2Proof.Machine
end

