-- ==== Sys2Proof/Machine/Bulk.lean ====
section
/-! DEFINITION. Reads and writes of more than one line: the pieces of a range of addresses, their translation with a given
translator, and the bytes that a path reads and writes (08 R167, 15 R265). -/

namespace Sys2Proof.Machine

/-- The pieces of the n bytes from an address, cut at lines of 128 bytes: address and length, at most `fuel` of them. -/
def pieces : (fuel a n : Nat) → List (Nat × Nat)
  | 0, _, _ => []
  | fuel + 1, a, n =>
    if n = 0 then []
    else
      let k := min n (128 - a % 128)
      (a, k) :: pieces fuel (a + k) (n - k)

/-- The pieces of a range. -/
def piecesOf (a n : Nat) : List (Nat × Nat) := pieces (n / 128 + 2) a n

/-- The pieces of a range translated in ascending order, or the first failure with its address. -/
def resolvePieces (tr : Nat → Except Cause Phys) : List (Nat × Nat) → Except Bad (List (Phys × Nat))
  | [] => .ok []
  | (a, k) :: rest =>
    match tr a with
    | .error c => .error (c, BitVec.ofNat 64 a)
    | .ok ph =>
      match resolvePieces tr rest with
      | .error e => .error e
      | .ok l => .ok ((ph, k) :: l)

/-- A range translated for a core and context. -/
def State.range (s : State) (core ctx : Nat) (mode : Mode) (a n : Nat) : Except Bad (List (Phys × Nat)) :=
  resolvePieces (fun x => s.resolve core ctx mode x) (piecesOf a n)

/-- A range translated for the driver or Fountainhead. -/
def State.rangeFw (s : State) (ctx : Nat) (mode : Mode) (a n : Nat) : Except Bad (List (Phys × Nat)) :=
  resolvePieces (fun x => s.resolveFw ctx mode x) (piecesOf a n)

/-- The bytes of translated pieces as a path reads them. -/
def State.readPieces (s : State) (p : Path) (l : List (Phys × Nat)) : List Byte := l.flatMap fun x => s.readPath p x.1 x.2

/-- The accesses of a tenant at the slices of translated pieces. -/
def State.touch (s : State) (ctx : Nat) (l : List (Phys × Nat)) : State :=
  l.foldl (fun s' x => s'.l2Access (s'.tenantOf ctx) x.1) s

/-- Bytes written to translated pieces through a path. -/
def State.writePieces (s : State) (p : Path) (ctx : Nat) (engine : Option Nat) (l : List (Phys × Nat)) (b : List Byte) :
    State :=
  (l.foldl (fun (st : State × List Byte) x =>
    (st.1.pathStore p ctx x.1 (st.2.take x.2) engine, st.2.drop x.2)) (s, b)).1

/-- A fault that an engine or the array finds after its word has issued: it names the word and its group and is not precise
(10 R386, 12 R235). `info` is what TINFO of its record holds (14 Table 14-2). -/
def State.engineFault (s : State) (team grp : Nat) (c : Cause) (pc addr : W64) (info : W32) : State :=
  match s.teams.find? team with
  | some tm =>
    match tm.groups[grp]? with
    | some g =>
      let w : Site := ⟨team, grp, false, tm, g⟩
      ((s.recordFault tm.nest { w.faultInfo s c pc addr 0 with precise := false, nested := false, tinfo := info }).haltTeam
        team).updGroup team grp fun g => g.fail pc
    | none => s
  | none => s

end Sys2Proof.Machine
end

