-- ==== Sys2Proof/Machine/ConvWords.lean ====
section
/-! DEFINITION. The meanings of the conversion words and of FMODE and SEED (20 R309, R340 to R343, 21 R357, 22 R395, R407,
23 R439). -/

namespace Sys2Proof.Machine

/-- The descriptor word of a format slot of the nest (03 R60). -/
def State.fslotWord (s : State) (nest n : Nat) : W32 := (s.nests.find? nest).elim 0 (·.fslots.getD n 0)

/-- A format slot of the nest of the issuing group. -/
def Site.fslot (w : Site) (s : State) (n : BitVec 3) : FmtSlot := FmtSlot.ofWord (s.fslotWord w.tm.nest n.toNat)

/-- The formats that CVTQ and CVTD accept (05 Table 5-2). -/
def blockAccepts (c : Nat) : Bool := 8 ≤ c && c ≤ 11
/-- The formats that PACK and UNPK accept (05 Table 5-2). -/
def narrowAccepts (c : Nat) : Bool := (1 ≤ c && c ≤ 7) || c == 12

/-- The AMAX update of a conversion through a slot, when the slot has AMAXEN and an element was converted (05 R117). -/
def Site.amaxFor (w : Site) (s : State) (n : BitVec 3) (vs : List FVal) : State :=
  if (w.fslot s n).amaxEn && !vs.isEmpty then
    w.amax s n.toNat (some (BitVec.ofNat 32 (amaxOf vs))) (amaxOf vs == fmtF32.infBits false) 0
  else s

/-- AMAX and AMAXST of a format slot as a word of the group reads them: the updates that its window holds come after those of the
nest (08 R166). -/
def Site.amaxSeen (w : Site) (s : State) (n : Nat) : W32 × W32 :=
  let held := (w.g.spec.elim [] (·.amax)).filter fun u => u.slotNo == n
  held.foldl (fun r u => amaxMerge r.1 r.2 u.mag u.inf u.bad) (s.amaxPair w.tm.nest n)

/-- What an AMAXRD of an open window found is noted, so that the window commits only where it still holds, and all its reads and
updates of the slot then come together in the one order of the slot (05 R119, log entry 23). -/
def Site.noteAmax (w : Site) (s : State) (n : Nat) : State :=
  if w.g.spec.isSome then
    w.upd s fun g => { g with spec := g.spec.map fun win =>
      { win with amaxRead := win.amaxRead ++ [(n, s.amaxPair w.tm.nest n)] } }
  else s

/-- AMAXRD (20 R309, R310). -/
def execAmaxrd (f : AmaxrdF) (s : State) := onSite s fun w =>
  let n := f.slot.toNat
  let x := w.amaxSeen s n
  let r := (w.g.r.wrS f.d.toNat x.1).wrS (f.d.toNat + 1) x.2
  let s1 := w.noteAmax (w.commit s r) n
  if f.clr then
    s1.updNest w.tm.nest fun x =>
      { x with amax := listUpd (fun _ => 0) n x.amax, amaxst := listUpd (fun _ => 0) n x.amaxst }
  else s1

/-- CVT (20 R340, R341). -/
def execCvt (f : CvtF) (s : State) := onSite s fun w =>
  w.rounded s f.g f.uni f.d (w.mode.sel f.rm) 1 fun L r =>
    cvtValue f.dst f.sat (w.mode.sel f.rm) w.mode.ftz r (f.src.value w.mode.daz (w.val32 f.uni f.a L))

/-- Element bits of a block format code in a register (20 R342). -/
def blockBits (fmt : Nat) (x : W32) : Nat := x.toNat % 2 ^ fmtWidth fmt

/-- CVTD (20 R342). -/
def execCvtd (f : CvtdF) (s : State) := onSite s fun w =>
  let sl := w.fslot s f.slot
  if !blockAccepts sl.fmt then w.fault s .illegal 0
  else
    let scale := (w.val32 f.bu f.b 0).toNat % 256
    let rs := (w.lanes f.g).map fun L =>
      (L, dequant sl w.mode.ftz (w.g.r.draw L) scale (blockBits sl.fmt (w.val32 false f.a L)))
    let r1 := rs.foldl (fun r x => r.wrV f.d.toNat x.1 (BitVec.ofNat 32 x.2.bits)) w.g.r
    let r2 := if sl.rm == .sr then r1.stepLfsr 1 (w.lanes f.g) else r1
    let bad := ((w.lanes f.g).filter fun L => blockBits sl.fmt (w.val32 false f.a L) == 2).length
    let s1 := w.commit s r2
    let s2 := if sl.fmt == 11 then w.amax s1 f.slot.toNat none false bad else s1
    w.reportNan s s2 (rs.any (·.2.nanOut)) false

/-- CVTQ (05 R116, 20 R343). -/
def execCvtq (f : CvtqF) (s : State) := onSite s fun w =>
  let sl := w.fslot s f.slot
  if !blockAccepts sl.fmt then w.fault s .illegal 0
  else
    let xs := allLanes.map fun L =>
      if (w.active f.g).getLsbD L then w.mode.rd (w.val32 false f.a L) else .fin false 0 0 false
    let scale := blockScale sl.fmt xs
    let nan := xs.any FVal.isNan
    let q : Nat → W32 := fun L =>
      if nan then 0
      else BitVec.ofNat 32
        (slotConvert sl w.mode.ftz (w.g.r.draw L) ((xs.getD L .nan).scale (127 - (scale : Int)))).bits
    let r1 := (w.g.r.wrLanes f.d.toNat (w.lanes f.g) q).wrV f.c.toNat 0 (BitVec.ofNat 32 scale)
    let r2 := if sl.rm == .sr then r1.stepLfsr 1 (w.lanes f.g) else r1
    w.reportNan s (w.amaxFor (w.commit s r2) f.slot xs) nan false

/-- FMODE (21 R357). -/
def execFmode (f : FmodeF) (s : State) := onSite s fun w =>
  let m := match f with
    | .imm m => m.setWidth 32
    | .reg a => w.g.r.rdS a.toNat
  if fpmOk m then w.commit s { w.g.r with fpm := m } else w.fault s .illegal 0

/-- A word with w bits replaced at element i (05 R104). -/
def putElem (x : W32) (w i e : Nat) : W32 :=
  (x &&& ~~~(BitVec.ofNat 32 ((2 ^ w - 1) * 2 ^ (w * i)))) ||| BitVec.ofNat 32 (e % 2 ^ w * 2 ^ (w * i))

/-- One element of PACK: its input pattern and draw (22 R395). -/
def packElem (sl : FmtSlot) (m : FpMode) (r x : W32) : FRes :=
  if sl.fmt = 12 then slotE8M0 sl.sat m.daz x else slotConvert sl m.ftz r (m.rd x)

/-- PACK (22 R395). -/
def execPack (f : PackF) (s : State) := onSite s fun w =>
  let sl := w.fslot s f.slot
  let wd := fmtWidth sl.fmt
  let pos := f.pos.toNat
  if !narrowAccepts sl.fmt || 16 / wd ≤ pos then w.fault s .illegal 0
  else
    let rs := (w.lanes f.g).map fun L =>
      let r := w.g.r.draw L
      (L, packElem sl w.mode r (w.val32 false f.a L), packElem sl w.mode (lfsrStep r) (w.val32 f.bu f.b L))
    let r1 := rs.foldl (fun r x => r.wrV f.d.toNat x.1
      (putElem (putElem (w.val32 false f.d x.1) wd (2 * pos) x.2.1.bits) wd (2 * pos + 1) x.2.2.bits)) w.g.r
    let r2 := if sl.rm == .sr && sl.fmt != 12 then r1.stepLfsr 2 (w.lanes f.g) else r1
    let vs := (w.lanes f.g).flatMap fun L =>
      [w.mode.rd (w.val32 false f.a L), w.mode.rd (w.val32 f.bu f.b L)]
    w.reportNan s (w.amaxFor (w.commit s r2) f.slot vs)
      (rs.any fun x => x.2.1.nanOut || x.2.2.nanOut) (rs.any fun x => x.2.1.nanIn || x.2.2.nanIn)

/-- SEED (22 R407). -/
def execSeed (f : GA) (s : State) := onSite s fun w =>
  w.commit s { w.g.r with lfsr := (w.lanes f.g).foldl (fun m L =>
    m.put L (if w.val32 false f.a L = 0 then BitVec.ofNat 32 (w.grp * 32 + L + 1) else w.val32 false f.a L)) w.g.r.lfsr }

/-- UNPK (23 R439, R440). -/
def execUnpk (f : UnpkF) (s : State) := onSite s fun w =>
  let sl := w.fslot s f.slot
  let wd := fmtWidth sl.fmt
  if !narrowAccepts sl.fmt || 32 / wd ≤ f.idx.toNat then w.fault s .illegal 0
  else
    w.rounded s f.g false f.d .rne 0 fun L _ =>
      fmtF32.round .rne w.mode.ftz 0
        (elemValue sl.fmt w.mode.daz ((w.val32 false f.a L).toNat / 2 ^ (wd * f.idx.toNat) % 2 ^ wd))

end Sys2Proof.Machine
end

