-- ==== Sys2Proof/Machine/Macros.lean ====
section
/-! DEFINITION. The compute-in-memory macros: handles, residencies as a core sees them, instances (10 R178 to R197), and what the
array operations compute (05 R120, R121, 10 R200, R205 to R208). -/

namespace Sys2Proof.Machine

/-! ### Handles and residencies (10 R178 to R191) -/

/-- Macros of an instance. -/
def resMacros (k32 n16 : Nat) : Nat := (32 * k32 + 127) / 128 * ((16 * n16 + 127) / 128)

def Ctx.handle (c : Ctx) (i : Nat) : HandleEntry := c.handles.getD i HandleEntry.start

/-- The index and residency of a live handle (10 R180). -/
def State.live? (s : State) (ctx : Nat) (h : BitVec 16) : Option (Nat × Residency) :=
  let i := (h.extractLsb' 0 8).toNat
  let e := (s.ctx ctx).handle i
  match e.res with
  | some r => if e.gen = (h.extractLsb' 8 8).toNat then some (i, r) else none
  | none => none

/-- A residency changed. -/
def State.updRes (s : State) (ctx i : Nat) (f : Residency → Residency) : State :=
  s.updCtx ctx fun c => { c with handles := c.handles.upd i fun e => { e with res := e.res.map f } }

/-- The entry names a residency. -/
def ArrayEntry.names (e : ArrayEntry) (ctx i : Nat) : Bool :=
  e.ctx == ctx && match e.op with
    | .run op => op.use.handle == i
    | .rload u _ _ _ => u.handle == i
    | _ => false

def Core.work (c : Core) : List ArrayEntry := c.pass ++ c.fifo

/-- An instance is busy: a queued or running operation names it (10 R181). -/
def Core.busy (c : Core) (ctx i : Nat) : Bool := c.work.any fun e => e.names ctx i

def MacroCopy.is (m : MacroCopy) (ctx i : Nat) : Bool := m.ctx == ctx && m.index == i
def Core.copy? (c : Core) (ctx i : Nat) : Option MacroCopy := c.copies.find? fun m => m.is ctx i
def Core.dropCopy (c : Core) (ctx i : Nat) : Core := { c with copies := c.copies.filter fun m => !m.is ctx i }

/-- Macros of a core that no instance holds; a core has twelve. -/
def Core.freeMacros (c : Core) : Nat := 12 - c.copies.foldl (fun n m => n + m.macros) 0

/-- A load of the residency is queued or running on a core. -/
def Core.loads (c : Core) (ctx i : Nat) : Bool := c.work.any fun e =>
  e.names ctx i && match e.op with
    | .rload _ _ _ _ => true
    | _ => false

/-- What the last queued or running operation of a residency on a core needs: what the next one will find there (10 R186, R386). -/
def Core.lastUse (c : Core) (ctx i : Nat) : Option ResUse :=
  c.work.reverse.findSome? fun e => if e.names ctx i then
    match e.op with
    | .run op => some op.use
    | .rload u _ _ _ => some u
    | _ => none
  else none

/-- What an operation of a word needs of a residency. -/
def Residency.use (r : Residency) (i : Nat) : ResUse := ⟨i, r.k32, r.n16, r.loadGen, r.fmt, r.source⟩

/-- The last such operation that uses contents of a load generation or an older one. -/
def Core.lastUpTo (c : Core) (ctx i gen : Nat) : Option ResUse :=
  c.work.reverse.findSome? fun e => if e.names ctx i then
    match e.op with
    | .run op => if op.use.loadGen ≤ gen then some op.use else none
    | _ => none
  else none

/-- The use of the last load of a residency that is queued or running on a core. -/
def Core.lastLoad (c : Core) (ctx i : Nat) : Option ResUse :=
  c.work.reverse.findSome? fun e => if e.names ctx i then
    match e.op with
    | .rload u _ _ _ => some u
    | _ => none
  else none

/-- What a quarter operation that issues now will find: what the last operation of the core finds, unless a newer load has arrived since,
whose contents it then needs (10 R186). -/
def Core.useFor (c : Core) (ctx i : Nat) (r : Residency) : ResUse :=
  match c.lastUse ctx i with
  | some u => if r.arrived ≤ u.loadGen then u else r.use i
  | none => r.use i

/-- A happening made the residency STALE on a core after the core's last load (10 R189). -/
def Residency.marked (r : Residency) (core : Nat) : Bool := r.seen.getD core 0 < r.marks

/-- A load from scratchpad on another core, or the loss of what one on this core had filled, made the residency STALE on a core
(10 R182, R189). -/
def Residency.lost (r : Residency) (core : Nat) : Bool := r.padSeen.getD core 0 < r.pads

/-- STATE of 10 Table 10-5 as a core sees it: 1 LOADING, 2 READY, 3 EVICTED, 4 STALE (10 R188, R189). An instance of an older load
stays READY until no operation that uses it is queued or running (10 R186, log entry 29). -/
def State.resState (s : State) (core ctx i : Nat) (r : Residency) : Nat :=
  let c := s.core core
  if r.marked core then 4
  else if c.loads ctx i then 1
  else
    match c.copy? ctx i with
    | some m =>
      if m.loading then 1
      else if r.loadGen ≤ m.loadGen || (c.lastUpTo ctx i m.loadGen).isSome then 2
      else if r.lost core then 4
      else 3
    | none => if !c.busy ctx i && r.lost core then 4 else 3

/-- The format slot word and the recorded source that go with that state: those of the load or of the older instance that the state is
about, else those of the residency (10 R188, 22 R387). -/
def State.resSeen (s : State) (core ctx i : Nat) (r : Residency) : W32 × Option ResSource :=
  let c := s.core core
  let old :=
    if r.marked core then none
    else
      match c.lastLoad ctx i, c.copy? ctx i with
      | some u, _ => some u
      | none, some m => if r.loadGen ≤ m.loadGen then none else c.lastUpTo ctx i m.loadGen
      | none, none => none
  old.elim (r.fmt, r.source) fun u => (u.fmt, u.source)

/-- A load from scratchpad has been discarded before it filled the instance of its core: the contents are lost there, unless a later
load of the residency is queued (10 R182, R189). -/
def State.padLoadLost (s : State) (core : Nat) (e : ArrayEntry) : State :=
  match e.op with
  | .rload u _ true _ =>
    if (s.core core).loads e.ctx u.handle then s
    else s.updRes e.ctx u.handle fun r => { r with padSeen := r.padSeen.erase core }
  | _ => s

/-- An instance is evicted from a core; of a residency that is loaded and unsourced its contents are lost there (10 R182, R189). -/
def State.evictCopy (s : State) (core ctx i : Nat) : State :=
  (s.updCore core fun c => c.dropCopy ctx i).updRes ctx i fun r =>
    if r.loaded && r.source.isNone then { r with padSeen := r.padSeen.erase core } else r

/-- The macros that a tenant's instances hold on every core (15 R275). -/
def State.macrosUsed (s : State) (ten : Nat) : Nat :=
  s.cores.foldl (fun n c => c.2.copies.foldl (fun n m => if s.tenantOf m.ctx = ten then n + m.macros else n) n) 0

def State.quota (s : State) (ten : Nat) : Nat := s.quotas.getD ten 0

/-- The instance that an allocation of a context evicts next: idle, unpinned, of the same context, least recently used
(10 R181). -/
def State.victim (s : State) (core ctx keep : Nat) : Option MacroCopy :=
  let c := s.core core
  let l := c.copies.filter fun m =>
    m.ctx == ctx && m.index != keep && !c.busy ctx m.index &&
    !(((s.ctx ctx).handle m.index).res.elim false (·.pinned))
  l.foldl (fun (b : Option MacroCopy) m => match b with
    | some x => if m.used < x.used then some m else b
    | none => some m) none

/-- Instances evicted until n macros are free, or none is left to evict; at most `fuel` of them. -/
def State.makeRoom : (fuel core ctx keep n : Nat) → State → State
  | 0, _, _, _, _, s => s
  | fuel + 1, core, ctx, keep, n, s =>
    if n ≤ (s.core core).freeMacros then s
    else
      match s.victim core ctx keep with
      | some m => State.makeRoom fuel core ctx keep n (s.evictCopy core m.ctx m.index)
      | none => s

/-- An instance with every element 0 and every scale 0x7F. -/
def ResUse.blank (u : ResUse) (ctx used : Nat) : MacroCopy where
  ctx := ctx
  index := u.handle
  macros := resMacros u.k32 u.n16
  loadGen := u.loadGen
  fmt := u.fmt
  elems := []
  scales := []
  used := used
  loading := false

/-- Format code BI8 as a slot word: the format before any load. -/
def fmtBi8 : W32 := 8

/-! ### Planes of a block tensor (05 R105, R106) -/

/-- Bytes of a block's elements. -/
def blockBytes (fmt : Nat) : Nat := 4 * fmtWidth fmt

/-- The code of element i of packed bytes (05 R104). -/
def packedCode (fmt : Nat) (b : List Byte) (i : Nat) : Nat :=
  let w := fmtWidth fmt
  (b.getD (i * w / 8) 0).toNat / 2 ^ (i * w % 8) % 2 ^ w

/-- The bytes of the element plane and of the scale plane of a source: per column, address and length. -/
def ResSource.planes (x : ResSource) (k32 n16 : Nat) : List (W64 × Nat) :=
  let fmt := (FmtSlot.ofWord x.fmt).fmt
  ((List.range (16 * n16)).map fun n => (x.ebase + BitVec.ofNat 64 (n * x.epitch), k32 * blockBytes fmt)) ++
  (List.range (16 * n16)).map fun n => (x.sbase + BitVec.ofNat 64 (n * x.spitch), k32)

/-- An instance filled from the bytes of its planes, columns one after another and then their scales. -/
def ResUse.fill (u : ResUse) (fmtWord : W32) (ctx used : Nat) (b : List Byte) : MacroCopy :=
  let fmt := (FmtSlot.ofWord fmtWord).fmt
  let col := u.k32 * blockBytes fmt
  let k := 32 * u.k32
  let ns := 16 * u.n16
  { u.blank ctx used with
    fmt := fmtWord
    elems := (List.range ns).flatMap fun n => (List.range k).map fun i =>
      (n * k + i, packedCode fmt ((b.drop (n * col)).take col) i)
    scales := (List.range ns).flatMap fun n => (List.range u.k32).map fun i =>
      (n * u.k32 + i, (b.getD (ns * col + n * u.k32 + i) 0).toNat) }

def MacroCopy.elem (m : MacroCopy) (k n i : Nat) : Nat := m.elems.getD (n * k + i) 0
def MacroCopy.scale (m : MacroCopy) (k32 n b : Nat) : Nat := m.scales.getD (n * k32 + b) 0x7F

/-- Bad ternary codes in an instance (05 R107). -/
def MacroCopy.badCodes (m : MacroCopy) : Nat :=
  if (FmtSlot.ofWord m.fmt).fmt = 11 then (m.elems.filter fun e => e.2 == 2).length else 0

/-! ### Arithmetic (05 R120, R121, 10 R207) -/

/-- The integer that an element enters with: 2q for BE2M1 (05 R105, R120). -/
def blockInt (fmt c : Nat) : Int :=
  match fmt with
  | 8 => sextNat 8 c
  | 9 => sextNat 4 c
  | 10 => (if c / 8 % 2 = 1 then -1 else 1) * ([0, 1, 2, 3, 4, 6, 8, 12].getD (c % 8) 0 : Int)
  | _ => if c % 4 = 1 then 1 else if c % 4 = 3 then -1 else 0

/-- The binary exponent that an element format brings: −1 for BE2M1. -/
def blockExp (fmt : Nat) : Int := if fmt = 10 then -1 else 0

/-- One block of one row or column: its integers, its scale and the exponent of its format. -/
structure Block where
  q : List Int
  scale : Nat
  exp : Int
  deriving DecidableEq, Repr

/-- 2^(s − 127) times the format's factor, as an exponent. -/
def Block.e (b : Block) : Int := (b.scale : Int) - 127 + b.exp

/-- The exact integer sum of products. -/
def dot (a b : List Int) : Int := (a.zip b).foldl (fun n x => n + x.1 * x.2) 0

/-- The scaled partial of a block, rounded by RNE (05 R120 step 2). -/
def scaledPartial (a b : Block) : FVal :=
  if a.scale = 0xFF || b.scale = 0xFF then .nan
  else
    let p := dot a.q b.q
    fmtF32.decode (fmtF32.round .rne false 0 (.fin (p < 0) p.natAbs (a.e + b.e) false)).bits

/-- A scaled partial added to an accumulator with RNE (05 R120 step 3). -/
def accumulate (acc : W32) (p : FVal) : W32 :=
  BitVec.ofNat 32 (fmtF32.round .rne false 0 (FVal.add false (fmtF32.decode acc.toNat) p)).bits

def isNanF32 (x : W32) : Bool := (fmtF32.decode x.toNat).isNan

/-- The accumulator after a list of blocks, and the first block that left a NaN in it. -/
def runElem (acc : W32) (l : List (Nat × Block × Block)) : W32 × Option Nat :=
  l.foldl (fun st x =>
    let a := accumulate st.1 (scaledPartial x.2.1 x.2.2)
    (a, if st.2.isNone && isNanF32 a then some x.1 else st.2)) (acc, none)

/-- The exact sum of (a − b)² of a block. -/
def distBlock (a b : Block) : FVal :=
  if a.scale = 0xFF || b.scale = 0xFF then .nan
  else (a.q.zip b.q).foldl (fun v x =>
    let d := FVal.add false (.fin (x.1 < 0) x.1.natAbs a.e false) (.fin (0 < x.2) x.2.natAbs b.e false)
    FVal.add false v (FVal.mul d d)) (.fin false 0 0 false)

/-- The distance of a row and a column, rounded once, and its first NaN block (10 R207). -/
def distElem (l : List (Nat × Block × Block)) : W32 × Option Nat :=
  let v := l.foldl (fun v x => FVal.add false v (distBlock x.2.1 x.2.2)) (.fin false 0 0 false)
  (BitVec.ofNat 32 (fmtF32.round .rne false 0 v).bits,
    (l.find? fun x => (distBlock x.2.1 x.2.2).isNan).map (·.1))

/-! ### Quarter operations (10 R200) -/

/-- Key of a tile element in Team.tiles. -/
def tileKey (t row col : Nat) : Nat := 1024 * t + 32 * row + col

/-- Bytes of the A rows: both planes. -/
def RunOp.bytes (o : RunOp) : Nat := o.m * o.klen * (blockBytes (FmtSlot.ofWord o.fmt).fmt + 1)

/-- Block b of A row r. -/
def RunOp.aBlock (o : RunOp) (rows : List Byte) (r b : Nat) : Block :=
  let fmt := (FmtSlot.ofWord o.fmt).fmt
  let e := blockBytes fmt
  let bytes := (rows.drop ((r * o.klen + b) * e)).take e
  ⟨(List.range 32).map fun i => blockInt fmt (packedCode fmt bytes i),
    (rows.getD (o.m * o.klen * e + r * o.klen + b) 0).toNat, blockExp fmt⟩

/-- Block b of column n of an instance. -/
def MacroCopy.block (m : MacroCopy) (k32 n b : Nat) : Block :=
  let fmt := (FmtSlot.ofWord m.fmt).fmt
  ⟨(List.range 32).map fun i => blockInt fmt (m.elem (32 * k32) n (32 * b + i)), m.scale k32 n b, blockExp fmt⟩

/-- The blocks of a row and a column along K, ascending. -/
def RunOp.pairs (o : RunOp) (m : MacroCopy) (rows : List Byte) (r n : Nat) : List (Nat × Block × Block) :=
  (List.range o.klen).map fun i => (o.koff + i, o.aBlock rows r i, m.block o.use.k32 n (o.koff + i))

/-- The result of row r and operation column c: tile, tile row, tile column, value and the block of its first NaN. -/
def RunOp.result (o : RunOp) (m : MacroCopy) (tiles : SMap W32) (rows : List Byte) (r c : Nat) :
    (Nat × Nat × Nat) × W32 × Option Nat :=
  let t := o.tile + c / 32
  let l := o.pairs m rows r (16 * o.noff + c)
  ((t, o.row0 + r, c % 32),
    if o.dist then distElem l else runElem (tiles.getD (tileKey t (o.row0 + r) (c % 32)) 0) l)

/-- Every result of a quarter operation. -/
def RunOp.results (o : RunOp) (m : MacroCopy) (tiles : SMap W32) (rows : List Byte) :
    List ((Nat × Nat × Nat) × W32 × Option Nat) :=
  (List.range o.m).flatMap fun r => (List.range (16 * o.nlen)).map fun c => o.result m tiles rows r c

/-- The tiles that a quarter operation writes. -/
def RunOp.tiles (o : RunOp) : List Nat := (List.range ((o.nlen + 1) / 2)).map fun i => o.tile + i

/-- A place where a NaN arose, in the order of 05 R124: k-step, row, column, tile. -/
abbrev NanAt := Nat × Nat × Nat × Nat

def NanAt.lt (a b : NanAt) : Bool :=
  a.1 < b.1 || (a.1 == b.1 && (a.2.1 < b.2.1 || (a.2.1 == b.2.1 && (a.2.2.1 < b.2.2.1 ||
    (a.2.2.1 == b.2.2.1 && a.2.2.2 < b.2.2.2)))))

/-- The first NaN of a list of results. -/
def firstNan (l : List ((Nat × Nat × Nat) × W32 × Option Nat)) : Option NanAt :=
  l.foldl (fun b x => match x.2.2 with
    | some k =>
      let at_ : NanAt := (k, x.1.2.1, x.1.2.2, x.1.1)
      match b with
      | some y => if NanAt.lt at_ y then some at_ else b
      | none => some at_
    | none => b) none

/-- TINFO of an array NaN (14 Table 14-5). -/
def tinfoOf (x : NanAt) : W32 :=
  BitVec.ofNat 32 (2 ^ 30 + x.2.2.2 * 2 ^ 24 + x.2.1 * 2 ^ 13 + x.2.2.1 * 2 ^ 8 + x.1)

/-! ### Epilogues (10 R205 to R208) -/

/-- The conversion of one tile element by a drain. -/
def drainElem (sl : FmtSlot) (r x : W32) : FRes := slotConvert sl false r (fmtF32.decode x.toNat)

/-- The draws of n elements in order. -/
def drawsFrom : Nat → W32 → List W32
  | 0, _ => []
  | n + 1, r => r :: drawsFrom n (lfsrStep r)

/-- Packed elements of w bits as bytes (05 R104). -/
def packBytes (w : Nat) (l : List Nat) : List Byte :=
  natToBytes (w * l.length / 8) (l.reverse.foldl (fun n x => n * 2 ^ w + x % 2 ^ w) 0)

/-- A ranks above b for MX.TOPK: by value, −0 below +0, NaN below every number, the lower column first on a tie (10 R206). -/
def topBefore (a b : Nat × W32) : Bool :=
  let x := fmtF32.decode a.2.toNat
  let y := fmtF32.decode b.2.toNat
  if x.isNan then y.isNan && a.1 < b.1
  else if y.isNan then true
  else if FVal.less y x then true
  else if FVal.less x y then false
  else a.1 < b.1

/-- The first k entries of a list by rank. -/
def topK : Nat → List (Nat × W32) → List (Nat × W32)
  | 0, _ => []
  | k + 1, l =>
    match l with
    | [] => []
    | x :: t =>
      let best := t.foldl (fun b y => if topBefore y b then y else b) x
      best :: topK k (l.filter fun y => y.1 != best.1)

end Sys2Proof.Machine
end

