-- ==== Sys2Proof/Machine/ArrayWords.lean ====
section
/-! DEFINITION. The matrix words at issue (10 R178 to R204, 22 R380 to R387): their checks, the entries they post, and the
residency words. -/

namespace Sys2Proof.Machine

/-! ### Posting (10 R201, R209) -/

/-- Entries of an array FIFO. -/
def fifoLimit : Nat := 64
/-- The largest PEND of a barrier object (11 R227). -/
def pendLimit : Nat := 8191

/-- The barrier object at an address: aligned, in the own window (10 R209). -/
def Site.barAt (w : Site) (s : State) (a : W32) : Except Bad Nat :=
  match w.padPhys s 8 a with
  | .error e => .error e
  | .ok (team, off) => if team == w.team then .ok off else .error (.xlateNp, a.setWidth 64)

/-- The entries of a word can be posted: the FIFO has room for all, no barrier object would take PEND past its limit, and
their lines are present (10 R201, 11 R227). -/
def Site.canPost (w : Site) (s : State) (bars : List Nat) : Bool :=
  (s.core w.core).fifo.length + bars.length ≤ fifoLimit &&
  bars.all fun a => !s.padAbsent w.team a 8 && (s.object w.team a).pend + (bars.filter (· == a)).length ≤ pendLimit

/-- A word whose entries cannot be posted waits; where lines of its barrier objects are absent its slot is not ready (08 R148). -/
def Site.holdPost (w : Site) (s : State) (bars : List Nat) : State :=
  match bars.filter fun a => s.padAbsent w.team a 8 with
  | [] => s
  | l => w.await s (.absent (l.map fun a => (w.team, a / 128)))

/-- PEND of an object grows by one. -/
def Site.pendUp (w : Site) (s : State) (a : Nat) : State :=
  let o := s.object w.team a
  s.setObject w.team a { o with pend := o.pend + 1 } w.writer

/-- The place of the A rows of an operation in scratchpad: team, offset and length. -/
def Site.spanOf (w : Site) (s : State) : ArrayOp → Nat × Nat × Nat
  | .run op =>
    match s.padAt w.team w.tm op.addr op.bytes with
    | .ok x => (x.1, x.2, op.bytes)
    | .error _ => (0, 0, 0)
  | _ => (0, 0, 0)

/-- An entry of the issuing group. -/
def Site.entry (w : Site) (op : ArrayOp) (bar : Nat) (span : Nat × Nat × Nat) : ArrayEntry where
  team := w.team
  grp := w.grp
  nest := w.tm.nest
  ctx := w.ctx
  pc := w.pc
  op := op
  bar := bar
  nanTrap := fpmNanTrap w.g.r.fpm
  nan := none
  span := span
  spoiled := []
  rows := []

/-- The entries posted in order, each with its PEND. -/
def Site.postArray (w : Site) (s : State) (l : List (ArrayOp × Nat)) : State :=
  (l.foldl (fun s' x => w.pendUp s' x.2) s).updCore w.core fun c =>
    { c with fifo := c.fifo ++ l.map fun x => w.entry x.1 x.2 (w.spanOf s x.1) }

/-! ### MX.RUN and MX.DIST (10 R198, R199, 22 R381) -/

/-- Formats of A rows (05 Table 5-2). -/
def rowsAccept (c : Nat) : Bool := 8 ≤ c && c ≤ 10

/-- One quarter checked: its operation, its barrier object and whether its residency is STALE here, with the handle. -/
def Site.quarter (w : Site) (s : State) (dist : Bool) (f : MxRunF) (L : Nat) :
    Except Bad (RunOp × Nat × Option (BitVec 16)) :=
  let run := w.g.r.rdV f.a.toNat L
  let rows := w.g.r.rdV f.b.toNat L
  let shape := w.g.r.rdV64 f.c.toNat L
  let slot := s.fslotWord w.tm.nest f.slot.toNat
  let h : BitVec 16 := run.extractLsb' 0 16
  let tile := (run.extractLsb' 16 6).toNat
  let bad : Except Bad (RunOp × Nat × Option (BitVec 16)) := .error (.illegal, 0)
  if run.extractLsb' 22 10 != 0 || fld shape 61 3 != 0 || fld shape 39 1 != 0 || fld shape 29 3 != 0 then bad
  else
    match s.live? w.ctx h with
    | none => bad
    | some (i, r) =>
      let op : RunOp :=
        { dist := dist, use := (s.core w.core).useFor w.ctx i r, tile := tile, addr := rows.toNat, row0 := fld shape 5 5, m := fld shape 0 5 + 1,
          koff := fld shape 10 6, klen := fld shape 16 6 + 1, noff := fld shape 22 7, nlen := fld shape 32 7 + 1,
          fmt := slot }
      let code := (FmtSlot.ofWord slot).fmt
      if r.k32 < op.koff + op.klen || r.n16 < op.noff + op.nlen || 32 < op.row0 + op.m ||
          w.tm.shape.tiles < tile + (op.nlen + 1) / 2 || !rowsAccept code ||
          (dist && code == 10 && (FmtSlot.ofWord r.fmt).fmt == 11) then bad
      else if rows.toNat % 16 != 0 then .error (.misalign, rows.setWidth 64)
      else
        match s.padAt w.team w.tm rows.toNat op.bytes, w.barAt s (BitVec.ofNat 32 (8 * fld shape 40 21)) with
        | .error c, _ => .error (c, rows.setWidth 64)
        | _, .error e => .error e
        | .ok _, .ok bar => .ok (op, bar, if s.resState w.core w.ctx i r = 4 then some h else none)

/-- MX.RUN and MX.DIST: a tile at or above the grant comes before every other failure (04 Table 4-10). -/
def Site.runArray (w : Site) (s : State) (dist : Bool) (f : MxRunF) : State :=
  if w.tileBad (.mxRun f) then w.fault s .illegal 0
  else
  match eachLane (fun L => w.quarter s dist f L) (w.quarters f.g) with
  | .error (c, a) => w.fault s c a
  | .ok l =>
    match l.findSome? fun x => x.2.2.2 with
    | some h => w.trap s s ⟨.staleRes, w.pc, 0, w.pc, h.setWidth 64, 0⟩
    | none =>
      if w.canPost s (l.map fun x => x.2.2.1) then
        w.commit (w.postArray s (l.map fun x => (.run x.2.1, x.2.2.1))) w.g.r
      else w.holdPost s (l.map fun x => x.2.2.1)

/-- MX.RUN (22 R380, R381). -/
def execMxRun (f : MxRunF) (s : State) := onMem s fun w => w.runArray s false f
/-- MX.DIST (22 R380, R381). -/
def execMxDist (f : MxRunF) (s : State) := onMem s fun w => w.runArray s true f

/-! ### Epilogue words (10 R204 to R208, 22 R383) -/

/-- A word that posts one operation. -/
def Site.postOne (w : Site) (s : State) (op : ArrayOp) (bar : Nat) (r : GroupRegs) : State :=
  if w.canPost s [bar] then w.commit (w.postArray s [(op, bar)]) r else w.holdPost s [bar]

/-- Formats of a drain (05 Table 5-2). -/
def drainAccepts (c : Nat) : Bool := c ≤ 7

/-- Ranges of scratchpad that a word names lie inside allocations (03 R62). -/
def Site.extents (w : Site) (s : State) (l : List (Nat × Nat)) : Except Bad Unit :=
  match l.find? fun x => match s.padAt w.team w.tm x.1 x.2 with
      | .ok _ => false
      | .error _ => true with
  | some x => .error (.xlateNp, BitVec.ofNat 64 x.1)
  | none => .ok ()

/-- MX.DRAIN (10 R205, 22 R383). -/
def execMxDrain (f : SPairReg) (s : State) := onMem s fun w =>
  let x := w.g.r.rdS64 f.a.toNat
  let tile := fld x 0 6
  let m := fld x 6 5 + 1
  let n := fld x 14 7 + 1
  let slotNo := fld x 21 3
  let dst := fld x 24 24
  let pitch := fld x 48 16
  let slot := s.fslotWord w.tm.nest slotNo
  let sl := FmtSlot.ofWord slot
  let bits := n * fmtWidth sl.fmt
  if fld x 11 3 != 0 || 32 < n || w.tm.shape.tiles ≤ tile || !drainAccepts sl.fmt || bits % 8 != 0 || pitch < bits / 8 then
    w.fault s .illegal 0
  else
    match w.extents s ((List.range m).map fun r => (dst + r * pitch, bits / 8)), w.barAt s (w.g.r.rdS f.b.toNat) with
    | .error (c, a), _ => w.fault s c a
    | _, .error (c, a) => w.fault s c a
    | .ok (), .ok bar =>
      let r := if sl.rm == .sr then w.g.r.stepLfsr (m * n) [0] else w.g.r
      w.postOne s (.drain dst pitch n m tile slot slotNo (w.g.r.draw 0)) bar r

/-- MX.TOPK (10 R206, 22 R383). A DST that is not a multiple of 16 raises MISALIGN (log entry 117). -/
def execMxTopk (f : SPairReg) (s : State) := onMem s fun w =>
  let x := w.g.r.rdS64 f.a.toNat
  let tile := fld x 0 6
  let m := fld x 6 5 + 1
  let k := fld x 11 3 + 1
  let n := fld x 14 7 + 1
  let dst := fld x 24 24
  if fld x 21 3 != 0 || fld x 48 16 != 0 || n < k || w.tm.shape.tiles < tile + (n + 31) / 32 then w.fault s .illegal 0
  else if dst % 16 != 0 then w.fault s .misalign (BitVec.ofNat 64 dst)
  else
    match w.extents s ((List.range m).flatMap fun r => [(dst + 16 * r, 2 * k), (dst + 512 + 32 * r, 4 * k)]),
        w.barAt s (w.g.r.rdS f.b.toNat) with
    | .error (c, a), _ => w.fault s c a
    | _, .error (c, a) => w.fault s c a
    | .ok (), .ok bar => w.postOne s (.topk dst k n m tile) bar w.g.r

/-- MX.ZERO (10 R208, 22 R383). -/
def execMxZero (f : SPairReg) (s : State) := onMem s fun w =>
  let x := w.g.r.rdS64 f.a.toNat
  let tile := fld x 0 6
  let n := fld x 14 7 + 1
  if fld x 6 8 != 0 || fld x 21 43 != 0 || 64 < n || w.tm.shape.tiles < tile + n then w.fault s .illegal 0
  else
    match w.barAt s (w.g.r.rdS f.b.toNat) with
    | .error (c, a) => w.fault s c a
    | .ok bar => w.postOne s (.zero tile n) bar w.g.r

/-! ### Residency words (10 R178 to R194, 22 R384 to R387) -/

/-- The handle of a residency word: the low half of an s register whose high half is zero. -/
def Site.handleArg (w : Site) (a : BitVec 8) : Option (BitVec 16) :=
  let x := w.g.r.rdS a.toNat
  if x.extractLsb' 16 16 = 0 then some (x.extractLsb' 0 16) else none

/-- GSTAT with the cause of a failed MX.RALLOC (03 Table 3-4). -/
def setRcause (gstat : W32) (c : Nat) : W32 := (gstat &&& ~~~(0x300 : W32)) ||| BitVec.ofNat 32 (256 * c)

/-- A residency at its allocation: no source, never loaded. -/
def Residency.new (k32 n16 marks : Nat) : Residency where
  k32 := k32
  n16 := n16
  fmt := fmtBi8
  pinned := false
  loaded := false
  source := none
  loadGen := 0
  arrived := 0
  marks := marks
  seen := []
  pads := 0
  padSeen := []
  overflow := []

/-- A handle of an index and a generation (10 Table 10-3). -/
def handleOf (gen i : Nat) : W32 := BitVec.ofNat 32 (256 * gen + i)

/-- MX.RALLOC (10 R179 to R181, 22 R385). -/
def execMxRalloc (f : LaDA) (s : State) := onMem s fun w =>
  let x := w.g.r.rdS f.a.toNat
  let k32 := (x.extractLsb' 0 6).toNat + 1
  let n16 := (x.extractLsb' 8 7).toNat + 1
  let n := resMacros k32 n16
  if x.extractLsb' 15 17 != 0 || x.extractLsb' 6 2 != 0 || 48 < k32 || 96 < n16 || 12 < n then w.fault s .illegal 0
  else
    let s1 := State.makeRoom 12 w.core w.ctx 256 n s
    let ten := s1.tenantOf w.ctx
    let fail := fun (c : Nat) =>
      (w.post s1 f.la (.mxRalloc f) .value [.s f.d.toNat 0] 0).updGroup w.team w.grp fun g =>
        { g with r := { g.r with gstat := setRcause g.r.gstat c } }
    if (s1.core w.core).freeMacros < n then fail 1
    else if s1.quota ten < s1.macrosUsed ten + n then fail 2
    else
      match (List.range 256).find? fun i => ((s1.ctx w.ctx).handle i).res.isNone with
      | none => fail 3
      | some i =>
        let e := (s1.ctx w.ctx).handle i
        let r := Residency.new k32 n16 0
        let s2 := s1.updCtx w.ctx fun c => { c with handles := c.handles.put i { e with res := some r } }
        let s3 := s2.updCore w.core fun c => { c with copies := c.copies ++ [(r.use i).blank w.ctx s.tick] }
        w.post s3 f.la (.mxRalloc f) .value [.s f.d.toNat (handleOf e.gen i)] 0

/-- The watch filter of a basin holds a granule or has a free entry (10 R192, R194). -/
def BasinState.canWatch (b : BasinState) (granule : Nat) : Bool :=
  b.watches.any (fun x => x.granule == granule) || ((b.watches.map (·.granule)).eraseDups).length < 1024

/-- A granule watched for a residency: through the filter of its basin, or through the overflow generation (10 R192,
R194). -/
def State.watch (s : State) (ctx i granule : Nat) : State :=
  let bn := basinOf (granule * 65536)
  let e : Watch := ⟨granule, ctx, i⟩
  if (s.basin bn).watches.contains e then s
  else if (s.basin bn).canWatch granule then s.updBasin bn fun b => { b with watches := b.watches ++ [e] }
  else
    (s.updBasin bn fun b => { b with watchGen := b.watchGen + 1 }).updRes ctx i fun r =>
      { r with overflow := if r.overflow.contains bn then r.overflow else r.overflow ++ [bn] }

/-- The granules of device memory that a source touches, as far as it translates: of a replicated page those of the page itself, at
whose home every write performs (01 R27, 10 R192). -/
def State.granules (s : State) (core ctx : Nat) (l : List (W64 × Nat)) : List Nat :=
  (l.flatMap fun x => (piecesOf x.1.toNat x.2).filterMap fun y =>
    match s.resolve core ctx .read y.1 with
    | .ok ph => if ph.host then none else (s.homeOf core ctx y.1).map fun pa => pa / 65536
    | .error _ => none).eraseDups

/-- The formats of a residency (05 Table 5-2). -/
def resAccepts (c : Nat) : Bool := 8 ≤ c && c ≤ 11

/-- The residency at the issue of a load (10 R186, R189). -/
def Residency.load (r : Residency) (core : Nat) (slot : W32) (src : Option ResSource) : Residency :=
  let pads := if src.isNone then r.pads + 1 else r.pads
  { r with
    fmt := slot
    loaded := true
    source := src
    loadGen := r.loadGen + 1
    seen := r.seen.put core r.marks
    pads := pads
    padSeen := r.padSeen.put core pads
    overflow := [] }

/-- MX.RLOAD (10 R185, R186, 22 R386). Where a pitch alone is misaligned the address reported is EBASE (log entry 98). -/
def execMxRload (f : MxRloadF) (s : State) := onMem s fun w =>
  let at_ := w.g.r.rdS f.b.toNat
  if at_.toNat % 8 != 0 then w.fault s .misalign (at_.setWidth 64)
  else
    match s.padAt w.team w.tm at_.toNat 32 with
    | .error c => w.fault s c (at_.setWidth 64)
    | .ok (team, off) =>
      if s.padAbsent team off 32 then w.await s (.absent [(team, off / 128), (team, (off + 31) / 128)])
      else
        let b := s.padRead team off 32
        let dw := fun (i : Nat) => (BitVec.ofNat 64 (bytesToNat ((b.drop (8 * i)).take 8)) : W64)
        let slot := s.fslotWord w.tm.nest f.slot.toNat
        let src : ResSource := ⟨dw 0, dw 1, fld (dw 2) 0 32, fld (dw 2) 32 32, slot⟩
        let pad := fld (dw 3) 0 1 == 1
        if fld (dw 3) 1 63 != 0 then w.fault s .illegal 0
        else if src.ebase.toNat % 8 != 0 then w.fault s .misalign src.ebase
        else if src.sbase.toNat % 8 != 0 then w.fault s .misalign src.sbase
        else if src.epitch % 8 != 0 || src.spitch % 8 != 0 then w.fault s .misalign src.ebase
        else
          match (w.handleArg f.a).bind fun h => s.live? w.ctx h with
          | none => w.fault s .illegal 0
          | some (i, r) =>
            if !resAccepts (FmtSlot.ofWord slot).fmt then w.fault s .illegal 0
            else
              match w.barAt s (w.g.r.rdS f.c.toNat) with
              | .error (c, a) => w.fault s c a
              | .ok bar =>
                if !w.canPost s [bar] then w.holdPost s [bar]
                else
                  let r1 := r.load w.core slot (if pad then none else some src)
                  let s1 := (s.unwatch w.ctx i).updRes w.ctx i fun _ => r1
                  let s2 := if pad then s1
                    else (s1.granules w.core w.ctx (src.planes r.k32 r.n16)).foldl (fun s' g => s'.watch w.ctx i g) s1
                  w.postOne s2 (.rload (r1.use i) src pad f.slot.toNat) bar w.g.r

/-- MX.RPIN (10 R190, 22 R387). -/
def execMxRpin (f : MxRpinF) (s : State) := onMem s fun w =>
  match (w.handleArg f.a).bind fun h => s.live? w.ctx h with
  | none => w.fault s .illegal 0
  | some (i, _) => (w.commit s w.g.r).updRes w.ctx i fun r => { r with pinned := f.pin }

/-- The entry of a handle after a revoke: the next generation, and no residency (10 R180). -/
def HandleEntry.revoke (e : HandleEntry) : HandleEntry := ⟨if e.gen = 255 then 1 else e.gen + 1, none⟩

/-- MX.REVOKE (10 R191, 22 R387). -/
def execMxRevoke (f : SReg) (s : State) := onMem s fun w =>
  match w.handleArg f.a with
  | none => w.fault s .illegal 0
  | some h =>
    match s.live? w.ctx h with
    | none => w.commit s w.g.r
    | some (i, _) =>
      if s.cores.any fun e => e.2.busy w.ctx i then s
      else
        let s1 := (s.unwatch w.ctx i).updCtx w.ctx fun c => { c with handles := c.handles.upd i HandleEntry.revoke }
        w.commit { s1 with cores := s1.cores.mapVals fun _ c => c.dropCopy w.ctx i } w.g.r

/-- The query word (10 Table 10-5). -/
def State.resWord (s : State) (core ctx i : Nat) (r : Residency) : W32 :=
  let x := s.resSeen core ctx i r
  BitVec.ofNat 32 ((r.n16 - 1) * 2 ^ 23 + (r.k32 - 1) * 2 ^ 17 + resMacros r.k32 r.n16 * 2 ^ 13 +
    (FmtSlot.ofWord x.1).fmt * 2 ^ 9 + x.2.isSome.toNat * 2 ^ 5 + r.pinned.toNat * 2 ^ 4 +
    s.resState core ctx i r)

/-- MX.RQRY (10 R188, 22 R387). -/
def execMxRqry (f : LaDA) (s : State) := onMem s fun w =>
  match w.handleArg f.a with
  | none => w.fault s .illegal 0
  | some h =>
    let v : W32 := match s.live? w.ctx h with
      | some (i, r) => s.resWord w.core w.ctx i r
      | none => 0
    w.post s f.la (.mxRqry f) .value [.s f.d.toNat v] 0

end Sys2Proof.Machine
end

