-- ==== Sys2Proof/Machine/ArrayEvents.lean ====
section
/-! DEFINITION. The array FIFO of a core at work (10 R182, R186, R200 to R209, 05 R124): first uses, starts with fusion,
completions and discarded instances. -/

namespace Sys2Proof.Machine

/-! ### First use (10 R182, R186) -/

/-- The copy that an operation needs is there and filled: of its generation or a later one for a quarter operation, any for a load. -/
def ArrayEntry.served (e : ArrayEntry) (c : Core) : Bool :=
  match e.op with
  | .run op => (c.copy? e.ctx op.use.handle).elim false fun m => !m.loading && op.use.loadGen ≤ m.loadGen
  | .rload u _ _ _ => (c.copy? e.ctx u.handle).isSome
  | _ => true

/-- The residency that an entry's first use instantiates, with the source that fills it. -/
def ArrayEntry.firstUse? (e : ArrayEntry) : Option (ResUse × Option ResSource) :=
  match e.op with
  | .run op => some (op.use, op.use.source)
  | .rload u _ _ _ => some (u, none)
  | _ => none

/-- The bytes of the planes of a device source, through the ARRAY path, with the pieces read. -/
def State.readPlanes (s : State) (core ctx : Nat) : List (W64 × Nat) → Except Bad (List Byte × List (Phys × Nat))
  | [] => .ok ([], [])
  | (a, n) :: rest =>
    match s.range core ctx .read a.toNat n with
    | .error e => .error e
    | .ok l =>
      match s.readPlanes core ctx rest with
      | .error e => .error e
      | .ok (b, ps) => .ok (s.readPieces .array l ++ b, l ++ ps)

/-- The pages of a list of planes. -/
def planePages (l : List (W64 × Nat)) : List Nat :=
  (l.flatMap fun x => (piecesOf x.1.toNat x.2).map fun y => y.1 / 4096).eraseDups

/-- The head of the FIFO finds that its source cannot be read: it leaves the FIFO, and the nest faults (22 R386), with the array as the
engine in TINFO (14 Tables 14-2 and 14-5). -/
def State.headFault (s : State) (core : Nat) (e : ArrayEntry) (c : Cause) (addr : W64) : State :=
  ((s.updCore core fun c => { c with fifo := c.fifo.tail }).padLoadLost core e).engineFault e.team e.grp c e.pc addr 0x40000000

/-- RESIDENCY_FIRST_USE (10 R182, R189): the head of the FIFO finds no instance, and macros are reserved and filled, LOADING until the
next such step; where macros or quota are lacking it waits. -/
def execResidencyFirstUse (core : Nat) (s : State) : Host.Outcome State Fault Refusal :=
  let c := s.core core
  match c.pass, c.fifo with
  | [], e :: _ =>
    match e.firstUse? with
    | some (u, src) =>
      if e.served c then .next s
      else if (c.copy? e.ctx u.handle).any (·.loading) then
        .next (s.updCore core fun c =>
          { c with copies := c.copies.map fun m => if m.is e.ctx u.handle then { m with loading := false } else m })
      else
        let n := resMacros u.k32 u.n16
        let s1 := State.makeRoom 12 core e.ctx u.handle n (s.updCore core fun c => c.dropCopy e.ctx u.handle)
        let ten := s1.tenantOf e.ctx
        if (s1.core core).freeMacros < n || s1.quota ten < s1.macrosUsed ten + n then .next s1
        else
          match src with
          | none =>
            .next (s1.updCore core fun c => { c with copies := c.copies ++ [u.blank e.ctx s.tick] })
          | some x =>
            match s1.awaitWalk core e.ctx (.event (.residencyFirstUse core)) (planePages (x.planes u.k32 u.n16)) with
            | some s2 => .next s2
            | none =>
              match s1.readPlanes core e.ctx (x.planes u.k32 u.n16) with
              | .error (cause, a) => .next (s1.headFault core e cause a)
              | .ok (b, ps) =>
                .next ((s1.touch e.ctx ps).updCore core fun c =>
                  { c with copies := c.copies ++ [{ u.fill x.fmt e.ctx s.tick b with loading := true }] })
    | none => .next s
  | _, _ => .next s

/-! ### Starts (10 R200, R202) -/

/-- The bytes that an entry reads in scratchpad: team, offset and length, none where the address has gone. -/
def State.rowsAt (s : State) (e : ArrayEntry) (a n : Nat) : Option (Nat × Nat × Nat) :=
  match s.teams.find? e.team with
  | some tm =>
    match s.padAt e.team tm a n with
    | .ok (t, off) => some (t, off, n)
    | .error _ => none
  | none => none

/-- The A rows of a quarter operation, when none of their lines is absent. -/
def State.rowsOf (s : State) (e : ArrayEntry) (op : RunOp) : Option (List Byte) :=
  match s.rowsAt e op.addr op.bytes with
  | some (t, off, n) =>
    if (List.range (n / 128 + 2)).any fun i => s.padAbsent t (min (off + 128 * i) (off + n - 1)) 1 then none
    else some (s.padRead t off n)
  | none => some (List.replicate op.bytes 0)

/-- The tile elements of two quarter operations of one team are disjoint. -/
def RunOp.disjoint (a b : RunOp) : Bool :=
  a.row0 + a.m ≤ b.row0 || b.row0 + b.m ≤ a.row0 ||
  32 * a.tile + 16 * a.nlen ≤ 32 * b.tile || 32 * b.tile + 16 * b.nlen ≤ 32 * a.tile

/-- The tiles that an operation names. -/
def ArrayOp.tiles : ArrayOp → List Nat
  | .run op => op.tiles
  | .rload _ _ _ _ => []
  | .drain _ _ _ _ tile _ _ _ => [tile]
  | .topk _ _ cols _ tile => (List.range ((cols + 31) / 32)).map fun i => tile + i
  | .zero tile n => (List.range n).map fun i => tile + i

def ArrayOp.run? : ArrayOp → Option RunOp
  | .run op => some op
  | _ => none

/-- The rows of a pass. -/
def passRows (l : List ArrayEntry) : Nat := l.foldl (fun n e => n + (e.op.run?.elim 0 (·.m))) 0

/-- An entry joins the pass of a head past the entries that stay (10 R202). -/
def joins (h : ArrayEntry) (ho : RunOp) (pass kept : List ArrayEntry) (e : ArrayEntry) (o : RunOp) : Bool :=
  o.dist == ho.dist && e.ctx == h.ctx && o.use.handle == ho.use.handle && o.use.loadGen == ho.use.loadGen &&
  o.koff == ho.koff && o.klen == ho.klen && (FmtSlot.ofWord o.fmt).fmt == (FmtSlot.ofWord ho.fmt).fmt &&
  passRows pass + o.m ≤ 32 &&
  (pass.all fun x => x.team != e.team || (x.op.run?).all fun y => y.disjoint o) &&
  kept.all fun x =>
    !(x.team == e.team && o.tiles.any fun t => x.op.tiles.contains t) &&
    match x.op with
    | .rload u _ _ _ => !(x.ctx == e.ctx && u.handle == o.use.handle)
    | _ => true

/-- The pass that a head starts and the entries that stay, both in FIFO order. -/
def formPass (h : ArrayEntry) (ho : RunOp) :
    List ArrayEntry → (pass kept : List ArrayEntry) → List ArrayEntry × List ArrayEntry
  | [], pass, kept => (pass, kept)
  | e :: rest, pass, kept =>
    match e.op.run? with
    | some o => if joins h ho pass kept e o then formPass h ho rest (pass ++ [e]) kept else formPass h ho rest pass (kept ++ [e])
    | none => formPass h ho rest pass (kept ++ [e])

/-- The entries of a pass with their A rows, once no line of them is absent. -/
def State.readRows (s : State) : List ArrayEntry → Option (List ArrayEntry)
  | [] => some []
  | e :: rest =>
    match (match e.op.run? with
      | some o => s.rowsOf e o
      | none => some []), s.readRows rest with
    | some b, some l => some ({ e with rows := b } :: l)
    | _, _ => none

/-- The A rows of an entry: what a group has rewritten before the arrival is unpredictable (22 R382, log entry 8). -/
def ArrayEntry.aRows (e : ArrayEntry) (tick : Nat) : List Byte :=
  e.rows.mapIdx fun i b => if e.spoiled.contains (e.span.2.1 + i) then Config.freeByte tick (e.span.2.1 + i) else b

/-- The results of an entry of a pass. -/
def State.entryResults (s : State) (m : MacroCopy) (e : ArrayEntry) : List ((Nat × Nat × Nat) × W32 × Option Nat) :=
  match e.op.run?, s.teams.find? e.team with
  | some o, some tm => o.results m tm.tiles (e.aRows s.tick)
  | _, _ => []

/-- The pass with its first NaN, when it has one: the operations of the group that owns it report it, under the mode of the one that
owns it, and the others set NAN_SEEN alone (05 R122, R124). Where operations of two teams tie, the first in FIFO order owns it (log
entry 94). -/
def State.ownNan (s : State) (m : MacroCopy) (pass : List ArrayEntry) : List ArrayEntry :=
  let firsts := pass.map fun e => firstNan (s.entryResults m e)
  let best := firsts.foldl (fun (b : Option NanAt) x => match x, b with
    | some y, some z => if NanAt.lt y z then some y else b
    | some y, none => some y
    | none, _ => b) none
  match best, (pass.zip firsts).find? fun x => x.2.isSome && x.2 == best with
  | some at_, some (o, _) => pass.map fun e =>
      { e with nanTrap := o.nanTrap && e.team == o.team && e.grp == o.grp, nan := some (tinfoOf at_) }
  | _, _ => pass

/-- The bytes of a load's planes in scratchpad, when none of their lines is absent; an address outside the allocation fails. -/
def State.padPlanes (s : State) (e : ArrayEntry) : List (W64 × Nat) → Except Bad (Option (List Byte))
  | [] => .ok (some [])
  | (a, n) :: rest =>
    match s.rowsAt e a.toNat n with
    | none => .error (.xlateNp, a)
    | some (t, off, n) =>
      match s.padPlanes e rest with
      | .error x => .error x
      | .ok none => .ok none
      | .ok (some b) =>
        if (List.range (n / 128 + 2)).any fun i => s.padAbsent t (min (off + 128 * i) (off + n - 1)) 1 then .ok none
        else .ok (some (s.padRead t off n ++ b))

/-- A core with its head moved into an empty pass. -/
def Core.startHead (c : Core) (e : ArrayEntry) : Core := { c with fifo := c.fifo.tail, pass := [e] }

/-- ARRAY_ENTRY_START (10 R201, R202): the head of the FIFO starts once everything before it has completed, and entries that
fuse with it join; a pass waits for the absent lines of its rows. -/
def execArrayEntryStart (core : Nat) (s : State) : Host.Outcome State Fault Refusal :=
  let c := s.core core
  match c.pass, c.fifo with
  | [], e :: rest =>
    if !e.served c then .next s
    else
      match e.op with
      | .run op =>
        let (pass, kept) := formPass e op rest [e] []
        match s.readRows pass, c.copy? e.ctx op.use.handle with
        | some l, some m => .next (s.updCore core fun c => { c with fifo := kept, pass := s.ownNan m l })
        | _, _ => .next s
      | .rload u src pad _ =>
        if pad then
          match s.padPlanes e (src.planes u.k32 u.n16) with
          | .error (cause, a) => .next (s.headFault core e cause a)
          | .ok none => .next s
          | .ok (some b) => .next (s.updCore core fun c => c.startHead { e with rows := b })
        else
          match s.awaitWalk core e.ctx (.event (.arrayEntryStart core)) (planePages (src.planes u.k32 u.n16)) with
          | some s1 => .next s1
          | none =>
            match s.readPlanes core e.ctx (src.planes u.k32 u.n16) with
            | .error (cause, a) => .next (s.headFault core e cause a)
            | .ok (b, ps) => .next ((s.touch e.ctx ps).updCore core fun c => c.startHead { e with rows := b })
      | .drain _ _ _ _ _ _ _ _ | .topk _ _ _ _ _ | .zero _ _ => .next (s.updCore core fun c => c.startHead e)
  | _, _ => .next s

/-! ### Completions (10 R205 to R209) -/

/-- The arrival of an array operation on its object: recorded as ERR and dropped on an invalidated one (10 R209). -/
def State.arrayArrive (s : State) (team a : Nat) : State :=
  let o := s.object team a
  if o.inv then s.setObject team a { o with err := true, pend := o.pend - 1 } none
  else s.arriveOn team a 1 true none

/-- NAN_SEEN of a group as it stands outside an open window, whose words it may still take back (05 R124, 08 R166). -/
def Group.nanSeen (g : Group) : Bool := gstatNanSeen (g.spec.elim g.r fun win => win.saved).gstat

/-- The NaN report of an array operation that has completed (05 R122, R124). -/
def State.arrayNan (s : State) (e : ArrayEntry) (info : Option W32) (seen : Bool) : State :=
  s.updGroup e.team e.grp fun g =>
    if g.st.ended then g
    else
      match info with
      | some x =>
        if e.nanTrap && !g.nanSeen then
          { g with st := { g.st with owedNan := some (g.st.owedNan.getD (e.nan.getD x)) } }
        else g.onRegs GroupRegs.setNanSeen
      | none => if seen then g.onRegs GroupRegs.setNanSeen else g

/-- Bytes that an array operation writes in scratchpad. -/
def State.arrayWrite (s : State) (e : ArrayEntry) (a : Nat) (b : List Byte) : State :=
  match s.rowsAt e a b.length with
  | some (t, off, _) => s.padWrite t off b none
  | none => s

/-- The writes of a quarter operation. -/
def State.completeRun (s : State) (core : Nat) (e : ArrayEntry) (o : RunOp) : State :=
  match (s.core core).copy? e.ctx o.use.handle with
  | some m =>
    let rs := s.entryResults m e
    let s1 := s.updTeam e.team fun t =>
      { t with tiles := rs.foldl (fun ts x => SMap.set ts 0 (tileKey x.1.1 x.1.2.1 x.1.2.2) x.2.1) t.tiles }
    let s2 := s1.updCore core fun c =>
      { c with copies := c.copies.map fun x => if x.is e.ctx o.use.handle then { x with used := s.tick } else x }
    s2.arrayNan e ((firstNan rs).map tinfoOf) false
  | none => s

/-- The writes of a load, and the bad codes that it read. -/
def State.completeLoad (s : State) (core : Nat) (e : ArrayEntry) (u : ResUse) (fmtWord : W32) (slotNo : Nat) : State :=
  let m := u.fill fmtWord e.ctx s.tick e.rows
  let s1 := s.updCore core fun c => { c with copies := c.copies.map fun x => if x.is e.ctx u.handle then m else x }
  if (FmtSlot.ofWord fmtWord).fmt = 11 then s1.amaxNest e.nest slotNo none false m.badCodes else s1

/-- The rows of a tile as a drain reads them: element, draw. -/
def drainRows (tiles : SMap W32) (tile m n : Nat) (lfsr : W32) : List (Nat × Nat × W32 × W32) :=
  ((List.range m).flatMap fun r => (List.range n).map fun c => (r, c)).zipWith
    (fun rc d => (rc.1, rc.2, tiles.getD (tileKey tile rc.1 rc.2) 0, d)) (drawsFrom (m * n) lfsr)

/-- The writes, the AMAX update and the NaN report of a drain. -/
def State.completeDrain (s : State) (e : ArrayEntry) (dst pitch n m tile : Nat) (slot : W32) (slotNo : Nat) (lfsr : W32) :
    State :=
  match s.teams.find? e.team with
  | some tm =>
    let sl := FmtSlot.ofWord slot
    let l := drainRows tm.tiles tile m n lfsr
    let rs := l.map fun x => (x.1, x.2.1, drainElem sl x.2.2.2 x.2.2.1)
    let s1 := (List.range m).foldl (fun s' r =>
      s'.arrayWrite e (dst + r * pitch)
        (packBytes (fmtWidth sl.fmt) ((rs.filter fun x => x.1 == r).map fun x => x.2.2.bits))) s
    let vs := l.map fun x => fmtF32.decode x.2.2.1.toNat
    let s2 := if sl.amaxEn then
        s1.amaxNest e.nest slotNo (some (BitVec.ofNat 32 (amaxOf vs))) (amaxOf vs == fmtF32.infBits false) 0
      else s1
    s2.arrayNan e ((rs.find? fun x => x.2.2.nanOut).map fun x => tinfoOf (0, x.1, x.2.1, tile))
      (rs.any fun x => x.2.2.nanIn)
  | none => s

/-- The writes of MX.TOPK. -/
def State.completeTopk (s : State) (e : ArrayEntry) (dst k n m tile : Nat) : State :=
  match s.teams.find? e.team with
  | some tm =>
    (List.range m).foldl (fun s' r =>
      let l := topK k ((List.range n).map fun c => (c, tm.tiles.getD (tileKey (tile + c / 32) r (c % 32)) 0))
      (s'.arrayWrite e (dst + 16 * r) (l.flatMap fun x => natToBytes 2 x.1)).arrayWrite e (dst + 512 + 32 * r)
        (l.flatMap fun x => natToBytes 4 x.2.toNat)) s
  | none => s

/-- The writes of MX.ZERO. -/
def State.completeZero (s : State) (e : ArrayEntry) (tile n : Nat) : State :=
  s.updTeam e.team fun t => { t with tiles := t.tiles.filter fun x => !(1024 * tile ≤ x.1 && x.1 < 1024 * (tile + n)) }

/-- The newest load that has arrived on its barrier (10 R186). -/
def State.loadArrived (s : State) (e : ArrayEntry) (u : ResUse) : State :=
  s.updRes e.ctx u.handle fun r => { r with arrived := max r.arrived u.loadGen }

/-- Everything that an operation writes. -/
def State.completeOp (s : State) (core : Nat) (e : ArrayEntry) : State :=
  match e.op with
  | .run o => s.completeRun core e o
  | .rload u src _ slotNo => (s.completeLoad core e u src.fmt slotNo).loadArrived e u
  | .drain dst pitch n m tile slot slotNo lfsr => s.completeDrain e dst pitch n m tile slot slotNo lfsr
  | .topk dst k n m tile => s.completeTopk e dst k n m tile
  | .zero tile n => s.completeZero e tile n

/-- ARRAY_OP_COMPLETE (10 R209): the first operation of the pass finishes its writes and arrives on its barrier. -/
def execArrayOpComplete (core : Nat) (s : State) : Host.Outcome State Fault Refusal :=
  match (s.core core).pass with
  | e :: rest =>
    .next (((s.completeOp core e).arrayArrive e.team e.bar).updCore core fun c => { c with pass := rest })
  | [] => .next s

/-- INSTANCE_DISCARD (10 R186): an idle instance of an older load generation goes. -/
def execInstanceDiscard (core ctx handle : Nat) (s : State) : Host.Outcome State Fault Refusal :=
  match (s.core core).copy? ctx handle, ((s.ctx ctx).handle handle).res with
  | some m, some r =>
    if m.loadGen < r.loadGen && ((s.core core).lastUpTo ctx handle m.loadGen).isNone then .next (s.updCore core fun c => c.dropCopy ctx handle)
    else .next s
  | _, _ => .next s

end Sys2Proof.Machine
end

