-- ==== Sys2Proof/Machine/Nest.lean ====
section
/-! DEFINITION. Iteration spaces (06 R125 to R138, 07 R146): bounds, rows and their records, readiness, clusters, retirement
and bound proposals, and the launch record with its checks. -/

namespace Sys2Proof.Machine

/-! ### Bounds (06 R126) -/

/-- A value clamped to the I32 range. -/
def clampI32 (x : Int) : Int := max (-2147483648) (min 2147483647 x)

/-- A bound at outer indices; coefficients on indices that are not outer are zero. -/
def Bound.eval (b : Bound) (ix : List Int) : Int :=
  clampI32 (b.c + b.a0 * ix.getD 0 0 + b.a1 * ix.getD 1 0 + b.a2 * ix.getD 2 0)

def Nest.depth (x : Nest) : Nat := x.launch.depth

/-- Lower bound of dimension k under outer indices. -/
def Nest.lower (x : Nest) (k : Nat) (outer : List Int) : Int := (x.launch.lo.getD k ⟨0, 0, 0, 0⟩).eval outer

/-- Upper bound of dimension k under outer indices; that of dimension 0 follows accepted proposals (06 R137). -/
def Nest.upper (x : Nest) (k : Nat) (outer : List Int) : Int :=
  if k = 0 then x.ub0 else (x.launch.hi.getD k ⟨0, 0, 0, 0⟩).eval outer

/-- A point lies in the space (06 R133). -/
def Nest.inSpace (x : Nest) (p : List Int) : Bool :=
  p.length == x.depth &&
  (List.range x.depth).all fun k =>
    x.lower k (p.take k) ≤ p.getD k 0 && p.getD k 0 < x.upper k (p.take k)

/-- Lexicographic order of tuples; a prefix comes first. -/
def lexLt : List Int → List Int → Bool
  | [], [] => false
  | [], _ :: _ => true
  | _ :: _, [] => false
  | a :: s, b :: t => a < b || (a == b && lexLt s t)

/-! ### Rows (06 R130 to R132) -/

/-- The first answer for the numbers from i on, count of them. -/
def searchFrom {α : Type} (f : Int → Option α) : Nat → Int → Option α
  | 0, _ => none
  | n + 1, i =>
    match f i with
    | some r => some r
    | none => searchFrom f n (i + 1)

/-- The first row with a nonempty inner range, at or above a tuple of lower indices, that extends outer indices; `n`
dimensions are left before the inner one. -/
def Nest.rowFrom (x : Nest) : Nat → List Int → List Int → Option (List Int)
  | 0, outer, _ => if x.lower outer.length outer < x.upper outer.length outer then some outer else none
  | n + 1, outer, from_ =>
    let k := outer.length
    let start := match from_ with
      | a :: _ => max (x.lower k outer) a
      | [] => x.lower k outer
    searchFrom (fun i => x.rowFrom n (outer ++ [i]) (if from_.head? = some i then from_.tail else []))
      (x.upper k outer - start).toNat start

/-- The first row at or above a tuple. -/
def Nest.rowAt (x : Nest) (from_ : List Int) : Option (List Int) := x.rowFrom (x.depth - 1) [] from_

/-- The row that follows a row, none after the only row of a nest of depth 1. -/
def Nest.rowAfter (x : Nest) (row : List Int) : Option (List Int) :=
  if row.isEmpty then none else x.rowAt (row.dropLast ++ [row.getLastD 0 + 1])

/-- Records that are live at once. -/
def rowLimit : Nat := 1024

/-- A record for a row. -/
def Nest.newRow (x : Nest) (row : List Int) : RowRec where
  outer := row
  lo := x.lower row.length row
  hi := x.upper row.length row
  retiredLow := 0
  done := 0
  issued := 0

/-- Records created in ascending order, n at most. -/
def Nest.createRows : Nat → Nest → Nest
  | 0, x => x
  | n + 1, x =>
    match x.next with
    | some row => Nest.createRows n { x with rows := x.rows ++ [x.newRow row], next := x.rowAfter row }
    | none => x

/-- The records of a nest filled up (06 R130). -/
def Nest.fillRows (x : Nest) : Nest := Nest.createRows (rowLimit - x.rows.length) x

/-- A row has wholly retired (06 R132). -/
def RowRec.whole (r : RowRec) : Bool := r.lo + r.retiredLow == r.hi

/-- The retired-below boundary: the first row that has a record, else the first that has none yet (06 R132). -/
def Nest.boundary (x : Nest) : Option (List Int) :=
  match x.rows with
  | r :: _ => some r.outer
  | [] => x.next

/-- A row lies below the boundary. -/
def Nest.rowRetired (x : Nest) (row : List Int) : Bool :=
  match x.boundary with
  | some b => lexLt row b
  | none => true

def Nest.row? (x : Nest) (row : List Int) : Option RowRec := x.rows.find? fun r => r.outer == row

/-- The record of a row changed. -/
def Nest.updRow (x : Nest) (row : List Int) (f : RowRec → RowRec) : Nest :=
  { x with rows := x.rows.map fun r => if r.outer == row then f r else r }

/-- Bit of an inner index in DONE and ISSUED, when it lies in the window (06 R131). -/
def RowRec.bit? (r : RowRec) (j : Int) : Option Nat :=
  let b := j - r.lo - r.retiredLow
  if 0 ≤ b && b < 64 then some b.toNat else none

/-! ### Readiness (06 R133) -/

/-- A predecessor counts as retired. -/
def Nest.counted (x : Nest) (q : List Int) : Bool :=
  let row := q.dropLast
  let j := q.getLastD 0
  !x.inSpace q || x.rowRetired row ||
  match x.row? row with
  | some r => j < r.lo + r.retiredLow || ((r.bit? j).elim false fun b => r.done.getLsbD b)
  | none => false

/-- The predecessor of a point by a distance vector. -/
def pointMinus (p d : List Int) : List Int := p.mapIdx fun k a => a - d.getD k 0

/-- A point is ready. -/
def Nest.ready (x : Nest) (p : List Int) : Bool :=
  x.inSpace p &&
  match x.row? p.dropLast with
  | some r =>
    match r.bit? (p.getLastD 0) with
    | some b => !r.issued.getLsbD b && x.launch.deps.all fun d => x.counted (pointMinus p d)
    | none => false
  | none => false

/-! ### Clusters (06 R142) -/

/-- Points of a whole cluster. -/
def LaunchRec.size (l : LaunchRec) : Nat := l.cw * l.ch
def LaunchRec.clustered (l : LaunchRec) : Bool := l.size != 1

/-- The inner indices of a row that a walk over whole clusters releases together: cluster k, below HI and not yet released
(log entry 26). -/
def Nest.unit (x : Nest) (r : RowRec) (k : Nat) : List Int :=
  let lo := r.lo + k * x.launch.size
  ((List.range x.launch.size).map fun (i : Nat) => lo + (i : Int)).filter fun j =>
    j < r.hi && r.lo + r.retiredLow ≤ j && (r.bit? j).elim true fun b => !r.issued.getLsbD b

/-- A unit of a row is ready: it has points, and all of them are ready. -/
def Nest.unitReady (x : Nest) (r : RowRec) (k : Nat) : Bool :=
  !(x.unit r k).isEmpty && (x.unit r k).all fun j => x.ready (r.outer ++ [j])

/-- The numbers of the units that meet the window of a row. -/
def Nest.unitsOf (x : Nest) (r : RowRec) : List Nat :=
  let first := r.retiredLow / x.launch.size
  (List.range (64 / x.launch.size + 2)).map fun i => first + i

/-- The first ready unit (06 R134). -/
def Nest.firstReady (x : Nest) : Option (RowRec × Nat) :=
  x.rows.findSome? fun r => ((x.unitsOf r).find? fun k => x.unitReady r k).map fun k => (r, k)

/-- The points of a unit with TEAM and CLUS, which read 0 in a nest without clusters. -/
def Nest.unitPoints (x : Nest) (r : RowRec) (k : Nat) : List ReadyPoint :=
  (x.unit r k).map fun j =>
    if x.launch.clustered then ⟨r.outer ++ [j], (j - r.lo - k * x.launch.size).toNat, k⟩
    else ⟨r.outer ++ [j], 0, 0⟩

/-- Every unit of the rows that have records, in ascending order, released or not: the points of a persistent nest, whose rows
hold at most 64 points (06 R144). -/
def Nest.allUnits (x : Nest) : List (List ReadyPoint) :=
  x.rows.flatMap fun r => (List.range ((r.hi - r.lo).toNat / x.launch.size + 1)).filterMap fun k =>
    let l := x.unitPoints r k
    if l.isEmpty then none else some l

/-! ### Release and retirement (06 R134) -/

/-- The nest after the release of points. -/
def Nest.release (x : Nest) (ps : List ReadyPoint) : Nest :=
  ps.foldl (fun x p =>
    let y := x.updRow p.ix.dropLast fun r =>
      match r.bit? (p.ix.getLastD 0) with
      | some b => { r with issued := r.issued ||| (1#64 <<< b) }
      | none => r
    { y with
      released := y.released + 1
      maxIx0 := some (match y.maxIx0 with
        | some m => max m (p.ix.getD 0 0)
        | none => p.ix.getD 0 0) }) x

/-- PREFIX moved over the points that have retired from the low end, n at most. -/
def RowRec.slide : Nat → RowRec → RowRec
  | 0, r => r
  | n + 1, r =>
    if r.done.getLsbD 0 then
      RowRec.slide n { r with done := r.done >>> 1, issued := r.issued >>> 1, retiredLow := r.retiredLow + 1 }
    else r

/-- The record of a row after the point with an inner index has retired. -/
def RowRec.retire (r : RowRec) (j : Int) : RowRec :=
  match r.bit? j with
  | some b => RowRec.slide 64 { r with done := r.done ||| (1#64 <<< b) }
  | none => r

/-- The nest after a point has retired: the record, the freed records, and the new ones (06 R130, R132, R134). -/
def Nest.retire (x : Nest) (p : List Int) : Nest :=
  let y := x.updRow p.dropLast fun r => r.retire (p.getLastD 0)
  Nest.fillRows { y with rows := y.rows.dropWhile RowRec.whole, retired := y.retired + 1 }

/-- Every point within the bounds has been released and has retired (06 R138). -/
def Nest.done (x : Nest) : Bool := x.rows.isEmpty && x.next.isNone

/-! ### Bound proposals (06 R137, 07 R146) -/

/-- The walker accepts a proposal. -/
def Nest.accepts (x : Nest) (nb : Int) : Bool :=
  !x.done && !x.launch.persist && (match x.maxIx0 with
    | some m => m < nb
    | none => true)

/-- The nest after an accepted proposal. -/
def Nest.rebound (x : Nest) (nb : Int) : Nest :=
  if x.depth = 1 then { x with ub0 := nb, rows := x.rows.map fun r => { r with hi := nb } }
  else
    let y : Nest := { x with ub0 := nb }
    if x.ub0 < nb then
      Nest.fillRows { y with next := match x.next with
        | some r => some r
        | none => y.rowAt [x.ub0] }
    else
      Nest.fillRows { y with
        rows := x.rows.filter fun r => r.outer.getD 0 0 < nb
        next := x.next.filter fun r => r.getD 0 0 < nb }

/-- The points that are ready (06 R133, 07 R146, log entry 27). -/
def Nest.readyPoints (x : Nest) : List (List Int) :=
  x.rows.flatMap fun r =>
    ((List.range 64).map fun (b : Nat) => r.outer ++ [r.lo + r.retiredLow + (b : Int)]).filter x.ready

/-! ### The launch record (06 R125 to R128) -/

/-- Bits lo to lo + n − 1 of doubleword at an offset of a record. -/
def recBits (b : List Byte) (off lo n : Nat) : Nat :=
  bytesToNat ((b.drop off).take 8) / 2 ^ lo % 2 ^ n

/-- The value of an n-bit field as a signed number. -/
def signedField (n v : Nat) : Int := if v < 2 ^ (n - 1) then v else (v : Int) - 2 ^ n

/-- The bound descriptor at an offset (06 Table 6-2). -/
def recBound (b : List Byte) (off : Nat) : Bound where
  c := signedField 32 (recBits b off 0 32)
  a0 := signedField 7 (recBits b off 32 7)
  a1 := signedField 7 (recBits b off 40 7)
  a2 := signedField 7 (recBits b off 48 7)

/-- The components of the distance vector at an offset (06 Table 6-3). -/
def recDep (b : List Byte) (off : Nat) : List Int :=
  [0, 16, 32, 48].map fun lo => signedField 9 (recBits b off lo 9)

/-- NDEP of a record as it stands. -/
def recNdep (b : List Byte) : Nat := recBits b 0 8 4

/-- A record read as Table 6-1 lays it out. -/
def LaunchRec.ofBytes (b : List Byte) : LaunchRec where
  depth := recBits b 0 0 2 + 1
  deps := (List.range (recNdep b)).map fun n => (recDep b (0x90 + 8 * n)).take (recBits b 0 0 2 + 1)
  cw := recBits b 0 20 3
  ch := recBits b 0 24 2
  persist := recBits b 0 16 1 == 1
  gang := recBits b 0 17 1 == 1
  shape := ⟨recBits b 8 0 5 + 1, (recBits b 8 8 5 + 1) * 8, recBits b 8 32 32, recBits b 8 24 7, recBits b 8 16 5⟩
  entry := BitVec.ofNat 64 (recBits b 0x10 0 64)
  aff0 := BitVec.ofNat 64 (recBits b 0x18 0 64)
  aff1 := BitVec.ofNat 64 (recBits b 0x20 0 64)
  fslots := (List.range 8).map fun n => BitVec.ofNat 32 (recBits b (0x30 + 4 * n) 0 32)
  lo := (List.range 4).map fun k => recBound b (0x50 + 16 * k)
  hi := (List.range 4).map fun k => recBound b (0x58 + 16 * k)

/-- A reserved bit of the record is set: RECORD_RSVD. -/
def recReserved (b : List Byte) : Bool :=
  [(0, 26, 38), (0, 23, 1), (0, 18, 2), (0, 12, 4), (0, 2, 6), (8, 31, 1), (8, 21, 3), (8, 13, 3), (8, 5, 3),
    (0x28, 0, 64)].any (fun f => recBits b f.1 f.2.1 f.2.2 != 0) ||
  (List.range 8).any (fun i =>
    [(55, 9), (47, 1), (39, 1)].any fun f => recBits b (0x50 + 8 * i) f.1 f.2 != 0) ||
  (List.range 8).any (fun n =>
    [(57, 7), (41, 7), (25, 7), (9, 7)].any fun f => recBits b (0x90 + 8 * n) f.1 f.2 != 0) ||
  (List.range 6).any fun i => recBits b (0xD0 + 8 * i) 0 64 != 0

/-- The coefficients of a bound of dimension k are zero on indices that are not outer. -/
def Bound.outerOnly (x : Bound) (k : Nat) : Bool :=
  (1 ≤ k || x.a0 == 0) && (2 ≤ k || x.a1 == 0) && (3 ≤ k || x.a2 == 0)

/-- BOUND. -/
def recBadBound (b : List Byte) (l : LaunchRec) : Bool :=
  (List.range 4).any fun k =>
    let lo := l.lo.getD k ⟨0, 0, 0, 0⟩
    let hi := l.hi.getD k ⟨0, 0, 0, 0⟩
    !lo.outerOnly k || !hi.outerOnly k ||
    (l.depth ≤ k && (recBits b (0x50 + 16 * k) 0 64 != 0 || recBits b (0x58 + 16 * k) 0 64 != 0))

/-- The first nonzero component is positive (06 R127). -/
def lexPositive : List Int → Bool
  | [] => false
  | a :: t => 0 < a || (a == 0 && lexPositive t)

/-- DEP. -/
def recBadDep (b : List Byte) (l : LaunchRec) : Bool :=
  8 < recNdep b ||
  (List.range 8).any fun n =>
    let d := recDep b (0x90 + 8 * n)
    if n < recNdep b then
      d.contains (-256) || !lexPositive d || (d.drop l.depth).any (· != 0)
    else recBits b (0x90 + 8 * n) 0 64 != 0

/-- TEAM_SHAPE. -/
def TeamShape.bad (t : TeamShape) : Bool :=
  458752 < t.scratch || 64 < t.tiles || t.groups ≤ t.producer || 4096 < t.groups * t.vregs

/-- CLUSTER. -/
def LaunchRec.badCluster (l : LaunchRec) : Bool :=
  l.cw == 0 || l.cw == 7 || l.ch == 0 || l.ch == 3 ||
  (l.clustered && l.deps.any fun d => (d.take (l.depth - 1)).all (· == 0))

/-- A format slot word is legal (03 Table 3-6). -/
def fslotOk (w : W32) : Bool :=
  w.extractLsb' 10 22 == 0 && (w.extractLsb' 7 2).toNat < 2 && (w.extractLsb' 4 3).toNat < 5 &&
  (w.extractLsb' 0 4).toNat < 13

/-- A nest of a record before it is launched; its partition cursor starts at the lowest partition (log entry 96). -/
def LaunchRec.nest (l : LaunchRec) (ctx vd queue packet : Nat) (parts : List Nat) (now : Nat) : Nest where
  ctx := ctx
  vd := vd
  queue := queue
  packet := packet
  launch := l
  ub0 := (l.hi.getD 0 ⟨0, 0, 0, 0⟩).eval []
  released := 0
  retired := 0
  rows := []
  next := none
  maxIx0 := none
  fslots := l.fslots
  amax := List.replicate 8 0
  amaxst := List.replicate 8 0
  cursor := 0
  parts := parts
  proposals := []
  started := !l.persist
  plan := []
  since := now
  phase := .active
  fault := none
  multi := false

/-- The nest with its first records (06 R130). -/
def Nest.open (x : Nest) : Nest := Nest.fillRows { x with next := x.rowAt [] }

/-- PERSIST, but for the residency of the points: vectors, more than 1,024 rows, a row above 64 points, or a gang that is not
persistent. -/
def Nest.badPersist (x : Nest) : Bool :=
  (x.launch.persist && (!x.launch.deps.isEmpty || x.next.isSome || x.rows.any fun r => 64 < r.hi - r.lo)) ||
  (x.launch.gang && !x.launch.persist)

end Sys2Proof.Machine
end

