-- ==== Sys2Proof/Machine/Turn.lean ====
section
/-! DEFINITION. One turn of the machine before its word or event runs: who moves (log entry 2), the clocks (log entry 12), the
replacements that the manual leaves to the caches (log entries 10 and 11), and the placing of a first word (log entry 3). -/

namespace Sys2Proof.Machine

/-! ### Fair issue (02 R51, R52, 11 R211) -/

/-- A slot of a group of the core and partition of another. -/
structure SlotRef where
  team : Nat
  grp : Nat
  slot : Bool
  passed : Nat
  deriving DecidableEq, Repr

/-- The partition of a group on its core (02 R50). -/
def Group.part (g : Group) : Nat := g.place / 16

/-- Opportunities for which a ready slot was passed over. -/
def Group.passed (g : Group) (b : Bool) : Nat := if b then g.passed1 else g.passed0

/-- A slot that is ready to issue. -/
def State.slotReady (s : State) (t n : Nat) (b : Bool) : Bool := (s.siteAt t n b).elim false fun w => w.ready && w.unstopped s

/-- The ready slots of a partition of a core. -/
def State.readySlots (s : State) (core part : Nat) : List SlotRef :=
  s.teams.flatMap fun e =>
    if e.2.core = core then
      (e.2.groups.mapIdx fun n g =>
        if g.part = part then
          ([false, true].filter fun b => s.slotReady e.1 n b).map fun b => (⟨e.1, n, b, g.passed b⟩ : SlotRef)
        else []).flatten
    else []

/-- A ready slot that has been passed over for this many opportunities issues before any other: with at most 32 slots in a
partition, none is passed over for more than 64 (02 R51). -/
def passLimit : Nat := 32

/-- The slot that was passed over most. -/
def mostPassed (l : List SlotRef) : Option SlotRef :=
  l.foldl (fun best x => match best with
    | some y => if y.passed < x.passed then some x else best
    | none => some x) none

/-- The slot that takes an opportunity that the schedule gives to a slot of the same partition. -/
def State.fairSlot (s : State) (t n : Nat) (b : Bool) : Nat × Nat × Bool :=
  match s.teams.find? t with
  | none => (t, n, b)
  | some tm =>
    match tm.groups[n]? with
    | none => (t, n, b)
    | some g =>
      match mostPassed (s.readySlots tm.core g.part) with
      | some x => if passLimit ≤ x.passed then (x.team, x.grp, x.slot) else (t, n, b)
      | none => (t, n, b)

/-- A Sluice context of a core that is ready. -/
def State.slReady (s : State) (core n : Nat) : Bool := (s.slAt core n).elim false fun w => !w.waits s

/-- The Sluice context that takes an opportunity of its processor: the ready one that was passed over most (11 R211). -/
def State.fairContext (s : State) (core n : Nat) : Nat :=
  let passed := fun m => ((s.core core).sl m).passed
  ([0, 1, 2, 3].filter (s.slReady core)).foldl (fun best m => if passed best < passed m then m else best) n

/-- What the rotation offers for a group: its words, what ends its waits, and its stops. -/
def Group.offers (t n : Nat) (g : Group) : List Action :=
  ([false, true].flatMap fun b =>
    [.issue (.grp t n b), .event (.rejectedReissue t n b), .event (.requestAged t n b), .event (.mwaitWake t n b),
      .event (.mwaitTimeout t n b), .event (.mwaitHostPoll t n b), .event (.trapEntry t n b)]) ++
  (g.pend.map fun p => .event (.longLatencyResult t n p.id)) ++
  [.event (.specWindowCommit t n), .event (.groupStop t n), .event (.forcedSave t n)]

/-- What it offers for a team. -/
def Team.offers (t : Nat) (tm : Team) (cores : List Nat) : List Action :=
  (tm.groups.mapIdx fun n g => g.offers t n).flatten ++
  (tm.absent.map fun l => .event (.presenceBitSet t l.1)) ++ (tm.rdv.map fun r => .event (.rendezvousServe t r.1)) ++
  [.event (.barrierComplete t), .event (.itemqPushServed t), .event (.pointRetire t), .event (.teamHalt t)] ++
  (if tm.phase = .saved then cores.map fun c => .event (.contextResume t c) else [])

/-- What it offers for a core. -/
def Core.offers (core : Nat) (c : Core) (ctxs : List Nat) : List Action :=
  ([0, 1, 2, 3].flatMap fun n =>
    [.issue (.sluice core n), .event (.transferPerform core n), .event (.sluiceContextEnded core n),
      .event (.sluiceIndexLoadData core n), .event (.sluicePacketFault core n)]) ++
  [.event (.arrayEntryStart core), .event (.residencyFirstUse core), .event (.arrayOpComplete core), .event (.contextSave core),
    .event (.drainEnd core)] ++
  (c.copies.map fun m => .event (.instanceDiscard core m.ctx m.index)) ++
  ctxs.map fun x => .event (.stopRequest core x)

/-- What it offers for memory: walks, promotions, drains of buffers, collapses, and the replacement of lines of L1. -/
def MemState.offers (m : MemState) : List Action :=
  (m.walks.flatMap fun e => e.2.map fun x => .event (.pageWalk x.core x.ctx x.page)) ++
  (m.holders.map fun h => .event (.holderPromotion h.1)) ++
  (m.ingress.flatMap fun b => b.2.map fun e => .event (.ingressDrain (b.1 / 8) e.slice (b.1 % 8))) ++
  (m.collapses.flatMap fun c => [.event (.collapseEvent c.ctx c.page), .event (.collapseRelease c.ctx c.page)]) ++
  m.l1.flatMap fun e => e.2.map fun l => .evictL1 e.1 l.1

/-- What it offers for nests, gangs, ready queues, reservations and engine words. -/
def State.workOffers (s : State) : List Action :=
  (s.nests.flatMap fun e => [.event (.pointRelease e.1), .event (.persistentStart e.1), .event (.boundProposalApply e.1),
    .event (.nestAbort e.1)]) ++
  (s.gangs.flatMap fun e => [.event (.gangCommit e.1), .event (.gangTimeout e.1)]) ++
  (s.ready.map fun e => .event (.clusterReservation (e.1 / 96) (e.1 % 96 / 3) (e.1 % 3))) ++
  (s.reservations.map fun e => .event (.reservationAged e.1)) ++
  (s.engines.flatMap fun e => [.event (.engineComplete e.1), .event (.gatherCountReturn e.1), .event (.engineLateFault e.1),
    .event (.collectiveTimeout e.1)]) ++
  (List.range coreCount).flatMap fun c => [.event (.teamStart c), .event (.clusterStart c)]

/-- What it offers for the package: slices, the driver's commands, and queues with their packets. -/
def State.packageOffers (s : State) : List Action :=
  ((List.range 32).flatMap fun p => [.event (.sliceStart p), .event (.weight0Preempt p)]) ++
  (s.basins.map fun e => .event (.regionDrainEnd e.1)) ++ (s.sd.map fun e => .event (.shootdownComplete e.1)) ++
  (s.ctxs.map fun e => .event (.ctxDestroyComplete e.1)) ++
  (s.queues.flatMap fun e => [.event (.fountainheadStep (e.1 / 64)), .event (.widxReconcile e.1), .event (.nestLaunchDeferred e.1)] ++
    e.2.inflight.map fun p => .event (.packetComplete e.1 p.id))

/-- What every turn in two serves in rotation, so that everything that may issue, start or end does so in the end (02 R52): the steps
of the device itself, of which each does nothing where it has nothing to do, and the requests that were turned away. -/
def State.rotation (s : State) : List Action :=
  (s.teams.flatMap fun e => e.2.offers e.1 (s.cores.map (·.1))) ++
  (s.cores.flatMap fun e => e.2.offers e.1 (s.ctxs.map (·.1))) ++ s.m.offers ++ s.workOffers ++ s.packageOffers ++
  s.turned.map (·.2.1)

/-- What the schedule asks for: one turn in two goes by rotation, the others as the manual leaves open (log entry 2). -/
def State.wish (s : State) : Action :=
  if s.tick % 2 = 1 then
    let l := s.rotation
    (l[s.tick / 2 % l.length]?).getD (Config.schedule s.tick)
  else Config.schedule s.tick

/-- The action of this turn: the head of the agenda, or what the schedule asks for, with opportunities to issue given fairly. -/
def State.action (s : State) : Action :=
  match s.agenda with
  | a :: _ => a
  | [] =>
    match s.wish with
    | .issue (.grp t n b) => let x := s.fairSlot t n b; .issue (.grp x.1 x.2.1 x.2.2)
    | .issue (.sluice core n) => .issue (.sluice core (s.fairContext core n))
    | a => a

/-- The count of a slot after an opportunity of its partition: 0 for the one that takes it and for one that is not ready. -/
def passedNext (ready taken : Bool) (n : Nat) : Nat := if ready && !taken then n + 1 else 0

/-- The counts of the slots of a partition after a slot of it has taken an opportunity (02 R51). -/
def State.passGroups (s : State) (t n : Nat) (b : Bool) : SMap Team :=
  match (s.teams.find? t).bind fun tm => (tm.groups[n]?).map fun g => (tm.core, g.part) with
  | none => s.teams
  | some (core, part) =>
    s.teams.mapVals fun t' tm =>
      if tm.core = core then
        { tm with groups := tm.groups.mapIdx fun n' g =>
            if g.part = part then
              { g with
                passed0 := passedNext (s.slotReady t' n' false) (t' == t && n' == n && !b) g.passed0
                passed1 := passedNext (s.slotReady t' n' true) (t' == t && n' == n && b) g.passed1 }
            else g }
      else tm

/-- The counts of the contexts of a Sluice processor after one of them has taken an opportunity (11 R211). -/
def State.passContexts (s : State) (core n : Nat) : SMap Core :=
  if (s.cores.find? core).isNone then s.cores
  else
    s.cores.put core ([0, 1, 2, 3].foldl (fun c m =>
      c.setSl m { c.sl m with passed := passedNext (s.slReady core m) (m == n) (c.sl m).passed }) (s.core core))

/-- The state at the start of the turn: the action is taken from the agenda, and from the requests that were turned away, whose first
rejection stands in `retry` for this turn; and the model's counter goes on by one. CLK goes on by a
number of cycles that the manual leaves open, and TIME by 2 ns for every 3 of them; while the controller lowers the clock, TIME
goes on by more (00 R1, 03 Table 3-2, 19 R302, log entry 12). -/
def State.turn (s : State) : State :=
  let c := Config.freeNat s.tick 100
  { s with
    agenda := s.agenda.tail
    turned := s.turned.filter fun x => x.2.1 != s.action
    retry := (s.turned.find? fun x => x.2.1 == s.action).map (·.2.2)
    tick := s.tick + 1
    clk := s.clk + c
    time := s.time + (s.sub + 2 * c) / 3 + (if s.mgmt.lowered then Config.freeNat s.tick 101 else 0)
    sub := (s.sub + 2 * c) % 3
    teams := match s.action with
      | .issue (.grp t n b) => s.passGroups t n b
      | _ => s.teams
    cores := match s.action with
      | .issue (.sluice core n) => s.passContexts core n
      | _ => s.cores }

/-- A TLB of a core and that of its basin drop their entries number i (01 R25). -/
def State.evictTlb (s : State) (core i : Nat) : State :=
  { s with m := { s.m with
      l1tlb := s.m.l1tlb.upd core fun l => l.eraseIdx i
      l2tlb := s.m.l2tlb.upd (coreBasin core) fun l => l.eraseIdx i } }

/-! ### Placing a first word -/

/-- Virtual and physical address of the placed word. -/
def bootVa : Nat := 0x4100000000
def bootPa : Nat := 0x10000

/-- Registers of a group at team start (02 R33, 03 R53): `g` seeds the LFSRs (05 R109). -/
def GroupRegs.start (g : Nat) (entry : W64) : GroupRegs where
  v := []
  s := []
  p := []
  s0 := ⟨entry, 0xFFFFFFFF, 0⟩
  s1 := ⟨0, 0, 0⟩
  join := []
  calls := []
  yieldDepth := 0
  loopHead := none
  exited := 0
  fpm := 0x80
  ltile := 32
  gstat := 0
  lfsr := allLanes.map fun L => (L, BitVec.ofNat 32 (g * 32 + L + 1))

/-- A group that has not issued. -/
def GroupStatus.start : GroupStatus := ⟨false, 0, false, false, none, 0, false, none⟩
def Group.start (g : Nat) (entry : W64) (place : Nat) : Group where
  r := GroupRegs.start g entry
  t := TrapRegs.reset
  w0 := none
  w1 := none
  pend := []
  nextId := 0
  spec := none
  st := GroupStatus.start
  place := place
  passed0 := 0
  passed1 := 0
  fence0 := 0
  fence1 := 0
  held0 := []
  held1 := []

/-- A team of one group with the largest grants, for the placed word. -/
def bootTeam : Team where
  nest := 0
  ctx := 1
  core := 0
  ix := [0, 0, 0, 0]
  teamIdx := 0
  clus := 0
  peers := []
  shape := ⟨1, 256, 458752, 64, 0⟩
  groups := [Group.start 0 (BitVec.ofNat 64 bootVa) 0]
  pad := []
  absent := []
  objects := []
  tiles := []
  rdv := []
  itemq := []
  itemWait := []
  phase := .running
  started := 0
  sluice := []

/-- A nest of that one point. -/
def bootNest : Nest where
  ctx := 1
  vd := 0
  queue := 0
  packet := 0
  launch := ⟨1, [], 1, 1, false, false, ⟨1, 256, 458752, 64, 0⟩, BitVec.ofNat 64 bootVa, 0, 0, [0, 0, 0, 0, 0, 0, 0, 0],
    [⟨0, 0, 0, 0⟩], [⟨1, 0, 0, 0⟩]⟩
  ub0 := 1
  released := 1
  retired := 0
  rows := [⟨[], 0, 1, 0, 0, 1⟩]
  next := none
  maxIx0 := some 0
  fslots := [0, 0, 0, 0, 0, 0, 0, 0]
  amax := [0, 0, 0, 0, 0, 0, 0, 0]
  amaxst := [0, 0, 0, 0, 0, 0, 0, 0]
  cursor := 0
  parts := []
  proposals := []
  started := true
  plan := []
  since := 0
  phase := .active
  fault := none
  multi := false

/-- The state with an instruction word placed where the next step fetches: in an executable page of a live context, at the
PC of the only live slot of a team, or of a running Sluice context for a Sluice word. -/
def State.place (s : State) (word : W64) : State :=
  let sluice := !word.getLsbD 63 && sluiceOpcode (word.extractLsb' 55 8).toNat
  let s1 : State := { s with
    m := { s.m with
      mem := (List.range 8).foldl
        (fun mem i => SMap.set mem Memory.unlisted (bootPa + i) ((word >>> (8 * i)).setWidth 8)) s.m.mem
      l1tlb := s.m.l1tlb.put 0 [⟨1, bootVa / 4096, 1, bootPa / 4096, bootPa / 4096, 0, 0, true, true, false⟩] }
    keys := s.keys.put 0 { s.key 0 with tenLo := 1 }
    ctxs := s.ctxs.put 1 { s.ctx 1 with state := .live }
    cur := none }
  if sluice then
    let s2 := s1.freshCode.updSl 0 0 fun c => { c with state := .running, pc := BitVec.ofNat 64 bootVa, ctx := 1 }
    { s2 with agenda := [.issue (.sluice 0 0)] }
  else
    { s1 with
      teams := s1.teams.put 0 bootTeam
      nests := s1.nests.put 0 bootNest
      agenda := [.issue (.grp 0 0 false)] }

end Sys2Proof.Machine
end

