-- ==== Sys2Proof/Machine/Walker.lean ====
section
/-! DEFINITION. Placement of points (06 R139 to R145), the resources of cores and the start of teams (02 R33, R50, 03 R53, R56,
08 R147), and the retirement of points (06 R135, R138). -/

namespace Sys2Proof.Machine

/-- A number that no team, nest, ready entry or engine word has had, and the state that has given it out. -/
def State.fresh (s : State) : Nat × State := (s.serial, { s with serial := s.serial + 1 })

/-! ### Resources of a core (02 R33, R50, 03 R56, 08 R147) -/

/-- What the teams of a core take: group slots, v registers × groups, tiles and scratchpad bytes. -/
structure CoreUse where
  groups : Nat
  regs : Nat
  tiles : Nat
  pad : Nat
  deriving DecidableEq, Repr

def CoreUse.none : CoreUse := ⟨0, 0, 0, 0⟩

/-- The scratchpad allocation of a team of a shape (03 R62). -/
def TeamShape.padBytes (t : TeamShape) : Nat := (t.scratch + 127) / 128 * 128

/-- n more teams of a shape. -/
def CoreUse.add (u : CoreUse) (t : TeamShape) (n : Nat) : CoreUse where
  groups := u.groups + n * t.groups
  regs := u.regs + n * (t.groups * t.vregs)
  tiles := u.tiles + n * t.tiles
  pad := u.pad + n * t.padBytes

/-- A core can hold it: 128 group slots, 4,096 registers, 64 tiles and 448 KiB of scratchpad. -/
def CoreUse.fits (u : CoreUse) : Bool := u.groups ≤ 128 && u.regs ≤ 4096 && u.tiles ≤ 64 && u.pad ≤ 458752

/-- Teams of a shape for which a core still has room. -/
def CoreUse.room (u : CoreUse) (t : TeamShape) : Nat :=
  let per := fun (free each : Nat) => if each = 0 then 128 else free / each
  min (min (per (128 - u.groups) t.groups) (per (4096 - u.regs) (t.groups * t.vregs)))
    (min (per (64 - u.tiles) t.tiles) (per (458752 - u.pad) t.padBytes))

/-- What a team takes where it is: a retired one of a cluster its scratchpad alone (06 R142), a saved one nothing. -/
def Team.use (t : Team) (u : CoreUse) : CoreUse :=
  match t.phase with
  | .saved => u
  | .retired => { u with pad := u.pad + t.shape.padBytes }
  | _ => u.add t.shape 1

/-- A team of a cluster some of whose teams are saved; the scratchpad of a retired one is saved with them (14 R262). -/
def State.clusterSaved (s : State) (t : Team) : Bool :=
  t.peers.vals.any fun k => (s.teams.find? k).any fun y => y.phase == .saved

/-- What the teams of a core take. -/
def State.useOf (s : State) (core : Nat) : CoreUse :=
  s.teams.foldl (fun u e => if e.2.core = core && !(e.2.phase == .retired && s.clusterSaved e.2) then e.2.use u else u) CoreUse.none

/-- The scratchpad share in units of 64 KiB (08 R147). -/
def CoreUse.units (u : CoreUse) : Nat := (u.pad + 65535) / 65536

/-- The split of a core after its teams have changed: L1 writes back and invalidates before it loses units (08 R147). -/
def State.resplit (s : State) (core : Nat) : State :=
  let n := (s.useOf core).units
  let s1 := if (s.core core).padUnits < n then (s.wbCore core).setL1 core [] else s
  s1.updCore core fun c => { c with padUnits := n }

/-! ### Group slots (02 R50) -/

/-- Group slots in use on a core. -/
def State.placesUsed (s : State) (core : Nat) : List Nat :=
  s.teams.flatMap fun e =>
    if e.2.core = core && e.2.phase != .saved && e.2.phase != .retired then e.2.groups.map (·.place) else []

/-- Free slots of a scheduler partition. -/
def freeIn (used : List Nat) (p : Nat) : List Nat :=
  ((List.range 16).map fun i => 16 * p + i).filter fun n => !used.contains n

/-- The partition with the most free slots, the lowest on ties. -/
def emptiest (used : List Nat) : Nat :=
  (List.range 8).foldl (fun b p => if (freeIn used b).length < (freeIn used p).length then p else b) 0

/-- The slots of groups n to n + count − 1 of a team. -/
def placeGroups (b : Nat) : Nat → Nat → List Nat → List Nat
  | 0, _, _ => []
  | count + 1, g, used =>
    let p := ((List.range 8).map fun i => (b + g + i) % 8).find? fun p => !(freeIn used p).isEmpty
    let at_ := (p.bind fun p => (freeIn used p).head?).getD 0
    at_ :: placeGroups b count (g + 1) (at_ :: used)

/-! ### The start of teams (02 R33, 03 R53, 06 R135, R136) -/

/-- A team at its start. -/
def Nest.newTeam (x : Nest) (id : Nat) (p : ReadyPoint) (core serial : Nat) (places : List Nat) : Team where
  nest := id
  ctx := x.ctx
  core := core
  ix := (List.range 4).map fun k => BitVec.ofInt 32 (p.ix.getD k 0)
  teamIdx := p.teamIdx
  clus := p.clus
  peers := []
  shape := x.launch.shape
  groups := places.mapIdx fun g at_ => Group.start g x.launch.entry at_
  pad := []
  absent := []
  objects := []
  tiles := []
  rdv := []
  itemq := []
  itemWait := []
  phase := .running
  started := serial
  sluice := []

/-- One team started on a core: its groups take slots, the split follows, and the start acquires at device scope. -/
def State.startTeam (s : State) (id : Nat) (x : Nest) (p : ReadyPoint) (core : Nat) : Nat × State :=
  let (n, s1) := s.fresh
  let used := s1.placesUsed core
  let t := x.newTeam id p core n (placeGroups (emptiest used) x.launch.shape.groups 0 used)
  (n, (({ s1 with teams := s1.teams.put n t }).resplit core).acquire core 3)

/-- The points of a unit started together, each on its core. -/
def State.startUnit (s : State) (id : Nat) (x : Nest) (ps : List ReadyPoint) (cores : List Nat) : State :=
  let r := (ps.zip cores).foldl (fun (st : List (Nat × Nat) × State) pc =>
    let (n, s') := st.2.startTeam id x pc.1 pc.2
    (st.1 ++ [(pc.1.teamIdx, n)], s')) ([], s)
  if x.launch.clustered then
    let peers := r.1.foldl (fun (m : SMap Nat) e => m.put e.1 e.2) []
    r.1.foldl (fun s' e => s'.updTeam e.2 fun t => { t with peers := peers }) r.2
  else r.2

/-! ### Where a nest may run -/

/-- The requester ports of a hardware partition, ascending. -/
def State.portsOf (s : State) (part : Nat) : List Nat :=
  (List.range 32).filter fun n => (s.port n).part.toNat == part

/-- A partition runs a slice of a virtual device (15 R269, R272). -/
def State.runsIn (s : State) (part vd : Nat) : Bool :=
  match (s.part part).slice with
  | some x => x.vd == vd
  | none => false

/-- Scheduling ticks since a time in ns: 1/1,500 µs each. -/
def State.ticksSince (s : State) (t : Nat) : Int := ((s.time - t) * 3 / 2 : Nat)

/-- A slice must send its stop request to a context: its own drain time before the end, or at once when the weight-0 rule has
ended it (15 R269, R270). -/
def State.stopDue (s : State) (x : Slice) (ctx : Nat) : Bool :=
  x.stopped || x.length ≤ s.ticksSince x.start + (s.ctx ctx).drain * 1500

/-- Points of a context of a virtual device may start on a core: a slice of the device runs there whose stop request to the context is
not due, on a core that holds nothing of it either; and the context drains neither on the core nor in another partition, nor has it
drained there in this slice (14 R260 step 1, R263, 15 R269). -/
def State.open (s : State) (ctx vd core : Nat) : Bool :=
  s.runsIn (s.partOf core) vd &&
  !((s.part (s.partOf core)).slice.any fun x => x.ended.contains (core, ctx) || s.stopDue x ctx) &&
  s.cores.all fun e =>
    (e.2.draining.find? ctx).isNone || (e.1 != core && s.partOf e.1 == s.partOf core)

/-- The corners, row and column, of the rectangles of w columns and h rows in a port group. -/
def corners (w h : Nat) : List (Nat × Nat) :=
  (List.range (3 - h)).flatMap fun r => (List.range (7 - w)).map fun c => (r, c)

/-- The cores of a rectangle from a corner, for the points of a unit by TEAM (02 R34). -/
def rectCores (port : Nat) (corner : Nat × Nat) (w : Nat) (ps : List ReadyPoint) : List Nat :=
  ps.map fun p => pgCore port (corner.1 + p.teamIdx / w) (corner.2 + p.teamIdx % w)

/-! ### Rectangles (06 R143) -/

/-- An element put in its place in a list whose first components fall, behind the equal ones. -/
def insertDown {α : Type} (x : Nat × α) : List (Nat × α) → List (Nat × α)
  | [] => [x]
  | y :: t => if y.1 < x.1 then x :: y :: t else y :: insertDown x t

/-- The rectangles of a partition for the points of a unit, each with its corner core: the one with the most free resources first, and
the lowest port group on a tie, by the teams for which its cores have room, where `taken` counts those that are spoken for
(06 R143, log entry 28). -/
def State.rects (s : State) (l : LaunchRec) (part : Nat) (taken : SMap Nat) (ps : List ReadyPoint) : List (Nat × List Nat) :=
  ((s.portsOf part).flatMap fun port => (corners l.cw l.ch).map fun corner =>
    let cores := rectCores port corner l.cw ps
    (cores.foldl (fun n c => n + ((s.useOf c).add l.shape (taken.getD c 0)).room l.shape) 0,
      pgCore port corner.1 corner.2, cores)).foldl (fun sorted x => insertDown x sorted) [] |>.map (·.2)

/-! ### Plans for nests whose points start together (06 R144, R145) -/

/-- Cores counted once more in a table. -/
def takeCores (taken : SMap Nat) (cores : List Nat) : SMap Nat :=
  cores.foldl (fun (m : SMap Nat) c => m.put c (m.getD c 0 + 1)) taken

/-- Units given rectangles in ascending order, each the first with which the units after it find theirs too. -/
def planUnits (cands : SMap Nat → List ReadyPoint → List (List Nat)) : List (List ReadyPoint) → SMap Nat → Option Plan
  | [], _ => some []
  | ps :: rest, taken =>
    (cands taken ps).findSome? fun cores =>
      (planUnits cands rest (takeCores taken cores)).map fun pl => (ps, cores) :: pl

/-- Units on a partition, as if its cores were idle. -/
def State.planPart (s : State) (l : LaunchRec) (part : Nat) (us : List (List ReadyPoint)) : Option Plan :=
  let cands := fun (taken : SMap Nat) ps =>
    ((s.rects l part taken ps).map (·.2)).filter fun cores => cores.all fun c => taken.getD c 0 < CoreUse.none.room l.shape
  let cap := 12 * (s.portsOf part).length * CoreUse.none.room l.shape
  if us.flatten.length ≤ cap then planUnits cands us [] else none

/-- Units dealt to partitions in their order, each filled to its capacity: whether the points could all be resident, and where they
are reserved (06 R141, R144, R145, Table 6-5). -/
def State.deal (s : State) (l : LaunchRec) : List Nat → List (List ReadyPoint) → Option Plan
  | [], us => if us.isEmpty then some [] else none
  | part :: parts, us =>
    match (List.range (us.length + 1)).reverse.findSome? fun n => (s.planPart l part (us.take n)).map fun pl => (n, pl) with
    | some (n, pl) => (s.deal l parts (us.drop n)).map fun rest => pl ++ rest
    | none => none

/-- The reservation of a nest whose points start together. -/
def State.reserve (s : State) (x : Nest) (parts : List Nat) : Option Plan := s.deal x.launch parts x.allUnits

/-- How many teams a plan puts on a core. -/
def planOn (pl : Plan) (core : Nat) : Nat := pl.foldl (fun n e => n + (e.2.filter (· == core)).length) 0

/-- The cores of a plan. -/
def planCores (pl : Plan) : List Nat := (pl.flatMap (·.2)).eraseDups

/-! ### Reservations (06 R143, R144) -/

/-- What a reservation keeps on a core: since when in ns, whether it has aged, and teams of a shape. -/
structure Claim where
  since : Nat
  aged : Bool
  shape : TeamShape
  count : Nat
  deriving DecidableEq, Repr

/-- The ns after which a reservation has aged. -/
def ageLimit : Nat := 256000

/-- The claim of a cluster reservation of a core's port group. -/
def State.clusterClaim (s : State) (core : Nat) : List Claim :=
  match s.reservations.find? (corePort core) with
  | some r =>
    match s.nests.find? r.entry.nest with
    | some x =>
      let corner := (coreRow r.core % 2, coreCol r.core % 6)
      if x.phase == .active && s.open x.ctx x.vd core &&
          (rectCores (corePort core) corner x.launch.cw r.entry.points).contains core then
        [⟨r.since, r.aged, x.launch.shape, 1⟩]
      else []
    | none => []
  | none => []

/-- The claims of persistent nests whose points wait to start, or to resume. -/
def State.nestClaims (s : State) (core : Nat) : List Claim :=
  (s.nests.map (·.2)).filterMap fun x =>
    if x.phase == .active && s.open x.ctx x.vd core && planOn x.plan core != 0 then
      some ⟨x.since, ageLimit ≤ s.time - x.since, x.launch.shape, planOn x.plan core⟩
    else none

/-- The claims of gang reservations. -/
def State.gangClaims (s : State) (core : Nat) : List Claim :=
  (s.gangs.map (·.2)).filterMap fun g =>
    if s.open g.ctx g.vd core && planOn g.plan core != 0 then some ⟨g.since, false, g.launch.shape, planOn g.plan core⟩
    else none

/-- The claims on a core that began before a time, which alone a claim of that time waits for (log entry 115). -/
def State.claims (s : State) (core before : Nat) : List Claim :=
  (s.clusterClaim core ++ s.nestClaims core ++ s.gangClaims core).filter fun c => c.since < before

/-- What a core takes with the claims that began before a time. -/
def State.useWith (s : State) (core before : Nat) : CoreUse :=
  (s.claims core before).foldl (fun u c => u.add c.shape c.count) (s.useOf core)

/-- A core may be given points that come after the claims before a time: none of them has aged. -/
def State.unclaimed (s : State) (core before : Nat) : Bool := (s.claims core before).all fun c => !c.aged

/-! ### Ready queues (06 R139 to R142) -/

/-- Bits of a coordinate in the affinity key. -/
def keyBits (p : List Int) (k : Nat) : W64 := (BitVec.ofInt 16 (p.getD k 0)).setWidth 64

/-- The affinity key of a point. -/
def affinityKey (p : List Int) : W64 :=
  keyBits p 0 ||| (keyBits p 1 <<< 16) ||| (keyBits p 2 <<< 32) ||| (keyBits p 3 <<< 48)

/-- The exclusive or of the n fields of w bits of a key. -/
def foldBits (w : Nat) : Nat → Nat → Nat
  | 0, _ => 0
  | n + 1, x => (x % 2 ^ w) ^^^ foldBits w n (x / 2 ^ w)

/-- Basin and slice of the first point of a unit, released as number `seq` of its nest (06 R139). -/
def LaunchRec.affinity (l : LaunchRec) (p : List Int) (seq : Nat) : Nat × Nat :=
  let k := affinityKey p
  (if l.aff0 = 0 then seq % 4 else foldBits 2 32 (k &&& l.aff0).toNat, foldBits 6 11 (k &&& l.aff1).toNat % 48)

/-- The partition at the cursor, which skips partitions in which the device is descheduled, from the end of its drain to its next
slice there, while there is another (06 R141, 15 R272). -/
def State.cursorPart (s : State) (x : Nest) : Option Nat :=
  let owned := (s.vdNow x.vd).owned
  let on := owned.filter fun p => !(s.part p).drained.contains x.vd
  let from_ := if on.isEmpty then owned else on
  match from_.find? fun p => x.cursor ≤ p with
  | some p => some p
  | none => from_.head?

/-- Key of a sub-queue. -/
def readyKey (basin part sub : Nat) : Nat := 96 * basin + 3 * part + sub

/-- A nest has points that the walker may release. -/
def Nest.releases (x : Nest) : Bool := x.phase == .active && x.started && x.firstReady.isSome

/-- The nest whose turn it is in the round robin of the walker: the first with points to release, and a partition for them, behind the
one that was served last (06 R134, R141). -/
def State.nextNest (s : State) : Option Nat :=
  let l := (s.nests.filter fun e => e.2.releases && (s.cursorPart e.2).isSome).map (·.1)
  match l.find? fun n => s.walker < n with
  | some n => some n
  | none => l.head?

/-- POINT_RELEASE (06 R134): the first ready point or cluster of the nest whose turn it is is released and placed. -/
def execPointRelease (nest : Nat) (s : State) : Host.Outcome State Fault Refusal :=
  match s.nests.find? nest with
  | some x =>
    match x.firstReady, s.cursorPart x with
    | some (r, k), some part =>
      if s.nextNest == some nest then
        let ps := x.unitPoints r k
        let first := ((ps.head?).map (·.ix)).getD []
        let (basin, slice) := x.launch.affinity first x.released.toNat
        let key := readyKey basin part (slice / 16)
        let (n, s1) := s.fresh
        .next { s1.updNest nest fun x => { x.release ps with cursor := part + 1 } with
          walker := nest
          ready := s1.ready.put key (s1.ready.getD key [] ++ [⟨nest, ps, n⟩]) }
      else .next s
    | _, _ => .next s
  | none => .next s

/-- The sub-queues of a port group in the order in which it takes from them (06 R140). -/
def State.queueOrder (s : State) (port : Nat) : List Nat :=
  let part := (s.port port).part.toNat
  let q := port % 8 % 3
  (basinOrder (port / 8)).flatMap fun b =>
    (q :: [0, 1, 2].filter (· != q)).map fun sub => readyKey b part sub

/-- The head of a sub-queue for the slice that runs: entries of other virtual devices stay where they are (log entry 19). -/
def State.headOf (s : State) (key : Nat) : Option (ReadyEntry × Nest) :=
  (s.ready.getD key []).findSome? fun e =>
    match s.nests.find? e.nest with
    | some x => if x.phase == .active && s.runsIn (key % 96 / 3) x.vd then some (e, x) else none
    | none => none

/-- A state without an entry in its ready queues. -/
def State.dropEntry (s : State) (id : Nat) : State :=
  { s with ready := s.ready.mapVals fun _ l => l.filter fun e => e.id != id }

/-- A time after every reservation. -/
def State.after (s : State) : Nat := s.time + 1

/-- TEAM_START (02 R33): the first head in the order of the core's port group that a core can hold starts there. -/
def execTeamStart (core : Nat) (s : State) : Host.Outcome State Fault Refusal :=
  let pick := if core < coreCount then (s.queueOrder (corePort core)).findSome? fun key =>
      match s.headOf key with
      | some (e, x) =>
        if !x.launch.clustered && s.open x.ctx x.vd core && s.unclaimed core s.after &&
            ((s.useWith core s.after).add x.launch.shape 1).fits then some (e, x) else none
      | none => none
    else none
  match pick with
  | some (e, x) => .next ((s.dropEntry e.id).startUnit e.nest x e.points [core])
  | none => .next s

/-! ### Clusters (06 R142, R143) -/

/-- A cluster fits on a rectangle next to the claims that began before a time. Of two aged claims on a core, the one that began first
starts past the younger, and the younger waits for it (06 R143, log entry 115). -/
def State.rectFits (s : State) (x : Nest) (before : Nat) (cores : List Nat) : Bool :=
  cores.all fun c => s.open x.ctx x.vd c && s.unclaimed c before && ((s.useWith c before).add x.launch.shape 1).fits

/-- The rectangle of a cluster at a corner core, when it lies in the core's port group. -/
def State.rectAt (_ : State) (x : Nest) (ps : List ReadyPoint) (core : Nat) : Option (List Nat) :=
  let corner := (coreRow core % 2, coreCol core % 6)
  if core < coreCount && corner.1 + x.launch.ch ≤ 2 && corner.2 + x.launch.cw ≤ 6 then
    some (rectCores (corePort core) corner x.launch.cw ps)
  else none

/-- CLUSTER_START (02 R33): the cluster reserved on the rectangle at a core, or the first cluster at a head, starts when all of
its teams can. -/
def execClusterStart (core : Nat) (s : State) : Host.Outcome State Fault Refusal :=
  let go := fun (s' : State) (e : ReadyEntry) (x : Nest) (before : Nat) =>
    match s.rectAt x e.points core with
    | some cores => if s.rectFits x before cores then some (s'.startUnit e.nest x e.points cores) else none
    | none => none
  let reserved := match s.reservations.find? (corePort core) with
    | some r =>
      match s.nests.find? r.entry.nest with
      | some x =>
        if r.core == core && r.teams.isEmpty && x.phase == .active then
          go { s with reservations := s.reservations.erase (corePort core) } r.entry x r.since
        else none
      | none => none
    | none => none
  match reserved with
  | some t => .next t
  | none =>
    let pick := (s.queueOrder (corePort core)).findSome? fun key =>
      match s.headOf key with
      | some (e, x) => if x.launch.clustered then go (s.dropEntry e.id) e x s.after else none
      | none => none
    .next (pick.getD s)

/-- A cluster of a partition can start at once on some rectangle. -/
def State.startsNow (s : State) (x : Nest) (part : Nat) (ps : List ReadyPoint) : Bool :=
  (s.rects x.launch part [] ps).any fun r => s.rectFits x s.after r.2

/-- The rectangle that a cluster reserves in a partition: among the port groups that hold no reservation, that with the most free
resources. -/
def State.rectFor (s : State) (x : Nest) (part : Nat) (ps : List ReadyPoint) : Option (Nat × List Nat) :=
  (s.rects x.launch part [] ps).find? fun r => (s.reservations.find? (corePort r.1)).isNone

/-- A reservation put on the rectangle at a corner core, for an entry of a ready queue or for saved teams. -/
def State.putRect (s : State) (e : ReadyEntry) (teams : List Nat) (core : Nat) : State :=
  { s with reservations := s.reservations.put (corePort core) ⟨e, teams, core, s.time, false⟩ }

/-- CLUSTER_RESERVATION (06 R143): the cluster at the head of a sub-queue that cannot start at once reserves a rectangle. It leaves
the sub-queue with that, so that what stands behind it may start (log entry 97). -/
def execClusterReservation (basin part sub : Nat) (s : State) : Host.Outcome State Fault Refusal :=
  match s.headOf (readyKey basin part sub) with
  | some (e, x) =>
    match s.rectFor x part e.points with
    | some r =>
      if basin < 4 && sub < 3 && x.launch.clustered && !s.startsNow x part e.points then
        .next ((s.dropEntry e.id).putRect e [] r.1)
      else .next s
    | none => .next s
  | none => .next s

/-- RESERVATION_AGED (06 R143). -/
def execReservationAged (pg : Nat) (s : State) : Host.Outcome State Fault Refusal :=
  match s.reservations.find? pg with
  | some r =>
    if ageLimit ≤ s.time - r.since then .next { s with reservations := s.reservations.put pg { r with aged := true } }
    else .next s
  | none => .next s

/-! ### Nests whose points start together (06 R144, R145) -/

/-- Every reservation of a plan is held: its cores are open and have room for its points next to the claims that began before (log
entry 115). -/
def State.planHeld (s : State) (ctx vd since : Nat) (t : TeamShape) (pl : Plan) : Bool :=
  (planCores pl).all fun c =>
    s.open ctx vd c && s.unclaimed c since && ((s.useWith c since).add t (planOn pl c)).fits

/-- The cores of a plan lie in partitions of a list. -/
def State.planIn (s : State) (parts : List Nat) (pl : Plan) : Bool := (planCores pl).all fun c => parts.contains (s.partOf c)

/-- Every point of a nest released and started in one step. -/
def State.startAll (s : State) (id : Nat) (x : Nest) (pl : Plan) : State :=
  let y : Nest := { pl.foldl (fun y e => y.release e.1) x with started := true, plan := [] }
  pl.foldl (fun s' e => s'.startUnit id y e.1 e.2) { s with nests := s.nests.put id y }

/-- PERSISTENT_START (06 R144): every reservation is held, and every point starts. A reservation on cores of a partition that the
device has lost since is made again. -/
def execPersistentStart (nest : Nat) (s : State) : Host.Outcome State Fault Refusal :=
  match s.nests.find? nest with
  | some x =>
    let parts := (s.vdNow x.vd).owned
    if x.started || x.phase != .active then .next s
    else if x.plan.isEmpty || !s.planIn parts x.plan then
      match s.reserve x parts with
      | some pl => .next (s.updNest nest fun x => { x with plan := pl })
      | none => .next s
    else if s.planHeld x.ctx x.vd x.since x.launch.shape x.plan then .next (s.startAll nest x x.plan)
    else .next s
  | none => .next s

/-! ### Packets and the end of a nest -/

/-- The nest that a packet's work launched, if it did. -/
def PktWork.nest? : PktWork → Option Nat
  | .nest id => some id
  | _ => none

/-- The work of a packet in flight replaced. -/
def State.setWork (s : State) (q id : Nat) (w : PktWork) : State :=
  s.updQueue q fun x => { x with inflight := x.inflight.map fun p =>
    if p.id = id then { p with work := w, nest := w.nest?.or p.nest } else p }

/-- The ns within which a gang commits. -/
def gangLimit : Nat := 100000

/-- GANG_COMMIT (06 R145): all reservations are held, and every part starts its teams; they fetch code as it is now (04 R87). -/
def execGangCommit (gang : Nat) (s : State) : Host.Outcome State Fault Refusal :=
  match s.gangs.find? gang with
  | some g =>
    let x := (g.launch.nest g.ctx g.vd g.queue g.packet g.parts g.since).open
    if s.time - g.since ≤ gangLimit && s.planHeld g.ctx g.vd g.since g.launch.shape g.plan then
      let (id, s1) := ({ s with gangs := s.gangs.erase gang }).freshCode.fresh
      .next ((s1.setWork g.queue g.packet (.nest id)).startAll id x g.plan)
    else .next s
  | none => .next s

/-- GANG_TIMEOUT (06 R145): the launch fails with code 0x0A. -/
def execGangTimeout (gang : Nat) (s : State) : Host.Outcome State Fault Refusal :=
  match s.gangs.find? gang with
  | some g =>
    if gangLimit < s.time - g.since then
      .next (({ s with gangs := s.gangs.erase gang }).setWork g.queue g.packet (.outcome (some 0x0A)))
    else .next s
  | none => .next s

/-- A nest leaves the active set, and its packet has an outcome. -/
def State.endNest (s : State) (nest : Nat) (code : Option Nat) : State :=
  match s.nests.find? nest with
  | some x => ({ s with nests := s.nests.erase nest }).setWork x.queue x.packet (.outcome code)
  | none => s

/-! ### Retirement (06 R135, R138, R142) -/

/-- Work of a team that retirement waits for: groups before END, Sluice contexts that run, and array operations. -/
def State.busyTeam (s : State) (team : Nat) (t : Team) : Bool :=
  t.groups.any (fun g => !g.st.ended) ||
  (List.range 4).any (fun n => match ((s.core t.core).sl n).owner with
    | .team k _ => k == team && ((s.core t.core).sl n).state == .running
    | _ => false) ||
  ((s.core t.core).fifo ++ (s.core t.core).pass).any fun e => e.team == team

/-- A Sluice context made FREE; its serial stays (11 R212, R213). -/
def SlCtx.freed (c : SlCtx) : SlCtx := { SlCtx.reset with serial := c.serial }

/-- The Sluice contexts of a team on its core made FREE (11 R212). -/
def State.freeSluice (s : State) (core team : Nat) : State :=
  (List.range 4).foldl (fun s' n => s'.updSl core n fun c =>
    match c.owner with
    | .team k _ => if k = team then c.freed else c
    | _ => c) s

/-- The team leaves its core: a team of a cluster keeps its scratchpad until every point of the cluster has retired
(06 R142). -/
def State.leaveCore (s : State) (team : Nat) (t : Team) : State :=
  let gone := t.peers.vals.all fun k => k == team || (s.teams.find? k).all fun p => p.phase == .retired
  if gone then
    let s1 : State := { s with teams := (team :: t.peers.vals).foldl (fun (m : SMap Team) k => m.erase k) s.teams }
    (t.core :: t.peers.vals.filterMap fun k => (s.teams.find? k).map (·.core)).eraseDups.foldl
      (fun s' c => s'.resplit c) s1
  else
    s.updTeam team fun t => { t with phase := .retired, groups := [], tiles := [], rdv := [], itemq := [], itemWait := [] }

/-- The paths that retirement covers. -/
def retirePaths : List Path := [.core, .sluice, .array]

/-- POINT_RETIRE (06 R135): a release at device scope over the CORE, SLUICE and ARRAY paths, then the row record, and the close
of the nest when it was the last point. A write-back that is refused faults the nest, which then aborts (06 R136, 14 R259). -/
def execPointRetire (team : Nat) (s : State) : Host.Outcome State Fault Refusal :=
  match s.teams.find? team with
  | some t =>
    match s.nests.find? t.nest with
    | some x =>
      if t.issues && x.phase == .active && !s.busyTeam team t then
        let s1 := s.wbCore t.core
        match s1.needHost (retirePaths.flatMap fun p => s1.drainLines p fun _ => true) [.event (.pointRetire team)] with
        | some s2 => .next s2
        | none =>
          if (s1.nests.find? t.nest).any fun y => y.phase != .active then .next s1
          else
          let s2 := retirePaths.foldl (fun s' p => s'.drainPath p fun _ => true) s1
          let s3 := ((s2.freeSluice t.core team).leaveCore team t).updNest t.nest fun x =>
            x.retire ((t.ix.take x.depth).map BitVec.toInt)
          if (s3.nests.find? t.nest).elim false Nest.done then .next (s3.endNest t.nest none) else .next s3
      else .next s
    | none => .next s
  | none => .next s

/-! ### Bound proposals and snapshots (06 R137, R138, 07 R146, 22 R389, R393) -/

/-- NBND (22 R389): the proposal reaches the walker, and the slot waits for the answer. -/
def execNbnd (f : NbndF) (s : State) := onSite s fun w =>
  if f.dim != 0 then w.fault s .illegal 0
  else
    (w.awaitIssued s (.nbnd f.p.toNat)).updNest w.tm.nest fun x =>
      { x with proposals := x.proposals ++ [⟨w.team, w.grp, w.slot, (w.g.r.rdS f.a.toNat).toInt, x.readyPoints⟩] }

/-- BOUND_PROPOSAL_APPLY (06 R137, 07 R146): the first proposal of a nest, once the points that were ready before it have been
released. That of a team which does not issue, as a saved one, waits with those behind it until the team issues (log entry 116). -/
def execBoundProposalApply (nest : Nat) (s : State) : Host.Outcome State Fault Refusal :=
  match s.nests.find? nest with
  | some x =>
    match x.proposals with
    | pr :: rest =>
      match s.siteAt pr.team pr.grp pr.slot with
      | some w =>
        match w.g.wait pr.slot with
        | some (.nbnd p) =>
          if x.phase == .active && w.tm.issues && pr.due.all fun q => !x.ready q then
            let ok := x.accepts pr.bound
            let y := if ok then x.rebound pr.bound else x
            .next ({ s with nests := s.nests.put nest { y with proposals := rest } }.finish pr.team pr.grp pr.slot
              fun g => g.r.wrP p w.mask (if ok then 0xFFFFFFFF else 0))
          else .next s
        | _ => .next s
      | none => .next s
    | [] => .next s
  | none => .next s

/-- The value of NQRY (22 Table 22-14). -/
def Nest.query (x : Nest) (what : Nat) : W64 :=
  match what with
  | 0 => x.released
  | 1 => x.retired
  | 2 => (BitVec.ofInt 32 x.ub0).setWidth 64
  | _ => BitVec.ofNat 64 (x.done.toNat + 2 * x.launch.persist.toNat + 4 * x.launch.gang.toNat)

/-- NQRY (22 R393). -/
def execNqry (f : NqryF) (s : State) := onSite s fun w =>
  let v := (s.nests.find? w.tm.nest).elim 0 fun x => x.query f.what.toNat
  let d := f.d.toNat
  let writes := if f.what.toNat < 2 then [RegWrite.s d (lo32 v), .s (d + 1) (hi32 v)] else [.s d (lo32 v)]
  w.post s f.la (.nqry f) .value writes 0

end Sys2Proof.Machine
end

