-- ==== Sys2Proof/Machine/Sluice.lean ====
section
/-! DEFINITION. The Sluice words (11 R216 to R230, 23 R413 to R430) and FORK and RDV (11 R213, R214, 21 R358, 22 R399). -/

namespace Sys2Proof.Machine

/-! ### Register words (23 R414, R417, R419, R422 to R424, R426) -/

/-- The state with the context moved past its word and changed. -/
def SlSite.step (w : SlSite) (s : State) (f : SlCtx → SlCtx) : State := w.upd s fun c => (f c).advance

/-- The target of a branch (11 R216). -/
def SlSite.target (w : SlSite) (off : BitVec 32) : W64 := w.c.pc + 8 + (off.signExtend 64 <<< 3)

/-- SL.ADD (23 R414). -/
def execSlAdd (f : SlAluF) (s : State) := onSluice s fun w =>
  w.step s fun c => c.wr f.d.toNat (c.rd f.a.toNat + c.rdB f.b)

/-- SL.MAD (23 R423). -/
def execSlMad (f : SlMadF) (s : State) := onSluice s fun w =>
  w.step s fun c => c.wr f.d.toNat (c.rd f.a.toNat * c.rd f.b.toNat + c.rd f.c.toNat)

/-- SL.MOV (23 R424). -/
def execSlMov (f : SlMovF) (s : State) := onSluice s fun w => w.step s fun c => c.wr f.d.toNat (c.rdB f.src)

/-- A signed comparison of 64 bits. -/
def slCompare (k : Cmp) (a b : W64) : Bool :=
  match k with
  | .eq => a == b
  | .ne => a != b
  | .lt => a.slt b
  | .le => a.sle b
  | .gt => b.slt a
  | .ge => b.sle a

/-- SL.CMP (23 R419). -/
def execSlCmp (f : SlCmpF) (s : State) := onSluice s fun w =>
  w.step s fun c => { c with flag := slCompare f.cmp (c.rd f.a.toNat) (c.rdB f.b) }

/-- SL.BR (23 R417). -/
def execSlBr (f : SlBrF) (s : State) := onSluice s fun w =>
  let taken := match f.cond with
    | .al => true
    | .t => w.c.flag
    | .f => !w.c.flag
  if taken then w.upd s fun c => { c with pc := w.target f.off } else w.step s fun c => c

/-- SL.LOOP (23 R422). -/
def execSlLoop (f : SlLoopF) (s : State) := onSluice s fun w =>
  let x := w.c.rd f.a.toNat - 1
  w.upd s fun c =>
    let c1 := c.wr f.a.toNat x
    if x != 0 then { c1 with pc := w.target f.off } else c1.advance

/-- A descriptor with a field replaced, or none for a field or value that the word refuses (11 R218, Table 11-5). -/
def SlDescr.set (d : SlDescr) (field : Nat) (x : W64) : Option SlDescr :=
  if field = 0 then some { d with base := x }
  else if field ≤ 5 then
    if x.toNat < 2 ^ 32 then some { d with sizes := listUpd (fun _ => x.setWidth 32) (field - 1) d.sizes } else none
  else if field ≤ 10 then some { d with strides := listUpd (fun _ => x) (field - 6) d.strides }
  else if field = 11 then (if x.toNat < 128 then some { d with ctrl := x.setWidth 8 } else none)
  else none

def SlCtx.descr (c : SlCtx) (n : BitVec 2) : SlDescr := c.desc.getD n.toNat SlDescr.start

/-- SL.SETD (23 R426): ILLEGAL has address 0 (log entry 118). -/
def execSlSetd (f : SlSetdF) (s : State) := onSluice s fun w =>
  match (w.c.descr f.desc).set f.field.toNat (w.c.rd f.a.toNat) with
  | some d => w.step s fun c => { c with desc := listUpd (fun _ => d) f.desc.toNat c.desc }
  | none => w.fault s .illegal 0

/-! ### Elements of a descriptor (11 R219) -/

def SlDescr.space (d : SlDescr) : Bool := d.ctrl.getLsbD 3
def SlDescr.esizeCode (d : SlDescr) : Nat := (d.ctrl.extractLsb' 0 3).toNat
def SlDescr.esize (d : SlDescr) : Nat := 2 ^ d.esizeCode
def SlDescr.slotNo (d : SlDescr) : Nat := (d.ctrl.extractLsb' 4 3).toNat
def SlDescr.count (d : SlDescr) : Nat := d.sizes.foldl (fun n x => n * x.toNat) 1
/-- A descriptor that a word may use: no SIZE is 0 and ESIZE is 0 to 4. -/
def SlDescr.usable (d : SlDescr) : Bool := d.esizeCode ≤ 4 && d.sizes.all fun x => x != 0

/-- The address of element k: i0 is innermost. -/
def SlDescr.addr (d : SlDescr) (k : Nat) : W64 :=
  ((d.sizes.zip d.strides).foldl (fun (st : W64 × Nat) x =>
    (st.1 + BitVec.ofNat 64 (st.2 % x.1.toNat) * x.2, st.2 / x.1.toNat)) (d.base, k)).1

/-! ### Scratchpad of the context's team (11 R215, 03 R62) -/

/-- The team that forked a context, with its number. -/
def State.slTeam (s : State) (c : SlCtx) : Option (Nat × Team) :=
  match c.owner with
  | .team t _ => (s.teams.find? t).map fun tm => (t, tm)
  | _ => none

/-- The team and offset of n bytes of scratchpad; a context without a team has none. -/
def State.slPad (s : State) (c : SlCtx) (a : W64) (n : Nat) : Except SubCause (Nat × Nat) :=
  if a.toNat % n ≠ 0 then .error .misalign
  else
    match s.slTeam c with
    | some (t, tm) =>
      match s.padAt t tm a.toNat n with
      | .ok x => .ok x
      | .error _ => .error .xlateNp
    | none => .error .xlateNp

/-- The barrier object of a Sluice word: its team's own (23 R415). -/
def State.slObj (s : State) (c : SlCtx) (a : W64) : Except SubCause (Nat × Nat) :=
  match s.slPad c a 8 with
  | .error e => .error e
  | .ok (t, off) => if (s.slTeam c).elim false (fun x => x.1 == t) then .ok (t, off) else .error .xlateNp

/-! ### Lines that earlier transfers write (11 R221) -/

/-- A number for a line of scratchpad of a team, apart from the lines of device memory. -/
def padLineKey (team line : Nat) : Nat := 2 ^ 48 * (team + 1) + line

/-- The line of an element, of a replicated page in the page itself, which every write goes to (01 R28); none where its address
fails. -/
def State.elemLine (s : State) (core : Nat) (c : SlCtx) (pad : Bool) (mode : Mode) (a : W64) (n : Nat) : Option Nat :=
  if pad then
    match s.slPad c a n with
    | .ok (t, off) => some (padLineKey t (off / 128))
    | .error _ => none
  else
    match s.resolve core c.ctx mode a.toNat with
    | .ok _ => (s.homeOf core c.ctx a.toNat).map lineOf
    | .error _ => none

/-- The lines that a transfer writes, and those that it reads. -/
def State.workWrites (s : State) (core : Nat) (c : SlCtx) : SlWork → List Nat
  | .xfer _ _ _ edst _ dstPad elems _ => elems.filterMap fun x => s.elemLine core c dstPad .write x.2 edst
  | _ => []
def State.workReads (s : State) (core : Nat) (c : SlCtx) : SlWork → List Nat
  | .xfer _ _ esrc _ srcPad _ elems _ => elems.filterMap fun x => x.1.bind fun a => s.elemLine core c srcPad .read a esrc
  | _ => []

/-- The bytes at which a stamp or a signal writes, and whether a transfer writes one of them. -/
def State.wordWrites (s : State) (core : Nat) (c : SlCtx) : SlWork → List Nat
  | .stamp _ a _ | .signal _ _ _ a _ => match s.resolve core c.ctx .write a.toNat with
    | .ok ph => (List.range 8).map fun i => ph.pa + i
    | .error _ => []
  | _ => []
def State.xferHits (s : State) (core : Nat) (c : SlCtx) (bytes : List Nat) : SlWork → Bool
  | .xfer _ _ _ edst _ false elems _ => elems.any fun x => match s.resolve core c.ctx .write x.2.toNat with
    | .ok ph => bytes.any fun b => ph.pa ≤ b && b < ph.pa + edst
    | .error _ => false
  | _ => false

/-- Some transfer of the context that has not performed writes one of the lines. -/
def SlSite.writing (w : SlSite) (s : State) (lines : List Nat) : Bool :=
  w.c.work.any fun x => (s.workWrites w.core w.c x).any lines.contains

/-! ### Index loads (23 R421, R425) -/

/-- The bytes of device memory that a word reads through the SLUICE path, unless it faults or waits for a walk or an earlier transfer;
`f` goes on with them and the translated address. -/
def SlSite.read (w : SlSite) (s : State) (a : W64) (n : Nat) (f : Phys → Nat → State) : State :=
  if a.toNat % n ≠ 0 then w.fault s .misalign a
  else
    match s.awaitWalk w.core w.c.ctx w.act [a.toNat / 4096], s.resolve w.core w.c.ctx .read a.toNat with
    | some s1, _ => s1
    | none, .error c => w.fault s c.sub a
    | none, .ok ph =>
      if w.writing s (s.elemLine w.core w.c false .read a n).toList then s
      else f ph (bytesToNat (s.readPath .sluice ph n))

/-- SL.IDX (23 R421). -/
def execSlIdx (f : SlIdxF) (s : State) := onSluice s fun w =>
  let a := w.c.rd f.a.toNat + f.off.signExtend 64
  w.read s a (2 ^ f.size.toNat) fun ph x =>
    w.upd (s.l2Access (s.tenantOf w.c.ctx) ph) fun c =>
      { c with wait := some (.load [(f.d.toNat, BitVec.ofNat 64 x)]) }

/-- SL.SEGNEXT (23 R425): CSR_ORDER has the address of the start pointer (log entry 118). -/
def execSlSegnext (f : SlDA) (s : State) := onSluice s fun w =>
  if f.d = f.a then w.fault s .illegal 0
  else
    let a := w.c.rd f.a.toNat
    w.read s a 4 fun p1 start => w.read s (a + 4) 4 fun p2 stop =>
      if stop < start then w.fault s .csrOrder a
      else
        w.upd ((s.l2Access (s.tenantOf w.c.ctx) p1).l2Access (s.tenantOf w.c.ctx) p2) fun c =>
          { c with wait := some (.load
              [(f.d.toNat, BitVec.ofNat 64 (start + (stop - start) * 2 ^ 32)), (f.a.toNat, a + 4)]) }

/-- SLUICE_INDEX_LOAD_DATA (11 R217): the data of an index load is written, and the context goes on. -/
def execSluiceIndexLoadData (core sctx : Nat) (s : State) : Host.Outcome State Fault Refusal :=
  match s.slAt core sctx with
  | some w =>
    match w.c.wait with
    | some (.load l) =>
      .next (w.upd s fun c => { (l.foldl (fun (c : SlCtx) x => c.wr x.1 x.2) c).advance with wait := none })
    | _ => .next s
  | none => .next s

/-! ### Codebooks (11 R225) -/

/-- A DECODE transfer is in flight on a core. -/
def Core.decoding (c : Core) : Bool :=
  [0, 1, 2, 3].any fun n => (c.sl n).work.any fun x => match x with
    | .xfer _ .decode _ _ _ _ _ _ => true
    | _ => false

/-- The bytes of an element, with the failure of its address. -/
def State.elemBytes (s : State) (core : Nat) (c : SlCtx) (pad : Bool) (a : W64) (n : Nat) :
    Except SubCause (List Byte) :=
  if pad then
    match s.slPad c a n with
    | .ok (t, off) => .ok (s.padRead t off n)
    | .error e => .error e
  else if a.toNat % n ≠ 0 then .error .misalign
  else
    match s.resolve core c.ctx .read a.toNat with
    | .ok ph => .ok (s.readPath .sluice ph n)
    | .error e => .error e.sub

/-- The entries of a codebook source in order, or the first failure with its address. -/
def State.bookBytes (s : State) (core : Nat) (c : SlCtx) (d : SlDescr) : List Nat → Except (SubCause × W64) (List Byte)
  | [] => .ok []
  | k :: rest =>
    match s.elemBytes core c d.space (d.addr k) 16 with
    | .error e => .error (e, d.addr k)
    | .ok b =>
      match s.bookBytes core c d rest with
      | .error e => .error e
      | .ok t => .ok (b ++ t)

/-- The device pages of a list of addresses. -/
def devPages (pad : Bool) (l : List W64) : List Nat := if pad then [] else (l.map fun a => a.toNat / 4096).eraseDups

/-- The L2 accesses of the device reads of a list of elements (15 R274). -/
def SlSite.touch (w : SlSite) (s : State) (pad : Bool) (l : List W64) : State :=
  if pad then s
  else l.foldl (fun s' a => match s.resolve w.core w.c.ctx .read a.toNat with
    | .ok ph => s'.l2Access (s'.tenantOf w.c.ctx) ph
    | .error _ => s') s

/-- The store loaded from a source for a context; a failed read leaves the store with no codebook (23 R418). The error is the state in
which the word waits for a walk, or faults. -/
def SlSite.loadBook (w : SlSite) (s : State) (d : SlDescr) : Except State State :=
  let l := (List.range d.count).map d.addr
  match s.awaitWalk w.core w.c.ctx w.act (devPages d.space l) with
  | some s1 => .error s1
  | none =>
    match s.bookBytes w.core w.c d (List.range d.count) with
    | .error (e, a) =>
      .error (w.fault (s.updCore w.core fun c => { c with book := ⟨none, 0, []⟩ }) e a)
    | .ok b =>
      .ok ((w.touch s d.space l).updCore w.core fun c =>
        { c with book := ⟨some w.c.owner, d.count, b.mapIdx fun i x => (i, x)⟩ })

/-- SL.CBLOAD (23 R418). -/
def execSlCbload (f : SlDesc) (s : State) := onSluice s fun w =>
  let d := w.c.descr f.desc
  if !d.usable || d.esizeCode != 4 || 256 < d.count then w.fault s .desc 0
  else if (s.core w.core).decoding then s
  else
    match w.loadBook s d with
    | .error s1 => s1
    | .ok s1 => w.step s1 fun c => { c with cbSource := some d }

/-- The check of the store at the issue of a DECODE transfer (11 Table 11-6): CODEBOOK_TAG has address 0 (log entry 118). -/
def SlSite.checkBook (w : SlSite) (s : State) : Except State State :=
  match (s.core w.core).book.tag with
  | some o => if o == w.c.owner then .ok s else .error (w.fault s .codebookTag 0)
  | none =>
    match w.c.cbSource with
    | some d => w.loadBook s d
    | none => .error (w.fault s .codebookTag 0)

/-! ### Transfers (11 R220) -/

/-- A list cut into lists of at most n, at most `fuel` of them. -/
def cut {α : Type} (n : Nat) : Nat → List α → List (List α)
  | 0, _ => []
  | fuel + 1, l => if l.isEmpty then [] else l.take n :: cut n fuel (l.drop n)

/-- The scratchpad lines of destination addresses, or the first failure. -/
def State.dstLines (s : State) (c : SlCtx) (n : Nat) : List W64 → Except (SubCause × W64) (List (Nat × Nat))
  | [] => .ok []
  | a :: rest =>
    match s.slPad c a n with
    | .error e => .error (e, a)
    | .ok (t, off) =>
      match s.dstLines c n rest with
      | .error e => .error e
      | .ok l => .ok ((t, off / 128) :: l)

/-- The presence bits of the lines of a transfer cleared (08 R148). -/
def State.clearLines (s : State) (lines : List (Nat × Nat)) : State :=
  lines.foldl (fun s' x => s'.padClear x.1 [x.2]) s

/-- The lines that a list of elements writes, each once. -/
def State.linesOf (s : State) (c : SlCtx) (dstPad : Bool) (edst : Nat) (elems : List (Option W64 × W64)) :
    Except (SubCause × W64) (List (Nat × Nat)) :=
  if dstPad then
    match s.dstLines c edst (elems.map (·.2)) with
    | .error e => .error e
    | .ok l => .ok l.eraseDups
  else .ok []

/-- The presence bits of every transfer of a word cleared before the first is issued, or the first failure. -/
def State.clearAll (s : State) (c : SlCtx) (dstPad : Bool) (edst : Nat) :
    List (List (Option W64 × W64)) → Except (SubCause × W64) State
  | [] => .ok s
  | t :: rest =>
    match s.linesOf c dstPad edst t with
    | .error e => .error e
    | .ok l =>
      match s.clearAll c dstPad edst rest with
      | .error e => .error e
      | .ok s1 => .ok (s1.clearLines l)

/-- One transfer put in the work of the context; its presence bits are cleared already. -/
def SlSite.issue (w : SlSite) (s : State) (kind : XferKind) (esrc edst : Nat) (srcPad dstPad : Bool)
    (elems : List (Option W64 × W64)) : State :=
  let lines := match s.linesOf w.c dstPad edst elems with
    | .ok l => l
    | .error _ => []
  w.upd s fun c => { c with work := c.work ++ [.xfer w.c.pc kind esrc edst srcPad dstPad elems lines] }

/-- The format slot n of a context: its nest's, or its packet's slot block (11 R215, R220). -/
def State.slSlot (s : State) (c : SlCtx) (n : Nat) : Option W32 :=
  match c.owner with
  | .team _ nest => some (s.fslotWord nest n)
  | .packet q idx => ((s.queue q).inflight.find? fun p => p.id == idx).bind fun p => p.fslots[n]?
  | .none => none

/-- The descriptors suit the mode (11 R220). -/
def SlSite.modeOk (w : SlSite) (s : State) (m : XMode) (a b : SlDescr) : Bool :=
  a.usable && b.usable && a.count == b.count &&
  match m with
  | .copy => a.esizeCode == b.esizeCode
  | .decode => a.esizeCode ≤ 1 && b.esizeCode == 4
  | .convert =>
    (a.esizeCode == 2 || a.esizeCode == 1) &&
    match s.slSlot w.c b.slotNo with
    | some x =>
      let fmt := (FmtSlot.ofWord x).fmt
      ((fmt == 1 || fmt == 2) && b.esizeCode == 1) || ((fmt == 3 || fmt == 4 || fmt == 6) && b.esizeCode == 0)
    | none => false

/-- The kind of the next transfer of a word. -/
def SlSite.kind (w : SlSite) (s : State) (m : XMode) (b : SlDescr) : XferKind :=
  match m with
  | .copy => .copy
  | .decode => .decode
  | .convert => .convert ((s.slSlot w.c b.slotNo).getD 0) b.slotNo w.c.lfsr

/-- The LFSR of a context after a transfer of n elements. -/
def XferKind.after (k : XferKind) (n : Nat) (lfsr : W32) : W32 :=
  match k with
  | .convert fmt _ _ => if (FmtSlot.ofWord fmt).rm == .sr then lfsrSteps n lfsr else lfsr
  | _ => lfsr

/-- Elements lo to lo + n − 1 of a pair of descriptors. -/
def elemsOf (a b : SlDescr) (lo n : Nat) : List (Option W64 × W64) :=
  (List.range n).map fun i => (some (a.addr (lo + i)), b.addr (lo + i))

/-- The next transfer of the word at PC issues when a slot is free, and the last one lets the context go on (11 R220). -/
def SlSite.issueNext (w : SlSite) (s : State) (m : XMode) (a b : SlDescr) : State :=
  match ((s.core w.core).sl w.n).todo with
  | [] => s
  | l :: rest =>
    if slSlots ≤ w.c.inFlight then s
    else
      match (if m == .decode then w.checkBook s else .ok s) with
      | .error s1 => s1
      | .ok s1 =>
        let k := w.kind s m b
        w.upd (w.issue s1 k a.esize b.esize a.space b.space l) fun c =>
          let c1 := { c with lfsr := k.after l.length c.lfsr, todo := rest }
          if rest.isEmpty then c1.advance else c1

/-- The presence bits of every destination line of a word are cleared, its transfers stand ready to issue, and the first one issues. -/
def SlSite.startXfers (w : SlSite) (s : State) (m : XMode) (a b : SlDescr) (l : List (List (Option W64 × W64))) : State :=
  match s.clearAll w.c b.space b.esize l with
  | .error (e, x) => w.fault s e x
  | .ok s1 => w.issueNext (w.upd s1 fun c => { c with todo := l }) m a b

/-- SL.XFER (23 R430, 11 R220): presence bits are cleared first; then each run of the word issues one transfer when a slot is
free. DESC has address 0 (log entry 118). -/
def execSlXfer (f : SlXferF) (s : State) := onSluice s fun w =>
  let a := w.c.descr f.src
  let b := w.c.descr f.dst
  if !w.c.todo.isEmpty then w.issueNext s f.mode a b
  else if f.src = f.dst || !w.modeOk s f.mode a b then w.fault s .desc 0
  else
    let per := 4096 / b.esize
    w.startXfers s f.mode a b (cut per (b.count / per + 1) (elemsOf a b 0 b.count))

/-! ### SL.BMEXP (11 R223, 23 R416) -/

/-- Sources of the elements of a block: the packed values in turn for set bits. -/
def bmSources (bits : Nat) (esize : Nat) : (n j : Nat) → (at_ : W64) → List (Option W64)
  | 0, _, _ => []
  | n + 1, j, at_ =>
    if bits / 2 ^ j % 2 = 1 then some at_ :: bmSources bits esize n (j + 1) (at_ + BitVec.ofNat 64 esize)
    else none :: bmSources bits esize n (j + 1) at_

/-- Of the addresses of contiguous bytes the first in each line: a read accesses the slice once for each. -/
def lineHeads (l : List W64) : List W64 := l.take 1 ++ (l.drop 1).filter fun a => a.toNat % 128 == 0

/-- An address rounded up to a multiple. -/
def roundUp (a : W64) (n : Nat) : W64 := BitVec.ofNat 64 ((a.toNat + n - 1) / n * n)

/-- The bytes of a bitmap: the value, and whether the read waits for an earlier transfer. -/
def SlSite.bitmap (w : SlSite) (s : State) (d : SlDescr) (n : Nat) : Except (SubCause × W64) (Nat × Bool) :=
  let addrs := (List.range n).map fun i => d.base + BitVec.ofNat 64 i
  let lines := addrs.filterMap fun a => s.elemLine w.core w.c d.space .read a 1
  match addrs.foldl (fun (st : Except (SubCause × W64) (List Byte)) a =>
      match st with
      | .error e => .error e
      | .ok b =>
        match s.elemBytes w.core w.c d.space a 1 with
        | .ok x => .ok (b ++ x)
        | .error e => .error (e, a)) (.ok []) with
  | .error e => .error e
  | .ok b => .ok (bytesToNat b, w.writing s lines)

/-- SL.BMEXP: the bitmap is read, BASE of src moves on, and the transfers issue as those of an SL.XFER. -/
def execSlBmexp (f : SlBmexpF) (s : State) := onSluice s fun w =>
  let a := w.c.descr f.src
  let b := w.c.descr f.dst
  let n := (w.c.rd f.a.toNat).toNat
  let bytes := (n + 7) / 8
  if !w.c.todo.isEmpty then w.issueNext s .copy a b
  else if f.src = f.dst || n = 0 || 4096 < n || 4 < a.esizeCode || !b.usable || b.count != n || a.esizeCode != b.esizeCode then
    w.fault s .desc 0
  else if a.base.toNat % 8 ≠ 0 then w.fault s .misalign a.base
  else
    let map := (List.range bytes).map fun i => a.base + BitVec.ofNat 64 i
    match s.awaitWalk w.core w.c.ctx w.act (devPages a.space map) with
    | some s1 => s1
    | none =>
      match w.bitmap s a bytes with
      | .error (e, x) => w.fault s e x
      | .ok (bits, waits) =>
        if waits then s
        else
          let first := roundUp (a.base + BitVec.ofNat 64 bytes) a.esize
          let srcs := bmSources bits a.esize n 0 first
          let packed := (srcs.filter Option.isSome).length
          let base := roundUp (first + BitVec.ofNat 64 (packed * a.esize)) 8
          w.startXfers ((w.touch s a.space (lineHeads map)).updSl w.core w.n fun c =>
              { c with desc := listUpd (fun d => { d with base := base }) f.src.toNat c.desc }) .copy a b
            (cut (4096 / b.esize) (n * b.esize / 4096 + 1) (srcs.mapIdx fun k x => (x, b.addr k)))

/-! ### Arrivals, waits, stamps, signals and the end (23 R415, R420, R427 to R429) -/

/-- SL.ARRIVE (23 R415). -/
def execSlArrive (f : SlArriveF) (s : State) := onSluice s fun w =>
  let a := w.c.rd f.a.toNat
  if f.n = 0 then w.fault s .illegal 0
  else
    match s.slObj w.c a with
    | .error e => w.fault s e a
    | .ok (t, off) =>
      let o := s.object t off
      if 8191 ≤ o.pend then s
      else
        w.step (s.setObject t off { o with pend := o.pend + 1 } none) fun c =>
          { c with work := c.work ++ [.arrive w.c.pc off f.n.toNat] }

/-- SL.WAIT (23 R429): it acts on the object, which is one from then on (11 R226). One that finds INV faults with the address that it
names (log entry 118). -/
def execSlWait (f : SlWaitF) (s : State) := onSluice s fun w =>
  let a := w.c.rd f.a.toNat
  match s.slObj w.c a with
  | .error e => w.fault s e a
  | .ok (t, off) =>
    let o := s.object t off
    let s1 := s.setObject t off o none
    if o.inv then w.fault s1 .barrierInvalid a
    else if o.phase != f.ph then w.step s1 fun c => c
    else w.upd s1 fun c => { c with wait := some (.barrier off f.ph) }

/-- SL.STAMP (23 R428). -/
def execSlStamp (f : SlAB) (s : State) := onSluice s fun w =>
  let a := w.c.rd f.a.toNat
  if a.toNat % 8 ≠ 0 then w.fault s .misalign a
  else w.step s fun c => { c with work := c.work ++ [.stamp w.c.pc a (c.rd f.b.toNat)] }

/-- SL.SIGNAL (23 R427). -/
def execSlSignal (f : SlSignalF) (s : State) := onSluice s fun w =>
  let a := w.c.rd f.a.toNat
  if a.toNat % 8 ≠ 0 then w.fault s .misalign a
  else w.step s fun c => { c with work := c.work ++ [.signal w.c.pc f.op f.sys a (c.rd f.b.toNat)] }

/-- SL.END (23 R420). -/
def execSlEnd (f : SlEndF) (s : State) := onSluice s fun w =>
  w.upd s fun c => { c with status := f.status, wait := some .ending }

/-- SLUICE_CONTEXT_ENDED (11 R212, 23 R420): everything that the context issued has performed. A packet's context becomes
FREE, and its packet has an outcome. -/
def execSluiceContextEnded (core sctx : Nat) (s : State) : Host.Outcome State Fault Refusal :=
  match s.slAt core sctx with
  | some w =>
    if w.c.wait == some .ending && w.c.work.isEmpty && w.c.faulted.isNone then
      match w.c.owner with
      | .packet q idx =>
        .next ((w.upd s SlCtx.freed).setWork q idx (.outcome (if w.c.status = 0 then none else some 0x15)))
      | _ => .next (w.upd s fun c => { c with state := .ended, wait := none })
    else .next s
  | none => .next s

/-! ### Performing (11 R220 to R222, R228 to R230) -/

/-- The step that performs work of the context. -/
def SlSite.performs (w : SlSite) : Action := .event (.transferPerform w.core w.n)

/-- A context with a work item removed. -/
def SlCtx.dropWork (c : SlCtx) (i : Nat) : SlCtx := { c with work := c.work.eraseIdx i }

def SlWork.pc : SlWork → W64
  | .xfer pc _ _ _ _ _ _ _ => pc
  | .arrive pc _ _ => pc
  | .stamp pc _ _ => pc
  | .signal pc _ _ _ _ => pc

/-- A work item waits for an earlier one (11 R221, R228 to R230): a transfer for one that writes a line that it reads or writes, and for
a stamp or signal of a byte that it writes; an arrival and a stamp for every transfer, and a stamp also for every stamp (23 R428) and for
a signal that writes its bytes; a signal for every write. -/
def SlSite.waitsFor (w : SlSite) (s : State) (x y : SlWork) : Bool :=
  match x, y with
  | .xfer _ _ _ _ _ _ _ _, .xfer _ _ _ _ _ _ _ _ =>
    let lines := s.workReads w.core w.c x ++ s.workWrites w.core w.c x
    (s.workWrites w.core w.c y).any lines.contains
  | .xfer _ _ _ _ _ _ _ _, _ => s.xferHits w.core w.c (s.wordWrites w.core w.c y) x
  | .signal _ _ _ _ _, .arrive _ _ _ => false
  | .signal _ _ _ _ _, _ => true
  | .stamp _ _ _, .stamp _ _ _ => true
  | _, .xfer _ _ _ _ _ _ _ _ => true
  | _, _ => (s.wordWrites w.core w.c y).any (s.wordWrites w.core w.c x).contains

/-- Work item i may perform: it waits for none that was issued before it. -/
def SlSite.mayPerform (w : SlSite) (s : State) (i : Nat) : Bool :=
  match w.c.work[i]? with
  | some x => (w.c.work.take i).all fun y => !w.waitsFor s x y
  | none => false

/-- The work item that performs next: one of those that may, which the manual leaves open (log entry 30). -/
def SlSite.nextWork (w : SlSite) (s : State) : Option (Nat × SlWork) :=
  let l := (List.range w.c.work.length).filter fun i => w.mayPerform s i
  match l[Config.freeNat s.tick 300 % l.length]? with
  | some i => (w.c.work[i]?).map fun x => (i, x)
  | none => none

/-- The source bytes of one element: zeros where it has no source. -/
def SlSite.srcElem (w : SlSite) (s : State) (pad : Bool) (n : Nat) : Option W64 → Except (SubCause × W64) (List Byte)
  | none => .ok (List.replicate n 0)
  | some a =>
    match s.elemBytes w.core w.c pad a n with
    | .ok b => .ok b
    | .error e => .error (e, a)

/-- Elements of a transfer read: source bytes and destination, or the first failure. -/
def SlSite.readElems (w : SlSite) (s : State) (pad : Bool) (n : Nat) :
    List (Option W64 × W64) → Except (SubCause × W64) (List (List Byte × W64))
  | [] => .ok []
  | (src, dst) :: rest =>
    match w.srcElem s pad n src with
    | .error e => .error e
    | .ok b =>
      match w.readElems s pad n rest with
      | .error e => .error e
      | .ok t => .ok ((b, dst) :: t)

/-- The value of a source element of a conversion: F32 or BF16, read with its subnormals (11 R220). -/
def xferValue (n : Nat) (b : List Byte) : FVal :=
  if n = 4 then fmtF32.decode (bytesToNat b) else fmtBF16.decode (bytesToNat b)

/-- The destination bytes of a transfer in element order; an index beyond the codebook fails, with the address of the destination
element (log entry 100). A NaN that becomes an I8 sets NAN_SEEN of no group (log entry 95). -/
def SlSite.convert (w : SlSite) (s : State) (kind : XferKind) (edst : Nat) (l : List (List Byte × W64)) :
    Except (SubCause × W64) (List (List Byte × W64)) :=
  match kind with
  | .copy => .ok l
  | .decode =>
    let book := (s.core w.core).book
    match l.find? fun x => book.count ≤ bytesToNat x.1 with
    | some x => .error (.codebookRange, x.2)
    | none => .ok (l.map fun x => ((List.range 16).map fun i => book.data.getD (16 * bytesToNat x.1 + i) 0, x.2))
  | .convert fmt _ lfsr =>
    let sl := FmtSlot.ofWord fmt
    let draws := if sl.rm == .sr then drawsFrom l.length lfsr else l.map fun _ => 0
    .ok ((l.zip draws).map fun x =>
      (natToBytes edst (slotConvert sl false x.2 (xferValue x.1.1.length x.1.1)).bits, x.1.2))

/-- The place of a destination element: scratchpad of a team, or a translated address. -/
def SlSite.dstAt (w : SlSite) (s : State) (pad : Bool) (a : W64) (n : Nat) : Except SubCause (Sum (Nat × Nat) Phys) :=
  if pad then
    match s.slPad w.c a n with
    | .ok x => .ok (.inl x)
    | .error e => .error e
  else if a.toNat % n ≠ 0 then .error .misalign
  else
    match s.resolve w.core w.c.ctx .write a.toNat with
    | .ok ph => .ok (.inr ph)
    | .error c => .error c.sub

/-- Destinations of a list of elements, or the first failure. -/
def SlSite.dsts (w : SlSite) (s : State) (pad : Bool) :
    List (List Byte × W64) → Except (SubCause × W64) (List (List Byte × Sum (Nat × Nat) Phys))
  | [] => .ok []
  | (b, a) :: rest =>
    match w.dstAt s pad a b.length with
    | .error e => .error (e, a)
    | .ok d =>
      match w.dsts s pad rest with
      | .error e => .error e
      | .ok t => .ok ((b, d) :: t)

/-- A number for a byte that a transfer reads or writes. -/
def byteKey : Sum (Nat × Nat) Phys → Nat
  | .inl (t, off) => 2 ^ 60 * (t + 1) + off
  | .inr ph => ph.pa

/-- The bytes that a transfer reads, by number; of a replicated page those of the page itself. -/
def SlSite.srcBytes (w : SlSite) (s : State) (pad : Bool) (n : Nat) (elems : List (Option W64 × W64)) : List Nat :=
  elems.flatMap fun x =>
    match x.1 with
    | some a =>
      let at_ : Option (Sum (Nat × Nat) Phys) :=
        if pad then (match s.slPad w.c a n with
          | .ok y => some (.inl y)
          | .error _ => none)
        else match s.resolve w.core w.c.ctx .read a.toNat with
          | .ok ph => some (.inr { ph with pa := (s.homeOf w.core w.c.ctx a.toNat).getD ph.pa })
          | .error _ => none
      at_.elim [] fun d => (List.range n).map fun i => byteKey d + i
    | none => []

/-- One destination element written; a byte that the transfer also reads is unpredictable (11 R221). -/
def SlSite.writeElem (w : SlSite) (s : State) (src : List Nat) (x : List Byte × Sum (Nat × Nat) Phys) : State :=
  let b := x.1.mapIdx fun i y => if src.contains (byteKey x.2 + i) then Config.freeByte s.tick (byteKey x.2 + i) else y
  match x.2 with
  | .inl (t, off) => s.padWrite t off b none
  | .inr ph => s.pathStore .sluice w.c.ctx ph b none

/-- The AMAX update of a conversion (05 R117, 16 R289). -/
def SlSite.amax (w : SlSite) (s : State) (slotNo : Nat) (vs : List FVal) : State :=
  let m := some (BitVec.ofNat 32 (amaxOf vs))
  let inf := amaxOf vs == fmtF32.infBits false
  match w.c.owner with
  | .team _ nest => s.amaxNest nest slotNo m inf 0
  | .packet q idx =>
    s.updQueue q fun x => { x with inflight := x.inflight.map fun p =>
      if p.id = idx then
        let r := amaxLists p.amax p.amaxst slotNo m inf 0
        { p with amax := r.1, amaxst := r.2 }
      else p }
  | .none => s

/-- The AMAX update that a kind of transfer commits. -/
def SlSite.amaxOfKind (w : SlSite) (s : State) (kind : XferKind) (l : List (List Byte × W64)) : State :=
  match kind with
  | .convert fmt slotNo _ =>
    if (FmtSlot.ofWord fmt).amaxEn && !l.isEmpty then w.amax s slotNo (l.map fun x => xferValue x.1.length x.1) else s
  | _ => s

/-- A write of a path to translated addresses waits for the collapse of a replicated page (01 R28), or for room in the ingress buffers
(08 R154). -/
def State.writeWait (s : State) (ctx : Nat) (p : Path) (act : Action) (l : List Phys) : Option State :=
  match s.collapseWait ctx act l with
  | some s1 => some s1
  | none => if l.any fun ph => !ph.host then s.awaitRoom p act else none

/-- A transfer performs: it reads its source, writes its destination and lands its lines. It waits for the walks of its pages, for
the collapse of a replicated page that it writes, and for room for its writes. -/
def SlSite.performXfer (w : SlSite) (s : State) (i : Nat) (pc : W64) (kind : XferKind) (esrc edst : Nat)
    (srcPad dstPad : Bool) (elems : List (Option W64 × W64)) (lines : List (Nat × Nat)) : State :=
  let fail := fun (e : SubCause × W64) => s.slFault w.core w.n e.1 pc e.2
  let srcs := elems.filterMap (·.1)
  match s.awaitWalk w.core w.c.ctx w.performs (devPages srcPad srcs ++ devPages dstPad (elems.map (·.2))), w.readElems s srcPad esrc elems with
  | some s1, _ => s1
  | none, .error e => fail e
  | none, .ok l =>
    match w.convert s kind edst l with
    | .error e => fail e
    | .ok l2 =>
      match w.dsts s dstPad l2 with
      | .error e => fail e
      | .ok ds =>
        match s.writeWait w.c.ctx .sluice w.performs (ds.filterMap fun x => x.2.getRight?) with
        | some s1 => s1
        | none =>
          let src := w.srcBytes s srcPad esrc elems
          let s1 := ds.foldl (fun s' x => w.writeElem s' src x) (w.touch s srcPad srcs)
          let s2 := lines.foldl (fun s' x => s'.padLanded x.1 [x.2]) s1
          w.upd (w.amaxOfKind s2 kind l) fun c => c.dropWork i

/-- An arrival lands (11 R228, Table 11-8): one on an invalid object faults with its offset in the own window (log entry 118). -/
def SlSite.performArrive (w : SlSite) (s : State) (i : Nat) (pc : W64) (addr n : Nat) : State :=
  match s.slTeam w.c with
  | some (t, _) =>
    if (s.object t addr).inv then s.slFault w.core w.n .barrierInvalid pc (BitVec.ofNat 64 addr)
    else (w.upd s fun c => c.dropWork i).arriveOn t addr n true none
  | none => w.upd s fun c => c.dropWork i

/-- The place of a stamp or a signal, or the state in which it waits for a walk or a collapse, or faults. -/
def SlSite.wordAt (w : SlSite) (s : State) (pc a : W64) : Except State Phys :=
  match s.awaitWalk w.core w.c.ctx w.performs [a.toNat / 4096], s.resolve w.core w.c.ctx .write a.toNat with
  | some s1, _ => .error s1
  | none, .error c => .error (s.slFault w.core w.n c.sub pc a)
  | none, .ok ph =>
    match s.collapseWait w.c.ctx w.performs [ph] with
    | some s1 => .error s1
    | none => .ok ph

/-- A stamp is written: a short-class write (11 R229). -/
def SlSite.performStamp (w : SlSite) (s : State) (i : Nat) (pc a v : W64) : State :=
  match w.wordAt s pc a with
  | .error e => e
  | .ok ph =>
      match (if ph.host then none else s.needHost [lineOf ph.pa] [w.performs]) with
      | some s1 => s1
      | none => w.upd ((s.l2Access (s.tenantOf w.c.ctx) ph).shortStore .sluice ph (natToBytes 8 v.toNat) none) fun c =>
          c.dropWork i

/-- A signal performs: the context's earlier writes leave the SLUICE buffers first (11 R230). The host may refuse a signal in
its window, which the manual leaves to the host (23 R427, log entry 30). -/
def SlSite.performSignal (w : SlSite) (s : State) (i : Nat) (pc : W64) (op : SigKind) (a b : W64) : State :=
  match w.wordAt s pc a with
  | .error e => e
  | .ok ph =>
      match s.needHost ((if ph.host then [] else [lineOf ph.pa]) ++ s.drainLines .sluice fun _ => true) [w.performs] with
      | some s1 => s1
      | none =>
        let s1 := s.drainPath .sluice fun _ => true
        if ph.host && Config.freeNat s.tick 301 % 2 = 1 then s1.slFault w.core w.n .atomUnsup pc a
        else
          let s2 := s1.l2Access (s1.tenantOf w.c.ctx) ph
          let old : W64 := BitVec.ofNat 64 (bytesToNat (readBytes (s2.homeByte ph.key) ph.pa 8))
          w.upd (s2.landBytes ph (natToBytes 8 (sigNew op old b).toNat) none) fun c => c.dropWork i

/-- TRANSFER_PERFORM (11 R220): a work item of a context performs. -/
def execTransferPerform (core sctx : Nat) (s : State) : Host.Outcome State Fault Refusal :=
  match s.slAt core sctx with
  | some w =>
    if w.c.faulted.isSome then .next s
    else
      match w.nextWork s with
      | some (i, .xfer pc kind esrc edst srcPad dstPad elems lines) =>
        .next (w.performXfer s i pc kind esrc edst srcPad dstPad elems lines)
      | some (i, .arrive pc addr n) => .next (w.performArrive s i pc addr n)
      | some (i, .stamp pc a v) => .next (w.performStamp s i pc a v)
      | some (i, .signal pc op _ a b) => .next (w.performSignal s i pc op a b)
      | none => .next s
  | none => .next s

/-! ### FORK and RDV -/

/-- A context that starts (11 Table 11-1, R213): the serial is the one of its ticket. -/
def SlCtx.begin (serial : BitVec 24) (prog args : W64) (owner : SlOwner) (ctx : Nat) (wait : Option SlWait) : SlCtx :=
  { SlCtx.reset with
    state := .running
    serial := serial
    w := if args = 0 then [] else [(0, args)]
    pc := prog
    owner := owner
    ctx := ctx
    wait := wait }

/-- The lowest FREE Sluice context of a core. -/
def Core.freeSl (c : Core) : Option Nat := [0, 1, 2, 3].find? fun n => (c.sl n).state == .free

/-- A ticket (11 R213). -/
def ticketOf (n : Nat) (serial : BitVec 24) : W32 := BitVec.ofNat 32 (256 * serial.toNat + n)

/-- FORK (11 R213, 21 R358). -/
def execFork (f : ForkF) (s : State) := onMem s fun w =>
  let prog := w.g.r.rdS64 f.a.toNat
  let args := w.g.r.rdS64 f.b.toNat
  if w.grp != w.tm.shape.producer then w.fault s .copyRights 0
  else if prog.toNat % 8 ≠ 0 then w.fault s .misalign prog
  else
    match (s.core w.core).freeSl with
    | none => s
    | some n =>
      let serial := ((s.core w.core).sl n).serial + 1
      let s1 := s.updSl w.core n fun _ =>
        SlCtx.begin serial prog args (.team w.team w.tm.nest) w.ctx (some (.ticket w.grp w.g.nextId))
      w.post s1 f.la (.fork f) .value [.s f.d.toNat (ticketOf n serial)] 0

/-- RDV (11 R214, 22 R399). -/
def execRdv (f : RdvF) (s : State) := onMem s fun w =>
  let x := w.g.r.rdS f.a.toNat
  let n := (x.extractLsb' 0 2).toNat
  let c := (s.core w.core).sl n
  let mine := match c.owner with
    | .team t _ => t == w.team
    | _ => false
  if x.extractLsb' 2 6 != 0 || c.state == .free || c.serial != x.extractLsb' 8 24 || !mine then w.fault s .illegal 0
  else if c.state == .running then s
  else w.commit (s.updSl w.core n SlCtx.freed) (w.wrPred f.p (c.status == 0))

end Sys2Proof.Machine
end

