-- ==== Sys2Proof/Machine/Faults.lean ====
section
/-! DEFINITION. Accesses of Fountainhead (15 R279, 16 R282), the event log (19 R303), the end of a team halt (14 R250), the
abort of a nest with its fault record (14 R251 to R253, 09 R175), and soft errors (14 R249). -/

namespace Sys2Proof.Machine

/-! ### The event log (19 R303) -/

/-- An event written to the log of 4,096 entries. -/
def Mgmt.record (m : Mgmt) (e : LogEntry) : Mgmt :=
  if m.log.length < 4096 then { m with log := m.log ++ [e] }
  else { m with log := m.log.tail ++ [e], overflow := min (m.overflow + 1) 0xFFFFFFFF }

def State.logEvent (s : State) (e : LogEntry) : State := { s with mgmt := s.mgmt.record e }

/-! ### Accesses of Fountainhead

Its reads and writes perform at the home (log entry 31). -/

/-- The bytes of translated pieces at their homes. -/
def State.homePieces (s : State) (l : List (Phys × Nat)) : List Byte :=
  l.flatMap fun x => readBytes (s.homeByte x.1.key) x.1.pa x.2

/-- The n bytes at a virtual address of a context. -/
def State.fwRead (s : State) (ctx a n : Nat) : Except Bad (List Byte) :=
  match s.rangeFw ctx .read a n with
  | .ok l => .ok (s.homePieces l)
  | .error e => .error e

/-- A number of n bytes at a virtual address of a context. -/
def State.fwNat (s : State) (ctx a n : Nat) : Except Bad Nat :=
  match s.fwRead ctx a n with
  | .ok b => .ok (bytesToNat b)
  | .error e => .error e

/-- The lines of translated pieces that lie in the package. -/
def devLines (l : List (Phys × Nat)) : List Nat := (l.filter fun x => !x.1.host).map fun x => lineOf x.1.pa

/-- Whether the writes of a step to translated pieces must wait, and the state that asks: for a collapse, or for the host (01 R28,
19 R300). -/
def State.pieceWaits (s : State) (ctx : Nat) (act : Action) (l : List (Phys × Nat)) : Option State :=
  match s.collapseWait ctx act (l.map (·.1)) with
  | some s1 => some s1
  | none => s.needHost (devLines l) [act]

/-- Bytes that perform at translated pieces. -/
def State.fwPut (s : State) (l : List (Phys × Nat)) (b : List Byte) : State :=
  (l.foldl (fun (st : State × List Byte) x => (st.1.landBytes x.1 (st.2.take x.2) none, st.2.drop x.2)) (s, b)).1

/-! ### The fault record (14 R253, Table 14-2) -/

/-- Base of the fault area of a context (15 Table 15-6). -/
def Ctx.faultArea (c : Ctx) : Nat := (c.fault.extractLsb' 12 36).toNat * 4096

/-- One group entry. -/
def groupEntry (g : W64 × Bool × Bool × Nat) : List Byte :=
  natToBytes 8 g.1.toNat ++ natToBytes 8 (0x80 + 0x40 * g.2.1.toNat + 0x20 * g.2.2.1.toNat + g.2.2.2)

/-- The bytes of a record; LOST is left as it stands. -/
def FaultInfo.bytes (fi : FaultInfo) (nest : Nat) (multi : Bool) (lost : Nat) : List Byte :=
  let ix := fun k => (fi.ix.getD k 0).toNat
  natToBytes 8 (fi.cause.code + 2 ^ 8 + 2 ^ 9 * fi.precise.toNat + 2 ^ 10 * multi.toNat + 2 ^ 11 * fi.nested.toNat +
    2 ^ 16 * lost + 2 ^ 24 * (fi.sub.elim 0 SubCause.code) + 2 ^ 32 * (nest % 2 ^ 32)) ++
  natToBytes 8 fi.pc.toNat ++ natToBytes 8 fi.addr.toNat ++
  natToBytes 8 (ix 0 + 2 ^ 32 * ix 1) ++ natToBytes 8 (ix 2 + 2 ^ 32 * ix 3) ++
  natToBytes 8 (fi.grp.getD 0xFF + 2 ^ 8 * fi.slctx.getD 0xFF + 2 ^ 16 * fi.groups.length + 2 ^ 32 * fi.owner) ++
  natToBytes 8 (fi.time % 2 ^ 64) ++ natToBytes 8 fi.tinfo.toNat ++ fi.groups.flatMap groupEntry

/-- The record of a fault of a nest written to the fault area of its context, or LOST counted, or the failure logged. The
error is the state in which the step waits for its writes. -/
def State.writeRecord (s : State) (act : Action) (ctx nest : Nat) (fi : FaultInfo) (multi : Bool) : Except State State :=
  let area := (s.ctx ctx).faultArea
  let b := fi.bytes nest multi 0
  match s.fwNat ctx area 8, s.rangeFw ctx .write area b.length with
  | .ok x, .ok l =>
    match s.pieceWaits ctx act l with
    | some s1 => .error s1
    | none =>
      let lost := x / 2 ^ 16 % 256
      if x / 2 ^ 8 % 2 = 1 then
        .ok (s.fwPut (l.take 1) (natToBytes 8 (x - lost * 2 ^ 16 + min (lost + 1) 0xFF * 2 ^ 16)))
      else .ok (s.fwPut l (fi.bytes nest multi lost))
  | _, _ => .ok (s.logEvent (.faultRecord ctx fi.cause))

/-! ### The team halt (14 R250) -/

/-- The next word that a group that has stopped would have issued: PC, ENDED, BOTH and SKID. -/
def Group.haltEntry (g : Group) : W64 × Bool × Bool × Nat :=
  let s0 := (g.r.slot false).live
  let s1 := (g.r.slot true).live
  if g.st.ended then (g.st.endPc, true, false, 0)
  else if g.st.faulted then (g.st.haltedAt.getD 0, false, false, g.st.skid)
  else if s0 then (g.r.s0.pc, false, s1, g.st.skid)
  else (g.r.s1.pc, false, false, g.st.skid)

/-- A group when the halt of its team reaches it: an open window rolls back first (08 R166). -/
def Group.reach (g : Group) : Group := let g := g.rollback; { g with st := { g.st with reached := true } }

/-- The halt of a team does not wait for the result of a word: one that nothing in the device brings to its end, an XRECV or an MWAIT
without a limit (04 R80, log entry 20). -/
def Pending.endless (p : Pending) : Bool :=
  match p.kind with
  | .monitor m => m.limit == 0xFFFFFFFF
  | .recv _ _ => true
  | _ => false

/-- The results of the group that the halt waits for are written (04 R80, 14 R250). -/
def Group.settled (g : Group) : Bool := g.pend.all fun p => !p.out || p.endless

/-- TEAM_HALT (14 R250): the halt reaches every group of the team, and once their outstanding results are written the groups have
stopped, and a record that names the team takes their entries. -/
def execTeamHalt (team : Nat) (s : State) : Host.Outcome State Fault Refusal :=
  match s.teams.find? team with
  | some t =>
    if t.phase != .halting then .next s
    else if t.groups.any fun g => !g.st.reached then .next (s.updTeam team fun t => { t with groups := t.groups.map Group.reach })
    else if t.groups.all Group.settled then
      .next ((s.updTeam team fun t => { t with phase := .halted }).updNest t.nest fun x =>
        { x with fault := x.fault.map fun fi =>
            if fi.team = some team then { fi with groups := t.groups.map Group.haltEntry } else fi })
    else .next s
  | none => .next s

/-! ### The abort of a nest (14 R251, 09 R175) -/

/-- An AtomicOp that the host has received completes there, unless the host refuses it, which the manual leaves to the host. -/
def State.settleHost (s : State) (g : Group) : State :=
  let ok := fun (s : State) (k : Nat) => Config.freeNat s.tick (310 + k) % 2 = 0
  let s1 := g.pend.foldl (fun s' p =>
    match p.kind with
    | .host h =>
      if ok s' 0 then
        let old := bytesToNat (readBytes (s'.homeByte h.cur.key) h.cur.phys h.bytes)
        s'.landBytes h.cur.ph (natToBytes h.bytes (atomNew h.op h.bytes old h.cur.operand h.cur.compare)) none
      else s'
    | _ => s') s
  [g.w0, g.w1].foldl (fun s' x =>
    match x with
    | some (.hostSignal op _ pa b _) =>
      if ok s' 1 then
        let old : W64 := BitVec.ofNat 64 (bytesToNat (readBytes s'.m.home pa 8))
        s'.landBytes ⟨pa, 0, 0, 3, true, false⟩ (natToBytes 8 (sigNew op old b).toNat) none
      else s'
    | _ => s') s1

/-- The Sluice contexts of a nest on a core made FREE (11 R222). -/
def Core.dropSluice (c : Core) (nest : Nat) : Core :=
  (List.range 4).foldl (fun c n =>
    match (c.sl n).owner with
    | .team _ k => if k = nest then c.setSl n (c.sl n).freed else c
    | _ => c) c

/-- A core after the abort of a nest: entries that have not started go, and so do its Sluice contexts. -/
def Core.abort (c : Core) (nest : Nat) : Core :=
  { c with fifo := c.fifo.filter fun e => e.nest != nest }.dropSluice nest

/-- The L1 contents of the teams of a nest on a core are discarded (09 R175): the clean lines of its context, and the dirty ones that
its teams alone have written, of which the manual leaves open whether they reach memory. `mine` tells its teams, and `alone` says that no
other team of the context has a part in the lines of the core. -/
def State.dropLines (s : State) (ctx core : Nat) (mine : Nat → Bool) (alone : Bool) : State :=
  ((s.m.l1Of core).filter fun e => e.2.ctx == ctx &&
      (e.2.dirty == 0 || alone || (!e.2.writers.isEmpty && e.2.writers.all fun x => mine x.1))).foldl (fun s' e =>
    (if (s'.refusal core e.1 e.2).isNone && Config.freeNat s.tick (1000 + e.1) % 2 == 0 then s'.wbLine core e.1 e.2
      else s').eraseL1 core e.1) s

/-- The engine words of a nest that the abort cancels, which the manual leaves open (14 R251). -/
def State.cancelEngines (s : State) (nest : Nat) : State :=
  { s with engines := s.engines.filter fun e => !(e.2.nest == nest && Config.freeNat s.tick (500 + e.1) % 2 == 1) }

/-- Everything of a nest discarded: teams, work, entries of ready queues and reservations; a load from scratchpad among the array work
leaves its core without the contents (10 R182). -/
def State.discard (s : State) (nest : Nat) (x : Nest) : State :=
  let mine := s.teams.filter fun t => t.2.nest == nest
  let cores := (mine.map fun t => t.2.core).eraseDups
  let s1 := mine.foldl (fun s' t => t.2.groups.foldl State.settleHost s') s
  let s2 : State := { s1.cancelEngines nest with
    teams := s1.teams.filter fun t => t.2.nest != nest
    cores := s1.cores.mapVals fun _ c => c.abort nest
    ready := s1.ready.mapVals fun _ l => l.filter fun e => e.nest != nest
    reservations := s1.reservations.filter fun r => r.2.entry.nest != nest }
  let s3 := s1.cores.foldl (fun s' c => (c.2.fifo.filter fun e => e.nest == nest).foldl (fun s'' e => s''.padLoadLost c.1 e) s') s2
  cores.foldl (fun s' c =>
    (s'.dropLines x.ctx c (fun t => mine.any fun e => e.1 == t)
      (!s2.teams.any fun t => t.2.ctx == x.ctx && t.2.core == c)).resplit c) s3

/-- The team that a record names has been halted, or is gone. -/
def State.halted (s : State) (fi : FaultInfo) : Bool :=
  match fi.team with
  | some t => (s.teams.find? t).all fun tm => tm.phase == .halted
  | none => true

/-- NEST_ABORT (14 R251, R253): the record is written, the nest is discarded, and its packet has failed. -/
def execNestAbort (nest : Nat) (s : State) : Host.Outcome State Fault Refusal :=
  match s.nests.find? nest with
  | some x =>
    match x.fault with
    | some fi =>
      if s.halted fi then
        match s.writeRecord (.event (.nestAbort nest)) x.ctx nest fi x.multi with
        | .error s1 => .next s1
        | .ok s1 => .next ((s1.discard nest x).endNest nest (some 0x14))
      else .next s
    | none => .next s
  | none => .next s

/-! ### Soft errors (14 R249) -/

/-- ECC_ERROR: a corrected error is logged; an uncorrectable one that reaches a nest aborts it, with the word that consumed
the data when it is known. -/
def execEccError (nest : Option Nat) (grp : Option (Nat × Nat)) (pc : W64) (addr : Nat) (s : State) :
    Host.Outcome State Fault Refusal :=
  match nest, grp with
  | none, _ => .next (s.logEvent (.softError addr))
  | some n, none =>
    .next (s.recordFault n
      { cause := .eccUncorr, sub := none, nested := false, precise := false, pc := 0, addr := BitVec.ofNat 64 addr, ix := [0, 0, 0, 0],
        owner := 0, slctx := none, grp := none, tinfo := 0, time := s.time, team := none, groups := [] })
  | some n, some (team, grp) =>
    match s.group? team grp, s.teams.find? team with
    | some g, some tm =>
      if tm.nest = n then .next (Site.faultLate ⟨team, grp, false, tm, g⟩ s .eccUncorr pc (BitVec.ofNat 64 addr)) else .next s
    | _, _ => .next s

end Sys2Proof.Machine
end

