-- ==== Sys2Proof/Machine/Engine.lean ====
section
/-! DEFINITION. The words of the basin engines (12 R233 to R247, 20 R307, R308, R313, 21 R345, R361, 22 R406), their progress,
their late faults and the messages of communicators. -/

namespace Sys2Proof.Machine

/-! ### Descriptors -/

/-- Doubleword k of a descriptor. -/
def dword (d : List W64) (k : Nat) : W64 := d.getD k 0
/-- Bits hi to lo of doubleword k, as a number. -/
def dbits (d : List W64) (k lo n : Nat) : Nat := ((dword d k).toNat / 2 ^ lo) % 2 ^ n
def dstamp (d : List W64) : W64 := dword d 0
def dstampVal (d : List W64) : W64 := dword d 1

/-- The eight doublewords of 64 bytes. -/
def dwords (b : List Byte) : List W64 := (List.range 8).map fun k => BitVec.ofNat 64 (bytesToNat ((b.drop (8 * k)).take 8))

/-- The checks of a descriptor: a test of ranges and reserved bits, then the bases with their alignments (12 R235); a descriptor with
both faults is ILLEGAL, and of two misaligned bases the first in the order of its fields is named (log entry 120). -/
def descCheck (ranges : Bool) (bases : List (W64 × Nat)) : Option Bad :=
  if !ranges then some (.illegal, 0)
  else (bases.find? fun x => x.1.toNat % x.2 ≠ 0).map fun x => (.misalign, x.1)

/-- Fields of a gather or scatter descriptor (12 Table 12-3). -/
def dpitch (d : List W64) : Nat := dbits d 5 32 32
def dataPad (d : List W64) : Bool := (dword d 5).getLsbD 29
def indexPad (d : List W64) : Bool := (dword d 5).getLsbD 28
def scatOp (d : List W64) : Nat := dbits d 5 24 4
def rowBytes (d : List W64) : Nat := 16 * (dbits d 5 16 8 + 1)
def positions (d : List W64) : Nat := dbits d 5 0 13
def tableRows (d : List W64) : Nat := dbits d 6 0 32

def checkGather (d : List W64) (ops : Nat) : Option Bad :=
  descCheck
    (dbits d 5 30 2 == 0 && dbits d 5 13 3 == 0 && scatOp d < ops && 1 ≤ positions d && positions d ≤ 4096 &&
      dpitch d % 16 == 0 && rowBytes d ≤ dpitch d && dbits d 6 32 32 == 0 && dword d 7 == 0)
    [(dstamp d, 8), (dword d 2, 16), (dword d 3, 4), (dword d 4, 16)]

/-- Fields of an expert-sort descriptor (12 Table 12-4). -/
def experts (d : List W64) : Nat := dbits d 6 32 12 + 1
def pairCount (d : List W64) : Nat := dbits d 6 0 17

def checkEsort (d : List W64) : Option Bad :=
  descCheck
    (dbits d 6 44 20 == 0 && dbits d 6 17 15 == 0 && 1 ≤ pairCount d && pairCount d ≤ 65536 && dword d 7 == 0)
    [(dstamp d, 8), (dword d 2, 8), (dword d 3, 4), (dword d 4, 4), (dword d 5, 4)]

/-- COMM of a collective descriptor (12 Tables 12-6 and 12-7). -/
def commNo (d : List W64) : Nat := dbits d 6 32 16
def recvCap (d : List W64) : Nat := dbits d 6 0 32

def checkA2av (d : List W64) : Option Bad :=
  descCheck (dbits d 6 48 16 == 0 && commNo d ≤ 255 && dword d 7 == 0)
    [(dstamp d, 8), (dword d 2, 16), (dword d 3, 4), (dword d 4, 16), (dword d 5, 4)]

def slotField (d : List W64) : Nat := dbits d 6 48 3
def elemCount (d : List W64) : Nat := dbits d 6 0 32

/-- Slots that AREDC accepts (12 R247). -/
def aredcSlot (x : W32) : Bool :=
  let f := FmtSlot.ofWord x
  (f.fmt == 8 || f.fmt == 9 || f.fmt == 10 || (1 ≤ f.fmt && f.fmt ≤ 4)) && f.rm != .sr

def checkAredc (d : List W64) (slot : W32) : Option Bad :=
  descCheck
    (dword d 4 == 0 && dword d 5 == 0 && dbits d 6 51 13 == 0 && commNo d ≤ 255 && elemCount d % 32 == 0 &&
      32 ≤ elemCount d && elemCount d ≤ 2 ^ 28 && dword d 7 == 0 && aredcSlot slot)
    [(dstamp d, 8), (dword d 2, 128), (dword d 3, 128)]

/-! ### Issue (12 R234, R235, R238) -/

/-- Engine words of a core whose stamps are not written. -/
def State.engineCount (s : State) (core : Nat) : Nat := (s.engines.filter fun e => e.2.core == core).length

/-- Key of a communicator entry. -/
def commKey (vd comm : Nat) : Nat := 256 * vd + comm

/-- The rows of a GATHER in scratchpad: team and lines of each destination that lies in an allocation. -/
def State.gatherLines (s : State) (t : Nat) (tm : Team) (d : List W64) : List (Nat × Nat) :=
  if dataPad d then
    ((List.range (positions d)).flatMap fun i =>
      match s.padAt t tm (((dword d 4).toNat % 2 ^ 24) + i * dpitch d) (rowBytes d) with
      | .ok (t', off) => ((List.range (rowBytes d / 128 + 2)).map fun k => (t', min (off + 128 * k) (off + rowBytes d - 1) / 128))
      | .error _ => []).eraseDups
  else []

/-- The engine word that a site posts. -/
def Site.engineWord (w : Site) (s : State) (kind : EngineKind) (d : List W64) (slot : W32) (seq : Nat)
    (lines : List (Nat × Nat)) : EngineWord where
  kind := kind
  desc := d
  team := w.team
  grp := w.grp
  nest := w.tm.nest
  ctx := w.ctx
  vd := (s.ctx w.ctx).vd
  core := w.core
  pc := w.pc
  ix := w.tm.ix
  pend := w.g.nextId
  stage := .issued
  indices := []
  lines := lines
  fmt := slot
  amax := 0
  seq := seq
  since := s.time

/-- The descriptor of an engine word read through the CORE path; `f` goes on with its doublewords when the word may post. A further
word waits while 32 of the core have no stamp yet. -/
def Site.withDesc (w : Site) (s : State) (a : BitVec 8) (check : List W64 → Option Bad) (f : State → List W64 → State) :
    State :=
  let hit := fun ph => s.l1Hit w.core ph 64
  if 32 ≤ s.engineCount w.core then s
  else
    match w.devPhysIf s .read hit 64 (w.g.r.rdS64 a.toNat) with
    | .error (c, x) => w.fault s c x
    | .ok ph =>
      if w.rejects s (missLines hit [ph]).length then w.reject s
      else
        let d := dwords ((List.range 64).map fun i => s.coreByte w.core ph i)
        match check d with
        | some (c, x) => w.fault s c x
        | none => f (s.loadFill w.core w.ctx ph 64) d

/-- A word posted: it takes an id, and its scratchpad lines lose their presence bits. -/
def State.postEngine (s : State) (e : EngineWord) : Nat × State :=
  let (id, s1) := s.fresh
  (id, e.lines.foldl (fun s' x => s'.padClear x.1 [x.2]) { s1 with engines := s1.engines.put id e })

/-- A word of a communicator posted with the next ordinal; an unconfigured entry is ILLEGAL (12 R244). -/
def Site.postColl (w : Site) (s0 s : State) (kind : EngineKind) (d : List W64) (slot : W32) : State :=
  let k := commKey (s.ctx w.ctx).vd (commNo d)
  match s.comms.find? k with
  | none => w.fault s0 .illegal 0
  | some c =>
    let (_, s1) := s.postEngine (w.engineWord s kind d slot c.seq [])
    w.commit { s1 with comms := s1.comms.put k { c with seq := c.seq + 1 } } w.g.r

/-- A2AV (20 R307, R308). -/
def execA2av (f : SReg) (s : State) := onMem s fun w =>
  w.withDesc s f.a checkA2av fun s1 d => w.postColl s s1 .a2av d 0

/-- AREDC (20 R313). -/
def execAredc (f : SReg) (s : State) := onMem s fun w =>
  let slot := fun d => s.fslotWord w.tm.nest (slotField d)
  w.withDesc s f.a (fun d => checkAredc d (slot d)) fun s1 d => w.postColl s s1 .aredc d (slot d)

/-- ESORT (21 R345). -/
def execEsort (f : SReg) (s : State) := onMem s fun w =>
  w.withDesc s f.a checkEsort fun s1 d => w.commit (s1.postEngine (w.engineWord s .esort d 0 0 [])).2 w.g.r

/-- SCATTER (22 R406). -/
def execScatter (f : SReg) (s : State) := onMem s fun w =>
  w.withDesc s f.a (fun d => checkGather d 3) fun s1 d =>
    w.commit (s1.postEngine (w.engineWord s .scatter d 0 0 [])).2 w.g.r

/-- GATHER (21 R361): long-latency, with the count of 12 R240 as its result. -/
def execGather (f : LaDA) (s : State) := onMem s fun w =>
  w.withDesc s f.a (fun d => checkGather d 1) fun s1 d =>
    let (id, s2) := s1.postEngine (w.engineWord s .gather d 0 0 (s.gatherLines w.team w.tm d))
    w.post s2 f.la (.gather f) (.count id f.d.toNat) [] 0

/-! ### What an engine finds -/

/-- What an attempt of an engine gives: a failure with its address, a wait from a state, or its writes made. -/
inductive Attempt where
  | fail (c : Cause) (addr : W64)
  | wait (s : State)
  | done (s : State)

/-- Why an access of an engine does not go on: a failure with its address, or a page that a walker must translate first. -/
inductive EngineStop where
  | bad (c : Cause) (addr : W64)
  | walk (page : Nat)

/-- The step that an engine word makes again when one of its walks has failed: it takes the fault. -/
def lateStep (id : Nat) : Action := .event (.engineLateFault id)

/-- What a stop makes of the attempt of a word. -/
def EngineStop.attempt (x : EngineStop) (s : State) (id : Nat) (e : EngineWord) : Attempt :=
  match x with
  | .bad c a => .fail c a
  | .walk page => .wait (s.walkOr e.core e.ctx page (lateStep id))

/-- The path of the writes of an engine word (08 Table 8-8). -/
def EngineKind.path : EngineKind → Path
  | .a2av | .aredc => .coll
  | _ => .cistern

/-- A word that waits with its writes for a collapse or for room in the buffers of its path, or goes on. -/
def State.engineWait (s : State) (id : Nat) (e : EngineWord) (phs : List Phys) (go : Attempt) : Attempt :=
  match s.writeWait e.ctx e.kind.path (.event (.engineComplete id)) phs with
  | some s1 => .wait s1
  | none => go

/-- Translation of a read for an engine of a basin: a replicated page is served from the copy of that basin (01 R27, 12 R240). -/
def State.resolveNear (s : State) (basin core ctx va : Nat) : Except Cause Phys :=
  if 2 ^ 48 ≤ va then .error .xlateNp
  else
    match s.xlate core ctx (va / 4096) with
    | .error c => .error c
    | .ok e =>
      if !s.permit ctx .read e then .error .xlateProt
      else
        let ph := (s.nearCopy basin { e with frame := e.home }).phys .read va
        if s.portAllows (corePort core) ph.pa then .ok ph else .error .partition

/-- A range that an engine word accesses, translated by a translator. -/
def State.engineRange (s : State) (e : EngineWord) (tr : Nat → Except Cause Phys) (a n : Nat) :
    Except EngineStop (List (Phys × Nat)) :=
  let l := piecesOf a n
  match l.find? fun x => s.needWalk e.core e.ctx (x.1 / 4096) with
  | some x => .error (.walk (x.1 / 4096))
  | none =>
    match resolvePieces tr l with
    | .error x => .error (.bad x.1 x.2)
    | .ok l => .ok l

/-- A 64-bit address moved on. -/
def addrAt (base : W64) (off : Nat) : Nat := (base.toNat + off) % 2 ^ 64

/-- Scratchpad that an engine word reads or writes: none once the pad is gone. -/
def State.enginePad (s : State) (e : EngineWord) (a n : Nat) : Except EngineStop (Option (Nat × Nat)) :=
  match s.teams.find? e.team with
  | none => .ok none
  | some tm =>
    match s.padAt e.team tm a n with
    | .ok x => .ok (some x)
    | .error c => .error (.bad c (BitVec.ofNat 64 a))

/-- Whether a read of scratchpad touches a line that another transfer has cleared (08 R148). -/
def State.engineAbsent (s : State) (e : EngineWord) (t off n : Nat) : Bool :=
  (s.teams.find? t).elim false fun tm => (List.range (n / 128 + 2)).any fun k =>
    let line := min (off + 128 * k) (off + n - 1) / 128
    (if e.lines.contains (t, line) then 1 else 0) < tm.absent.getD line 0

/-- n bytes that an engine word reads: none when it waits for an absent line. A pad that is gone holds free bytes. -/
def State.engineRead (s : State) (p : Path) (basin : Nat) (e : EngineWord) (pad : Bool) (a n : Nat) :
    Except EngineStop (Option (List Byte)) :=
  if pad then
    match s.enginePad e a n with
    | .error x => .error x
    | .ok none => .ok (some ((List.range n).map fun i => Config.freeByte s.tick (a + i)))
    | .ok (some (t, off)) => if s.engineAbsent e t off n then .ok none else .ok (some (s.padRead t off n))
  else
    match s.engineRange e (s.resolveNear basin e.core e.ctx) a n with
    | .error x => .error x
    | .ok l => .ok (some (s.readPieces p l))

/-- The accesses at the slices of a range that an engine word has read (15 R274). -/
def State.engineTouch (s : State) (basin : Nat) (e : EngineWord) (pad : Bool) (a n : Nat) : State :=
  if pad then s
  else
    match s.engineRange e (s.resolveNear basin e.core e.ctx) a n with
    | .error _ => s
    | .ok l => s.touch e.ctx l

/-- Pieces that an engine word writes. -/
def State.engineDst (s : State) (e : EngineWord) (a n : Nat) : Except EngineStop (List (Phys × Nat)) :=
  s.engineRange e (s.resolve e.core e.ctx .write) a n

/-- The first failure of a function over a list, or its results. -/
def tryEach {ε α β : Type} (f : α → Except ε β) : List α → Except ε (List β)
  | [] => .ok []
  | x :: rest =>
    match f x with
    | .error e => .error e
    | .ok y =>
      match tryEach f rest with
      | .error e => .error e
      | .ok t => .ok (y :: t)

/-- 32-bit words of bytes. -/
def words32 (n : Nat) (b : List Byte) : List Nat := (List.range n).map fun i => bytesToNat ((b.drop (4 * i)).take 4)

/-- The basin of the home of an address, for the engine beside it; an address that does not translate leaves the engine of the core's
own basin (log entry 102). -/
def State.engineBasin (s : State) (e : EngineWord) (a : W64) : Nat :=
  match s.xlate e.core e.ctx (a.toNat / 4096) with
  | .ok x => basinOf ((x.phys .write a.toNat).pa)
  | .error _ => coreBasin e.core

/-- Free bytes written to the part of a range that an engine word may write: its contents are unpredictable. -/
def State.scramble (s : State) (p : Path) (e : EngineWord) (a n : Nat) : State :=
  (piecesOf a n).foldl (fun s' x =>
    match s'.resolve e.core e.ctx .write x.1 with
    | .ok ph =>
      if ph.repl || s'.m.collapses.any (fun c => c.holds ph.pa) then s'
      else s'.pathStore p e.ctx ph ((List.range x.2).map fun i => Config.freeByte s'.tick (x.1 + i)) (some e.nest)
    | .error _ => s') s

/-- The common part of two ranges: address and length. -/
def common (x y : Nat × Nat) : Nat × Nat :=
  let lo := max x.1 y.1
  (lo, min (x.1 + x.2) (y.1 + y.2) - lo)

/-- The overlaps of pairs of ranges made unpredictable. -/
def State.scrambleAll (s : State) (p : Path) (e : EngineWord) (l : List ((Nat × Nat) × (Nat × Nat))) : State :=
  l.foldl (fun s' x => let c := common x.1 x.2; if c.2 = 0 then s' else s'.scramble p e c.1 c.2) s

/-! ### GATHER and SCATTER (12 R239 to R241) -/

/-- The address of INDEX: a scratchpad address in its low 24 bits (log entry 113), or a virtual one. -/
def EngineWord.indexAt (e : EngineWord) : Nat :=
  if indexPad e.desc then (dword e.desc 3).toNat % 2 ^ 24 else (dword e.desc 3).toNat

/-- The indices of a word, as its Cistern reads them. -/
def State.readIndices (s : State) (e : EngineWord) : Except EngineStop (Option (List Nat)) :=
  match s.engineRead .cistern (s.engineBasin e (dword e.desc 2)) e (indexPad e.desc) e.indexAt (4 * positions e.desc) with
  | .error x => .error x
  | .ok none => .ok none
  | .ok (some b) => .ok (some (words32 (positions e.desc) b))

/-- The accesses of the read of the indices. -/
def State.touchIndices (s : State) (e : EngineWord) : State :=
  s.engineTouch (s.engineBasin e (dword e.desc 2)) e (indexPad e.desc) e.indexAt (4 * positions e.desc)

/-- The distinct in-range indices. -/
def EngineWord.rows (e : EngineWord) (idx : List Nat) : List Nat := (idx.filter fun r => r < tableRows e.desc).eraseDups

/-- The address of row r. -/
def EngineWord.rowAt (e : EngineWord) (r : Nat) : Nat := addrAt (dword e.desc 2) (r * rowBytes e.desc)

/-- The address of position i. Of a scratchpad address the low 24 bits of DATA are taken, as of INDEX, and the bits over them are not
looked at (Table 12-3, log entry 113). -/
def EngineWord.posAt (e : EngineWord) (i : Nat) : Nat :=
  if dataPad e.desc then (dword e.desc 4).toNat % 2 ^ 24 + i * dpitch e.desc
  else addrAt (dword e.desc 4) (i * dpitch e.desc)

/-- The rows that a GATHER reads, each once. -/
def State.rowsRead (s : State) (e : EngineWord) (rs : List Nat) : Except EngineStop (List (Nat × List (Phys × Nat))) :=
  tryEach (fun r =>
    match s.engineRange e (s.resolveNear (s.engineBasin e (dword e.desc 2)) e.core e.ctx) (e.rowAt r) (rowBytes e.desc) with
    | .error x => .error x
    | .ok l => .ok (r, l)) rs

/-- The place of one position: scratchpad, translated pieces, or a pad that is gone. -/
inductive PosAt where
  | pad (t off : Nat)
  | dev (l : List (Phys × Nat))
  | gone
  deriving DecidableEq, Repr

def State.posPlace (s : State) (e : EngineWord) (i : Nat) : Except EngineStop PosAt :=
  if dataPad e.desc then
    match s.enginePad e (e.posAt i) (rowBytes e.desc) with
    | .error x => .error x
    | .ok none => .ok .gone
    | .ok (some (t, off)) => .ok (.pad t off)
  else
    match s.engineDst e (e.posAt i) (rowBytes e.desc) with
    | .error x => .error x
    | .ok l => .ok (.dev l)

def PosAt.pieces : PosAt → List (Phys × Nat)
  | .dev l => l
  | _ => []

def State.putPos (s : State) (e : EngineWord) (x : PosAt) (b : List Byte) : State :=
  match x with
  | .pad t off => s.padWrite t off b none
  | .dev l => s.writePieces .cistern e.ctx (some e.nest) l b
  | .gone => s

/-- The writes of a word are made. -/
def State.engineDone (s : State) (id : Nat) (ok : Bool) (amax : W32) : State :=
  { s with engines := s.engines.upd id fun e => { e with stage := .written ok, amax := amax } }

/-- A GATHER with its indices read. -/
def State.runGather (s : State) (id : Nat) (e : EngineWord) : Attempt :=
  match s.rowsRead e (e.rows e.indices), tryEach (s.posPlace e) (List.range (positions e.desc)) with
  | .error x, _ => x.attempt s id e
  | _, .error x => x.attempt s id e
  | .ok rows, .ok places =>
    s.engineWait id e (places.flatMap fun x => x.pieces.map (·.1)) <|
      let data := rows.map fun x => (x.1, s.readPieces .cistern x.2)
      let s1 := rows.foldl (fun s' x => s'.touch e.ctx x.2) s
      let row := fun r => ((data.find? fun x => x.1 == r).map (·.2)).getD (List.replicate (rowBytes e.desc) 0)
      let s2 := (places.zip e.indices).foldl (fun s' x => s'.putPos e x.1 (row x.2)) s1
      .done ((e.lines.foldl (fun s' x => s'.padLanded x.1 [x.2]) s2).engineDone id true 0)

/-- The words of data that a SCATTER combines for one row: the last position for STORE, else the sum in position order. -/
def scatRow (op : Nat) (l : List (List Nat)) : List Nat :=
  match l with
  | [] => []
  | x :: rest =>
    rest.foldl (fun acc y =>
      if op = 0 then y
      else (acc.zip y).map fun z => (scatCombine op (BitVec.ofNat 32 z.1) (BitVec.ofNat 32 z.2)).toNat) x

/-- One element update at the slice of its home; in the host window it performs at once. -/
def State.scatElem (s : State) (nest op ctx : Nat) (ph : Phys) (x : Nat) : State :=
  let u : ScatUpd := ⟨op, 0, ph.pa, x⟩
  let e : IngressEntry := { s.entryOf ph [] (some nest) none with upd := some u }
  if ph.host then (s.atsUse ph.pa).leave e else (s.l2Access (s.tenantOf ctx) ph).push .cistern e

/-- One row written or updated. -/
def State.scatWrite (s : State) (e : EngineWord) (l : List (Phys × Nat)) (xs : List Nat) : State :=
  if scatOp e.desc = 0 then s.writePieces .cistern e.ctx (some e.nest) l (xs.flatMap (natToBytes 4))
  else
    let at_ := l.flatMap fun p => (List.range (p.2 / 4)).map fun k => { p.1 with pa := p.1.pa + 4 * k }
    (at_.zip xs).foldl (fun s' x => s'.scatElem e.nest (scatOp e.desc) e.ctx x.1 x.2) s

/-- Device ranges of a SCATTER that may overlap its table. -/
def EngineWord.scatOverlaps (e : EngineWord) : List ((Nat × Nat) × (Nat × Nat)) :=
  let table := ((dword e.desc 2).toNat, tableRows e.desc * rowBytes e.desc)
  let index := ((dword e.desc 3).toNat, 4 * positions e.desc)
  let data := ((dword e.desc 4).toNat, (positions e.desc - 1) * dpitch e.desc + rowBytes e.desc)
  (if indexPad e.desc then [] else [(table, index)]) ++ (if dataPad e.desc then [] else [(table, data)])

/-- A SCATTER. -/
def State.runScatter (s : State) (id : Nat) (e : EngineWord) : Attempt :=
  match s.readIndices e with
  | .error x => x.attempt s id e
  | .ok none => .wait s
  | .ok (some idx) =>
    let basin := s.engineBasin e (dword e.desc 2)
    let used := (idx.zipIdx).filter fun x => x.1 < tableRows e.desc
    match tryEach (fun (x : Nat × Nat) => s.engineRead .cistern basin e (dataPad e.desc) (e.posAt x.2) (rowBytes e.desc)) used,
        tryEach (fun r => s.engineDst e (e.rowAt r) (rowBytes e.desc)) (e.rows idx) with
    | .error x, _ => x.attempt s id e
    | _, .error x => x.attempt s id e
    | .ok reads, .ok dsts =>
      if reads.any Option.isNone then .wait s
      else if scatOp e.desc = 2 && dsts.any (fun l => l.any fun p => p.1.host) then .fail .atomUnsup (dword e.desc 2)
      else
        s.engineWait id e (dsts.flatten.map (·.1)) <|
        let data := (used.zip reads).map fun x => (x.1.1, words32 (rowBytes e.desc / 4) (x.2.getD []))
        let s0 := used.foldl (fun s' x => s'.engineTouch basin e (dataPad e.desc) (e.posAt x.2) (rowBytes e.desc)) (s.touchIndices e)
        let s1 := ((e.rows idx).zip dsts).foldl (fun s' x =>
          s'.scatWrite e x.2 (scatRow (scatOp e.desc) ((data.filter fun y => y.1 == x.1).map (·.2)))) s0
        .done ((s1.scrambleAll .cistern e e.scatOverlaps).engineDone id true 0)

/-! ### ESORT (12 R243) -/

/-- The tokens of each bucket in order, for E experts. -/
def sortBuckets (n : Nat) (pairs : List (Nat × Nat)) : List (List Nat) :=
  (List.range (n + 1)).map fun b => (pairs.filter fun p => min p.2 n == b).map (·.1)

/-- Exclusive sums from a start. -/
def exclusive : Nat → List Nat → List Nat
  | _, [] => []
  | a, x :: rest => a :: exclusive (a + x) rest

def State.runEsort (s : State) (id : Nat) (e : EngineWord) : Attempt :=
  let n := pairCount e.desc
  let m := experts e.desc + 1
  let ranges := [((dword e.desc 2).toNat, 8 * n), ((dword e.desc 3).toNat, 4 * n), ((dword e.desc 4).toNat, 4 * m),
    ((dword e.desc 5).toNat, 4 * m)]
  let basin := s.engineBasin e (dword e.desc 2)
  match s.engineRead .cistern basin e false (dword e.desc 2).toNat (8 * n),
      tryEach (fun (x : Nat × Nat) => s.engineDst e x.1 x.2) ranges.tail with
  | .error x, _ => x.attempt s id e
  | _, .error x => x.attempt s id e
  | .ok none, _ => .wait s
  | .ok (some b), .ok dsts =>
    s.engineWait id e (dsts.flatten.map (·.1)) <|
      let ws := words32 (2 * n) b
      let pairs := (List.range n).map fun p => (ws.getD (2 * p) 0, ws.getD (2 * p + 1) 0)
      let buckets := sortBuckets (experts e.desc) pairs
      let counts := buckets.map List.length
      let out := [buckets.flatten, counts, exclusive 0 counts]
      let s1 := (dsts.zip out).foldl (fun s' x =>
        s'.writePieces .cistern e.ctx (some e.nest) x.1 (x.2.flatMap (natToBytes 4)))
        (s.engineTouch basin e false (dword e.desc 2).toNat (8 * n))
      let r := fun k => ranges.getD k (0, 0)
      .done ((s1.scrambleAll .cistern e
        [(r 0, r 1), (r 0, r 2), (r 0, r 3), (r 1, r 2), (r 1, r 3), (r 2, r 3)]).engineDone id true 0)

/-! ### Collectives (12 R244 to R247) -/

/-- The communicator of a word. -/
def State.commOf (s : State) (e : EngineWord) : Option Comm := s.comms.find? (commKey e.vd (commNo e.desc))

def EngineWord.collective (e : EngineWord) : Bool := e.kind == .a2av || e.kind == .aredc

/-- The word is the oldest on its communicator, so that it is the one that runs. -/
def State.runs (s : State) (e : EngineWord) : Bool :=
  s.engines.all fun x => !(x.2.collective && x.2.vd == e.vd && commNo x.2.desc == commNo e.desc && x.2.seq < e.seq)

/-- The message of a rank for a word. -/
def Comm.msg? (c : Comm) (e : EngineWord) (rank : Nat) : Option CollMsg := c.msgs.find? fun m => m.rank == rank && m.seq == e.seq

/-- Ranks of a communicator. -/
def Comm.ranks (c : Comm) : Nat := c.packages.length

/-- The other ranks. -/
def Comm.others (c : Comm) : List Nat := (List.range c.ranks).filter (· != c.rank)

/-- A message matches the word: kind, COMM, N and SLOT, and the descriptor of the slot (12 R245, 20 R313). -/
def EngineWord.matched (e : EngineWord) (m : CollMsg) : Bool :=
  let f := fun k => m.cmd.getD k 0
  match e.kind with
  | .a2av => m.cmd.length == 4 && f 0 == 0 && f 1 == commNo e.desc
  | _ => m.cmd.length == 5 && f 0 == 1 && f 1 == commNo e.desc && f 2 == elemCount e.desc && f 3 == slotField e.desc && f 4 == e.fmt.toNat

/-- Some message says that the word ends in a collective error. -/
def Comm.spoils (c : Comm) (e : EngineWord) : Bool :=
  c.msgs.any fun m => m.seq == e.seq && m.rank != c.rank && !e.matched m

/-- Every other rank has joined. -/
def Comm.joined (c : Comm) (e : EngineWord) : Bool := c.others.all fun r => (c.msg? e r).isSome

/-- The destination ranges of a collective word. -/
def EngineWord.collDsts (e : EngineWord) (ranks : Nat) : List (Nat × Nat) :=
  match e.kind with
  | .a2av => [((dword e.desc 4).toNat, recvCap e.desc), ((dword e.desc 5).toNat, 4 * ranks)]
  | _ => [((dword e.desc 2).toNat, 4 * elemCount e.desc), ((dword e.desc 3).toNat, 4 * elemCount e.desc)]

/-- The word ends in a collective error: its destinations are unpredictable (12 R245). -/
def State.collError (s : State) (id : Nat) (e : EngineWord) (ranks : Nat) : State :=
  ((e.collDsts ranks).foldl (fun s' x => s'.scramble .coll e x.1 x.2) s).engineDone id false 0

/-- The counts that the ranks named for this rank, and whether some rank found a bad count or an exceeded capacity. -/
def EngineWord.counts (e : EngineWord) (c : Comm) (own : List Nat) : List Nat × Bool :=
  let named := (List.range c.ranks).map fun r =>
    if r = c.rank then own.getD c.rank 0 else ((c.msg? e r).map fun m => m.cmd.getD 2 0 % 2 ^ 32).getD 0
  let far := c.others.any fun r => ((c.msg? e r).map fun m => m.cmd.getD 3 0 != 0).getD false
  (named, far || (named ++ own).any (fun n => n % 4 != 0) || recvCap e.desc < named.foldl (· + ·) 0)

/-- The segment that a rank sends to this one. -/
def segment (c : Comm) (e : EngineWord) (own : List Byte) (r n : Nat) : List Byte :=
  let b := if r = c.rank then own else ((c.msg? e r).map (·.data)).getD []
  (List.range n).map fun i => b.getD i 0

/-- A2AV with every rank joined, at the collective engine of the issuing core's basin (log entry 119). -/
def State.runA2av (s : State) (id : Nat) (e : EngineWord) (c : Comm) : Attempt :=
  let basin := coreBasin e.core
  match s.engineRead .coll basin e false (dword e.desc 3).toNat (4 * c.ranks),
      s.engineDst e (dword e.desc 5).toNat (4 * c.ranks) with
  | .error x, _ => x.attempt s id e
  | _, .error x => x.attempt s id e
  | .ok none, _ => .wait s
  | .ok (some b), .ok rc =>
    let own := words32 c.ranks b
    let (named, bad) := e.counts c own
    let put := fun (s' : State) =>
      (s'.engineTouch basin e false (dword e.desc 3).toNat (4 * c.ranks)).writePieces .coll e.ctx (some e.nest) rc
        (named.flatMap (natToBytes 4))
    s.engineWait id e (rc.map (·.1)) <|
    if bad then .done ((put s).engineDone id false 0)
    else
      match s.engineRead .coll basin e false (dword e.desc 2).toNat (own.foldl (· + ·) 0),
          s.engineDst e (dword e.desc 4).toNat (named.foldl (· + ·) 0) with
      | .error x, _ => x.attempt s id e
      | _, .error x => x.attempt s id e
      | .ok none, _ => .wait s
      | .ok (some send), .ok dst =>
        s.engineWait id e (dst.map (·.1)) <|
          let mine := (send.drop ((own.take c.rank).foldl (· + ·) 0)).take (own.getD c.rank 0)
          let data := (named.zipIdx).flatMap fun x => segment c e mine x.2 x.1
          .done ((put ((s.engineTouch basin e false (dword e.desc 2).toNat (own.foldl (· + ·) 0)).writePieces .coll e.ctx
            (some e.nest) dst data)).engineDone id true 0)

/-- One block of 32 elements quantised through a slot: its scale, and its codes; the other formats have no scale. -/
def quantBlock (slot : W32) (xs : List FVal) : Nat × List Nat :=
  let f := FmtSlot.ofWord slot
  if 8 ≤ f.fmt then
    let sc := blockScale f.fmt xs
    (sc, xs.map fun x => if sc = 0xFF then 0 else (slotConvert f false 0 (x.scale (127 - (sc : Int)))).bits)
  else (0, xs.map fun x => (slotConvert f false 0 x).bits)

/-- The exact value of a code of a block, as an F32; one beyond F32 saturates as in CVTD (log entry 103). -/
def deqBits (slot : W32) (sc c : Nat) : Nat :=
  let f := FmtSlot.ofWord slot
  if 8 ≤ f.fmt then (dequant ⟨f.fmt, 0, f.sat, f.amaxEn⟩ false 0 sc c).bits
  else (fmtF32.round .rne false 0 (elemValue f.fmt false c)).bits

/-- The sum of two F32 patterns with RNE, subnormals kept. -/
def addBits (a b : Nat) : Nat := (scatCombine 2 (BitVec.ofNat 32 a) (BitVec.ofNat 32 b)).toNat

/-- The dequantised elements of a block of a message: a scale byte for a block format, then the codes in bytes of their own,
low byte first (log entry 32). -/
def msgBlock (slot : W32) (b : List Byte) (k : Nat) : List Nat :=
  let f := FmtSlot.ofWord slot
  let w := if f.fmt = 1 || f.fmt = 2 then 2 else 1
  let hd := if 8 ≤ f.fmt then 1 else 0
  let blk := (b.drop (k * (hd + 32 * w))).take (hd + 32 * w)
  let sc := if hd = 1 then (blk.getD 0 0).toNat else 0
  (List.range 32).map fun i => deqBits slot sc (bytesToNat ((blk.drop (hd + w * i)).take w) % 2 ^ fmtWidth f.fmt)

/-- The terms of each rank for block k. -/
def EngineWord.terms (e : EngineWord) (c : Comm) (own : List Nat) (k : Nat) : List (List Nat) :=
  (List.range c.ranks).map fun r =>
    if r = c.rank then own else msgBlock e.fmt (((c.msg? e r).map (·.data)).getD []) k

/-- Sums of the ranks' terms, element by element, in ascending rank order. -/
def sumTerms : List (List Nat) → List Nat
  | [] => []
  | x :: rest => rest.foldl (fun acc y => (acc.zip y).map fun z => addBits z.1 z.2) x

/-- Block k of an AREDC: x values, results and residuals. -/
def EngineWord.reduceBlock (e : EngineWord) (c : Comm) (buf res : List Nat) (k : Nat) : List Nat × List Nat × List Nat :=
  let x := (List.range 32).map fun i => addBits (buf.getD (32 * k + i) 0) (res.getD (32 * k + i) 0)
  let (sc, q) := quantBlock e.fmt (x.map fun y => fmtF32.decode y)
  let d := q.map (deqBits e.fmt sc)
  (x, sumTerms (e.terms c d k), (x.zip d).map fun y => addBits y.1 (y.2 ^^^ 2 ^ 31))

/-- AREDC with every rank joined, at the collective engine of the issuing core's basin (log entry 119). -/
def State.runAredc (s : State) (id : Nat) (e : EngineWord) (c : Comm) : Attempt :=
  let n := elemCount e.desc
  let buf := (dword e.desc 2).toNat
  let res := (dword e.desc 3).toNat
  let basin := coreBasin e.core
  match s.engineRead .coll basin e false buf (4 * n), s.engineRead .coll basin e false res (4 * n),
      s.engineDst e buf (4 * n), s.engineDst e res (4 * n) with
  | .ok (some b), .ok (some r), .ok l1, .ok l2 =>
    s.engineWait id e ((l1 ++ l2).map (·.1)) <|
      let blocks := (List.range (n / 32)).map (e.reduceBlock c (words32 n b) (words32 n r))
      let s0 := (s.engineTouch basin e false buf (4 * n)).engineTouch basin e false res (4 * n)
      let s1 := s0.writePieces .coll e.ctx (some e.nest) l1 (blocks.flatMap fun x => x.2.1.flatMap (natToBytes 4))
      let s2 := s1.writePieces .coll e.ctx (some e.nest) l2 (blocks.flatMap fun x => x.2.2.flatMap (natToBytes 4))
      let amax := amaxOf (blocks.flatMap fun x => x.1.map fun y => fmtF32.decode y)
      .done ((s2.scrambleAll .coll e [((buf, 4 * n), (res, 4 * n))]).engineDone id true (BitVec.ofNat 32 amax))
  | .error x, _, _, _ => x.attempt s id e
  | _, .error x, _, _ => x.attempt s id e
  | _, _, .error x, _ => x.attempt s id e
  | _, _, _, .error x => x.attempt s id e
  | .ok none, _, _, _ => .wait s
  | _, .ok none, _, _ => .wait s

/-- A collective word: an error as soon as a message says so, and the operation once every rank has joined. -/
def State.runColl (s : State) (id : Nat) (e : EngineWord) : Attempt :=
  match s.commOf e with
  | some c =>
    if !s.runs e then .wait s
    else if c.spoils e then .done (s.collError id e c.ranks)
    else if !c.joined e then .wait s
    else if e.kind == .a2av then s.runA2av id e c
    else s.runAredc id e c
  | none => .wait s

/-! ### Completion, the count of a GATHER, and late faults (12 R236, R238) -/

/-- A word leaves the engines; the messages that it used go with it. -/
def State.dropEngine (s : State) (id : Nat) (e : EngineWord) : State :=
  let s1 : State := { s with engines := s.engines.erase id }
  if e.collective then
    { s1 with comms := s1.comms.upd (commKey e.vd (commNo e.desc)) fun c =>
        { c with msgs := c.msgs.filter fun m => m.seq != e.seq } }
  else s1

/-- The AMAX update of an AREDC that has succeeded. -/
def State.engineAmax (s : State) (e : EngineWord) (ok : Bool) : State :=
  if e.kind == .aredc && ok && (FmtSlot.ofWord e.fmt).amaxEn then
    s.amaxNest e.nest (slotField e.desc) (some e.amax) (e.amax.toNat == fmtF32.infBits false) 0
  else s

/-- The stamp of a word whose writes have performed at their home slices: they stand in the ingress buffers of its path at least
(08 R167). -/
def State.stamp (s : State) (id : Nat) (e : EngineWord) (ok : Bool) : Attempt :=
  match s.engineDst e (dstamp e.desc).toNat 8 with
  | .error x => x.attempt s id e
  | .ok l =>
    match s.collapseWait e.ctx (.event (.engineComplete id)) (l.map (·.1)), l with
    | some s1, _ => .wait s1
    | none, [] => .wait s
    | none, (ph, _) :: _ =>
      match (if ph.host then none else s.needHost [lineOf ph.pa] [.event (.engineComplete id)]) with
      | some s1 => .wait s1
      | none =>
        let v : W64 := if ok then dstampVal e.desc else 0xFFFFFFFFFFFFFFFF
        let s1 := (s.l2Access (s.tenantOf e.ctx) ph).shortStore e.kind.path ph (natToBytes 8 v.toNat) none
        .done ((s1.engineAmax e ok).dropEngine id e)

/-- The communicator of a collective word whose writes are made and which ends in an error before its stamp, as a message says (12
R245). -/
def State.spoiledComm (s : State) (e : EngineWord) : Option Comm :=
  if e.collective then (s.commOf e).filter fun c => c.spoils e else none

/-- The next thing that an engine does for a word. -/
def State.engineNext (s : State) (id : Nat) (e : EngineWord) : Attempt :=
  match e.stage with
  | .written ok =>
    match (if ok then s.spoiledComm e else none) with
    | some c => .done (s.collError id e c.ranks)
    | none => s.stamp id e ok
  | .counted => s.runGather id e
  | .issued =>
    match e.kind with
    | .gather =>
      match s.readIndices e with
      | .error x => x.attempt s id e
      | .ok _ => .wait s
    | .scatter => s.runScatter id e
    | .esort => s.runEsort id e
    | .a2av | .aredc => s.runColl id e

/-- ENGINE_COMPLETE (12 R236): the writes of a word are made; then its stamp is written. -/
def execEngineComplete (id : Nat) (s : State) : Host.Outcome State Fault Refusal :=
  match s.engines.find? id with
  | some e =>
    match s.engineNext id e with
    | .done s1 => .next s1
    | .wait s1 => .next s1
    | .fail _ _ => .next s
  | none => .next s

/-- GATHER_COUNT_RETURN (12 R240): the indices are read, and their count becomes the result of the word. -/
def execGatherCountReturn (id : Nat) (s : State) : Host.Outcome State Fault Refusal :=
  match s.engines.find? id with
  | some e =>
    if e.kind == .gather && e.stage == .issued then
      match s.readIndices e with
      | .ok (some idx) =>
        let n : W32 := BitVec.ofNat 32 (e.rows idx).length
        .next ({ s.touchIndices e with engines := s.engines.put id { e with stage := .counted, indices := idx } }.updGroup e.team e.grp
          fun g => g.updPend e.pend fun p =>
            match p.kind with
            | .count k d => if k = id then { p with kind := .value, writes := [.s d n] } else p
            | _ => p)
      | .error (.walk page) => .next (s.walkOr e.core e.ctx page (lateStep id))
      | _ => .next s
    else .next s
  | none => .next s

/-- The record of a late fault whose point has retired. -/
def EngineWord.faultInfo (e : EngineWord) (c : Cause) (addr : W64) (time : Nat) : FaultInfo where
  cause := c
  sub := none
  nested := false
  precise := false
  pc := e.pc
  addr := addr
  ix := e.ix
  owner := 0
  slctx := none
  grp := none
  tinfo := 0
  time := time
  team := none
  groups := []

/-- A GATHER that ends before its indices are read has no count: no result of it is outstanding (12 R235, R240). -/
def State.dropCount (s : State) (id : Nat) (e : EngineWord) : State :=
  s.updGroup e.team e.grp fun g => g.pend.foldl (fun g p =>
    match p.kind with
    | .count k _ => if k = id then g.dropPend p.id else g
    | _ => g) g

/-- ENGINE_LATE_FAULT (12 R235, R238): the word writes no stamp. While its point is alive the fault names the word and its group;
once the point has retired the nest aborts if it is active, and a closed nest leaves a record alone. -/
def execEngineLateFault (id : Nat) (s : State) : Host.Outcome State Fault Refusal :=
  match s.engines.find? id with
  | some e =>
    match s.engineNext id e with
    | .fail c a =>
      let s1 := (s.dropEngine id e).dropCount id e
      let fi := e.faultInfo c a s.time
      if (s.group? e.team e.grp).isSome then .next (s1.engineFault e.team e.grp c e.pc a 0)
      else if (s.nests.find? e.nest).isSome then .next (s1.recordFault e.nest fi)
      else
        match s1.writeRecord (.event (.engineLateFault id)) e.ctx e.nest fi false with
        | .ok s2 => .next s2
        | .error s2 => .next { s2 with engines := s.engines, comms := s.comms }
    | .wait s1 => .next s1
    | .done _ => .next s
  | none => .next s

/-! ### Messages, timeouts and links -/

/-- The oldest ordinal that a message may still name. -/
def State.oldestSeq (s : State) (vd comm : Nat) (c : Comm) : Nat :=
  s.engines.foldl (fun n e =>
    if e.2.collective && e.2.vd == vd && commNo e.2.desc == comm then min n e.2.seq else n) c.seq

/-- COLLECTIVE_MESSAGE (12 R244 to R247): the message of another rank for its word with an ordinal; an empty command says that the word
has faulted there, and may follow its message. -/
def execCollectiveMessage (vd comm rank seq : Nat) (cmd : List Nat) (data : List Byte) (s : State) :
    Host.Outcome State Fault Refusal :=
  match s.comms.find? (commKey vd comm) with
  | some c =>
    if comm < 256 && rank < c.ranks && rank != c.rank && s.oldestSeq vd comm c ≤ seq &&
        (cmd.isEmpty || !(c.msgs.any fun m => m.rank == rank && m.seq == seq)) then
      .next { s with comms := s.comms.put (commKey vd comm) { c with msgs := c.msgs ++ [⟨rank, seq, cmd, data⟩] } }
    else .next s
  | none => .next s

/-- COLLECTIVE_TIMEOUT (12 R245): the timeout passes before every rank has joined, counted from the issue of the word (log entry
101). -/
def execCollectiveTimeout (id : Nat) (s : State) : Host.Outcome State Fault Refusal :=
  match s.engines.find? id with
  | some e =>
    match s.commOf e with
    | some c =>
      if e.collective && e.stage == .issued && s.runs e && !c.joined e && c.timeout ≤ s.time - e.since then
        .next (s.collError id e c.ranks)
      else .next s
    | none => .next s
  | none => .next s

/-- LINK_PATH_FAILURE (12 R245): the word that runs on the communicator ends in a collective error, unless it has ended in one. -/
def execLinkPathFailure (vd comm rank : Nat) (s : State) : Host.Outcome State Fault Refusal :=
  let hit := List.find? (fun (x : Nat × EngineWord) =>
    x.2.collective && x.2.vd == vd && commNo x.2.desc == comm && (x.2.stage == .issued || x.2.stage == .written true) && s.runs x.2) s.engines
  match hit with
  | some (id, e) =>
    match s.commOf e with
    | some c =>
      if c.others.contains rank then .next (s.collError id e c.ranks) else .next s
    | none => .next s
  | none => .next s

/-- LINK_RETRY (12 R244): flits lost to errors are sent again, with no effect beyond latency. -/
def execLinkRetry (_ : Fin 18) (s : State) : Host.Outcome State Fault Refusal := .next s

end Sys2Proof.Machine
end

