-- ==== Sys2Proof/Machine/FloatWords.lean ====
section
/-! DEFINITION. The meanings of the float words (21 R347 to R362). -/

namespace Sys2Proof.Machine

/-- A single-rounded word of two operands (21 R349). -/
def Site.fbin (w : Site) (s : State) (f : FBin) (op : FpMode → RM → W32 → W32 → W32 → FRes) : State :=
  w.rounded s f.g f.uni f.d (w.mode.sel f.rm) 1 fun L r =>
    op w.mode (w.mode.sel f.rm) r (w.val32 f.uni f.a L) (w.val32 (f.uni || f.bu) f.b L)

/-- FMIN and FMAX (21 R350). -/
def Site.fminmax (w : Site) (s : State) (f : Bin) (big : Bool) : State :=
  w.rounded s f.g f.uni f.d .rne 0 fun L _ =>
    aluFminmax w.mode big (w.val32 f.uni f.a L) (w.val32 (f.uni || f.bu) f.b L)

/-- A long-latency float word (21 R352): its results are known at issue and land later (04 R80). A NaN is reported at
issue, and its trap enters the handler once the results are written (05 R123, 14 R254). -/
def Site.flong (w : Site) (s : State) (i : Instr) (la : BitVec 4) (g : Guard) (d : BitVec 8) (rm : RM)
    (f : Nat → W32 → FRes) : State :=
  let rs := (w.lanes g).map fun L => (L, f L (w.g.r.draw L))
  let s1 := w.post s la i .value (rs.map fun x => .v d.toNat x.1 (BitVec.ofNat 32 x.2.bits)) 0
  let s2 := if rm == .sr then w.upd s1 fun gr => { gr with r := gr.r.stepLfsr 1 (w.lanes g) } else s1
  w.reportNan s s2 (rs.any (·.2.nanOut)) false

/-- An F32 result of an exact value of one operand (21 R353). -/
def Site.flongR (w : Site) (s : State) (i : Instr) (f : FLongR) (op : FVal → FVal) : State :=
  w.flong s i f.la f.g f.d (w.mode.sel f.rm) fun L r =>
    w.mode.out (w.mode.sel f.rm) r (op (w.mode.rd (w.val32 false f.a L)))

/-- A transcendental word (21 R354). -/
def Site.ftrans (w : Site) (s : State) (i : Instr) (f : FLong) (op : W32 → Bool → Bool → FRes) : State :=
  w.flong s i f.la f.g f.d .rne fun L _ => op (w.val32 false f.a L) w.mode.daz w.mode.ftz

/-- FABS (21 R347). -/
def execFabs (f : UnT) (s : State) := onSite s fun w =>
  w.res s f.g f.uni f.d fun L => aluFabs f.ty (w.val32 f.uni f.a L)
/-- FNEG (21 R347). -/
def execFneg (f : UnT) (s : State) := onSite s fun w =>
  w.res s f.g f.uni f.d fun L => aluFneg f.ty (w.val32 f.uni f.a L)
/-- FADD (21 R349). -/
def execFadd (f : FBin) (s : State) := onSite s fun w => w.fbin s f aluFadd
/-- FSUB (21 R349). -/
def execFsub (f : FBin) (s : State) := onSite s fun w => w.fbin s f aluFsub
/-- FMUL (21 R349). -/
def execFmul (f : FBin) (s : State) := onSite s fun w => w.fbin s f aluFmul
/-- FFMA (21 R349). -/
def execFfma (f : FFmaF) (s : State) := onSite s fun w =>
  w.rounded s f.g f.uni f.d (w.mode.sel f.rm) 1 fun L r =>
    aluFfma w.mode (w.mode.sel f.rm) r (w.val32 f.uni f.a L) (w.val32 (f.uni || f.bu) f.b L) (w.val32 f.uni f.c L)
/-- FMAX (21 R350). -/
def execFmax (f : Bin) (s : State) := onSite s fun w => w.fminmax s f true
/-- FMIN (21 R350). -/
def execFmin (f : Bin) (s : State) := onSite s fun w => w.fminmax s f false
/-- FCLASS (21 R351). -/
def execFclass (f : UnV) (s : State) := onSite s fun w => w.res s f.g false f.d fun L => fclass (w.val32 false f.a L)
/-- FDOT2 (21 R355). -/
def execFdot2 (f : FTri) (s : State) := onSite s fun w =>
  w.rounded s f.g false f.d (w.mode.sel f.rm) 1 fun L r =>
    aluFdot2 w.mode (w.mode.sel f.rm) r (w.val32 false f.a L) (w.val32 f.bu f.b L) (w.val32 false f.c L)
/-- HFMA2 (21 R362). -/
def execHfma2 (f : HTri) (s : State) := onSite s fun w =>
  w.rounded s f.g false f.d (w.mode.sel f.rm) 2 fun L r =>
    aluHfma2 f.f16 w.mode (w.mode.sel f.rm) r (w.val32 false f.a L) (w.val32 f.bu f.b L) (w.val32 false f.c L)
/-- FRND (21 R359). -/
def execFrnd (f : FRndF) (s : State) := onSite s fun w =>
  w.rounded s f.g f.uni f.d (w.mode.sel f.rm) 1 fun L r =>
    roundIntegral (w.mode.sel f.rm) r (w.mode.rd (w.val32 f.uni f.a L))
/-- FSETP (21 R360). -/
def execFsetp (f : SetpF) (s : State) := onSite s fun w =>
  w.pred s f.g f.p fun L => fcompare f.cmp (w.mode.rd (w.val32 false f.a L)) (w.mode.rd (w.val32 f.bu f.b L))
/-- FDIV (21 R353). -/
def execFdiv (f : FDivF) (s : State) := onSite s fun w =>
  w.flong s (.fdiv f) f.la f.g f.d (w.mode.sel f.rm) fun L r =>
    w.mode.out (w.mode.sel f.rm) r ((w.mode.rd (w.val32 false f.a L)).div (w.mode.rd (w.val32 f.bu f.b L)))
/-- FRCP (21 R353). -/
def execFrcp (f : FLongR) (s : State) := onSite s fun w => w.flongR s (.frcp f) f FVal.rcp
/-- FRSQ (21 R353). -/
def execFrsq (f : FLongR) (s : State) := onSite s fun w => w.flongR s (.frsq f) f FVal.rsq
/-- FSQRT (21 R353). -/
def execFsqrt (f : FLongR) (s : State) := onSite s fun w => w.flongR s (.fsqrt f) f FVal.sqrt
/-- FCOS (21 R354). -/
def execFcos (f : FLong) (s : State) := onSite s fun w => w.ftrans s (.fcos f) f fcos
/-- FEXP2 (21 R354). -/
def execFexp2 (f : FLong) (s : State) := onSite s fun w => w.ftrans s (.fexp2 f) f fexp2
/-- FLOG2 (21 R354). -/
def execFlog2 (f : FLong) (s : State) := onSite s fun w => w.ftrans s (.flog2 f) f flog2
/-- FSIN (21 R354). -/
def execFsin (f : FLong) (s : State) := onSite s fun w => w.ftrans s (.fsin f) f fsin
/-- FTANH (21 R354). -/
def execFtanh (f : FLong) (s : State) := onSite s fun w => w.ftrans s (.ftanh f) f ftanh

end Sys2Proof.Machine
end

