-- ==== Sys2Proof/Machine/Halves.lean ====
section
/-! DEFINITION. The pair words (04 R81 to R83): each meaning is that of a pair whose first half has its operation. -/

namespace Sys2Proof.Machine

/-- The S operand of a half in a lane (04 R82). -/
def Site.halfSrc (w : Site) (op : HOp) (h : Half) (L : Nat) : W32 :=
  if h.im then halfImm op h.s else w.g.r.rdV h.s.toNat L

/-- The results of a half in its active lanes, from the draws of an LFSR table. -/
def Site.halfRes (w : Site) (op : HOp) (h : Half) (draw : Nat → W32) : List (Nat × FRes) :=
  (w.lanes h.g).map fun L => (L, halfOp op w.mode (draw L) (w.g.r.rdV h.d.toNat L) (w.halfSrc op h L))

/-- Results written to a register. -/
def GroupRegs.wrRes (r : GroupRegs) (d : Nat) (l : List (Nat × FRes)) : GroupRegs :=
  l.foldl (fun r' x => r'.wrV d x.1 (BitVec.ofNat 32 x.2.bits)) r

/-- A half steps the LFSR of its active lanes (05 R109). -/
def Site.halfSteps (w : Site) (op : HOp) : Bool := op.rounds && w.mode.rm == .sr

/-- A pair word: both halves read before either writes, and the first half steps a lane's LFSR before the second (04 R83,
05 R109). -/
def Site.pair (w : Site) (s : State) (op1 : HOp) (f : PairF) : State :=
  let first := w.halfRes op1 f.h1 w.g.r.draw
  let r1 := if w.halfSteps op1 then w.g.r.stepLfsr 1 (w.lanes f.h1.g) else w.g.r
  let second := w.halfRes f.op2 f.h2 r1.draw
  let r2 := if w.halfSteps f.op2 then r1.stepLfsr 1 (w.lanes f.h2.g) else r1
  let all := first ++ second
  w.commitNan s ((r2.wrRes f.h1.d.toNat first).wrRes f.h2.d.toNat second) (all.any (·.2.nanOut)) false

/-- IADD half (04 R82). -/
def execHalfIadd (f : PairF) (s : State) := onSite s fun w => w.pair s .iadd f
/-- ISUB half (04 R82). -/
def execHalfIsub (f : PairF) (s : State) := onSite s fun w => w.pair s .isub f
/-- AND half (04 R82). -/
def execHalfAnd (f : PairF) (s : State) := onSite s fun w => w.pair s .and f
/-- OR half (04 R82). -/
def execHalfOr (f : PairF) (s : State) := onSite s fun w => w.pair s .or f
/-- XOR half (04 R82). -/
def execHalfXor (f : PairF) (s : State) := onSite s fun w => w.pair s .xor f
/-- SHL half (04 R82). -/
def execHalfShl (f : PairF) (s : State) := onSite s fun w => w.pair s .shl f
/-- SHR half (04 R82). -/
def execHalfShr (f : PairF) (s : State) := onSite s fun w => w.pair s .shr f
/-- SAR half (04 R82). -/
def execHalfSar (f : PairF) (s : State) := onSite s fun w => w.pair s .sar f
/-- IMIN half (04 R82). -/
def execHalfImin (f : PairF) (s : State) := onSite s fun w => w.pair s .imin f
/-- IMAX half (04 R82). -/
def execHalfImax (f : PairF) (s : State) := onSite s fun w => w.pair s .imax f
/-- MOV half (04 R82). -/
def execHalfMov (f : PairF) (s : State) := onSite s fun w => w.pair s .mov f
/-- IMUL half (04 R82). -/
def execHalfImul (f : PairF) (s : State) := onSite s fun w => w.pair s .imul f
/-- FADD half (04 R82). -/
def execHalfFadd (f : PairF) (s : State) := onSite s fun w => w.pair s .fadd f
/-- FSUB half (04 R82). -/
def execHalfFsub (f : PairF) (s : State) := onSite s fun w => w.pair s .fsub f
/-- FMUL half (04 R82). -/
def execHalfFmul (f : PairF) (s : State) := onSite s fun w => w.pair s .fmul f
/-- FMIN half (04 R82). -/
def execHalfFmin (f : PairF) (s : State) := onSite s fun w => w.pair s .fmin f
/-- FMAX half (04 R82). -/
def execHalfFmax (f : PairF) (s : State) := onSite s fun w => w.pair s .fmax f

end Sys2Proof.Machine
end

