-- ==== Sys2Proof/Machine/Sched.lean ====
section
/-! DEFINITION. Completion writes and their withholding (16 R287, R290, 15 R272), and the time-sharing of partitions by deficit
round robin (15 R269 to R271). -/

namespace Sys2Proof.Machine

/-! ### Acquires and releases of Fountainhead (16 R287) -/

/-- The scope code of an ACQ or REL field: device, tenant, system; system runs as tenant under SCOPE_TEN. -/
def State.fwScope (s : State) (vd code : Nat) : Nat :=
  if code = 2 then (if (s.vdNow vd).scopeTen then 4 else 5) else 3 + code

/-- The writes of the engine words of a nest. -/
def engineOf (nest : Option Nat) (e : IngressEntry) : Bool := nest.isSome && e.engine == nest

/-- The lines that the release of a packet's work writes at their home. -/
def State.fwLines (s : State) (nest : Option Nat) : List Nat :=
  (retirePaths.flatMap fun p => s.drainLines p fun _ => true) ++
    [Path.cistern, Path.coll].flatMap fun p => s.drainLines p (engineOf nest)

/-- The writes of a packet's work leave the buffers that retirement covers, and those of the engine words of its nest theirs, or they
wait for the host. -/
def State.fwRelease (s : State) (act : Action) (nest : Option Nat) : Except State State :=
  match s.needHost (s.fwLines nest) [act] with
  | some s1 => .error s1
  | none =>
    .ok ([Path.cistern, Path.coll].foldl (fun s' p => s'.drainPath p (engineOf nest))
      (retirePaths.foldl (fun s' p => s'.drainPath p fun _ => true) s))

/-- An acquire on behalf of every core that the work of a packet may use. -/
def State.fwAcquire (s : State) (scope : Nat) : State :=
  let s1 := if scope = 5 then s.drainPath .host fun _ => true else s
  (s1.m.l1.map (·.1)).foldl State.invCore s1

/-! ### Signals (16 R290) -/

/-- The new value of a signal after a completion: one less on success, −1 on failure. -/
def complValue (ok : Bool) (old : W64) : W64 := if ok then old - 1 else 0xFFFFFFFFFFFFFFFF

/-- An operation on a signal at its home, in a step that `act` takes again. The error is the state in which it waits; the result says
whether the address passed. -/
def State.signalFw (s : State) (act : Action) (ctx : Nat) (addr : W64) (f : W64 → W64) : Except State (State × Bool) :=
  match s.resolveFw ctx .write addr.toNat with
  | .error _ => .ok (s, false)
  | .ok ph =>
    match s.pieceWaits ctx act [(ph, 8)] with
    | some s1 => .error s1
    | none =>
      let old : W64 := BitVec.ofNat 64 (bytesToNat (readBytes (s.homeByte ph.key) ph.pa 8))
      .ok (s.landBytes ph (natToBytes 8 (f old).toNat) none, true)

/-- The step of the Fountainhead core that serves a queue. -/
def laneStep (q : Nat) : Action := .event (.fountainheadStep (q / 64))

/-- A queue enters ERROR: its state, ERRCODE and ERRPKT, which its header takes when it can be written (16 R292). The error is the
state in which that write waits, for the step `act` to take it again. -/
def State.queueError (s : State) (act : Action) (q code idx : Nat) : Except State State :=
  let x := s.queue q
  let s1 := s.updQueue q fun x => { x with state := .error, err := some (code, idx) }
  match s.rangeFw x.ctx .write (x.header.toNat + 0x18) 8 with
  | .ok l =>
    match s.pieceWaits x.ctx act l with
    | some s2 => .error s2
    | none => .ok (s1.fwPut l (natToBytes 8 (code + 2 ^ 32 * (idx % 2 ^ 32))))
  | .error _ => .ok s1

/-- The line of a signal in the package. -/
def State.signalLine (s : State) (ctx : Nat) (addr : W64) : List Nat :=
  match s.resolveFw ctx .write addr.toNat with
  | .ok ph => if ph.host then [] else [lineOf ph.pa]
  | .error _ => []

/-- A completion write performs with the release that it carries; it asks the host for the lines of both at once (19 R300). A signal whose address fails is not written: a packet that had
succeeded has failed with SIGNAL_ADDR, which its lane applies at its next step (18 R297). -/
def State.performCompl (s : State) (act : Action) (h : ComplWrite) : Except State State :=
  match s.needHost (s.fwLines h.nest ++ s.signalLine h.ctx h.addr) [act] with
  | some s0 => .error s0
  | none =>
    match s.fwRelease act h.nest with
    | .error s1 => .error s1
    | .ok s1 =>
      match s1.signalFw act h.ctx h.addr (complValue h.ok) with
      | .error s2 => .error s2
      | .ok (s2, true) => .ok s2
      | .ok (s2, false) =>
        if h.ok then
          .ok (s2.updQueue h.queue fun x =>
            { x with failing := x.failing ++ [⟨some h.id, h.idx, h.ctx, x.vd, 0, some 0x12, true, false⟩] })
        else .ok s2

/-- A device is descheduled in every partition that it owns (15 R272). -/
def State.descheduled (s : State) (vd : Nat) : Bool :=
  let owned := (s.vdNow vd).owned
  !owned.isEmpty && owned.all fun p => (s.part p).drained.contains vd

/-- Withheld completions of a device. -/
def heldLimit : Nat := 64

/-- A completion: none without a signal, withheld while the device is descheduled, else performed. The error is the state in
which it waits at its source. -/
def State.complete (s : State) (act : Action) (vd : Nat) (h : ComplWrite) : Except State State :=
  if h.addr = 0 then s.fwRelease act h.nest
  else if s.descheduled vd then
    if (s.vd vd).held.length < heldLimit then .ok (s.updVd vd fun v => { v with held := v.held ++ [h] }) else .error s
  else s.performCompl act h

/-- The withheld completions of a device perform in order (15 R272). -/
def State.flushHeld (s : State) (act : Action) (vd : Nat) : Except State State :=
  (s.vd vd).held.foldl (fun (st : Except State State) h =>
    match st with
    | .error e => .error e
    | .ok s1 =>
      match s1.performCompl act h with
      | .error e => .error e
      | .ok s2 => .ok (s2.updVd vd fun v => { v with held := v.held.tail })) (.ok s)

/-! ### The ring (16 R283) -/

/-- Indices are 32 bits wide. -/
def idxMod : Nat := 2 ^ 32
/-- How far an index is behind another. -/
def idxAhead (from_ to_ : Nat) : Nat := (to_ + idxMod - from_ % idxMod) % idxMod

/-- The packet at RIDX is known to the lane. -/
def Queue.pending (x : Queue) : Bool := let d := idxAhead x.ridx x.w; 1 ≤ d && d < 2 ^ 31

/-! ### Work (15 R269) -/

/-- Drain time of a device in µs: the largest of its contexts (15 R268). -/
def State.drainOf (s : State) (vd : Nat) : Nat :=
  s.ctxs.foldl (fun n c => if c.2.state == .live && c.2.vd = vd then max n c.2.drain else n) 0

/-- A nest has points released, running or evicted in a partition, or waits to start all of its points (log entry 33). -/
def State.nestWork (s : State) (part id : Nat) (x : Nest) : Bool :=
  (!x.started && (x.parts.isEmpty || x.parts.contains part)) ||
  (s.ready.any fun q => q.1 % 96 / 3 == part && q.2.any fun e => e.nest == id) ||
  (s.reservations.any fun r => (s.port r.1).part.toNat == part && r.2.entry.nest == id) ||
  s.teams.any fun t => t.2.nest == id && t.2.phase != .retired && s.partOf t.2.core == part

/-- A packet's Sluice context runs or is saved on a core of a partition (log entry 33). -/
def State.packetWork (s : State) (part vd : Nat) : Bool :=
  s.cores.any fun c => s.partOf c.1 == part &&
    ((c.2.savedSl.any fun x => (s.ctx x.2.ctx).vd == vd) ||
      [0, 1, 2, 3].any fun n =>
        let x := c.2.sl n
        x.state == .running && (s.ctx x.ctx).vd == vd &&
        match x.owner with
        | .packet _ _ => true
        | _ => false)

/-- A virtual device has work in a partition. -/
def State.hasWork (s : State) (part vd : Nat) : Bool :=
  (s.queues.any fun q => q.2.vd == vd && q.2.state != .disabled && q.2.pending) ||
  (s.gangs.any fun g => g.2.vd == vd && g.2.parts.contains part) ||
  (s.nests.any fun n => n.2.vd == vd && s.nestWork part n.1 n.2) || s.packetWork part vd

/-- The active gang nest of a device that spans a partition, by its parts (15 R271). -/
def State.gangParts (s : State) (part vd : Nat) : Option (List Nat) :=
  ((s.nests.map (·.2)).find? fun x => x.vd == vd && x.launch.gang && x.parts.contains part).map (·.parts)

/-- A device that this partition does not start by itself: its gang is scheduled by the lowest part. -/
def State.follows (s : State) (part vd : Nat) : Bool :=
  (s.gangParts part vd).elim false fun l => l.any fun p => p < part

/-! ### Slices (15 R269 to R271) -/

/-- QUANTUM and WEIGHT of a VD_CFG word, and OVERRUN_OK of a VD_POLICY word. -/
def cfgQuantum (x : W64) : Nat := (x.extractLsb' 16 16).toNat
def cfgWeight (x : W64) : Nat := (x.extractLsb' 8 8).toNat
def policyOverrun (x : W32) : Bool := x.getLsbD 2

/-- The length of a slice of a device under the configuration of its visit. -/
def State.sliceLength (s : State) (vd : Nat) (cfg : W64) (policy : W32) : Int :=
  let l := min ((cfgQuantum cfg : Int) * 1500) (s.vd vd).deficit
  if policyOverrun policy then max l (s.drainOf vd * 1500) else l

/-- A slice of a device starts in a partition. -/
def State.putSlice (s : State) (part : Nat) (x : Slice) : State :=
  s.updPart part fun p => { p with slice := some x, drained := p.drained.filter (· != x.vd) }

/-- A slice starts, in the other parts of its gang too where no slice runs (15 R271). -/
def State.startSlice (s : State) (part : Nat) (x : Slice) : State :=
  let others := ((s.gangParts part x.vd).getD []).filter fun p => p != part && (s.part p).slice.isNone
  others.foldl (fun s' p => s'.putSlice p x) (s.putSlice part x)

/-- The configuration of a device as it was last written takes effect at a visit (15 R268, log entry 111). -/
def State.visitVd (s : State) (vd : Nat) : State := s.updVd vd fun v => { v with liveCfg := v.cfg, livePolicy := v.policy }

/-- The visits of a round, at most `fuel` of them: the state with the deficits after the visits, and the device whose slice
starts. -/
def visitFrom (part : Nat) : (fuel : Nat) → State → State × Option Nat
  | 0, s => (s, none)
  | fuel + 1, s =>
    let p := s.part part
    let v := p.visit
    if p.inVisit && s.scheduled part v && 0 < (s.vd v).deficit && s.hasWork part v then (s, some v)
    else
      let u := (v + 1) % 128
      let s1 := (s.updPart part fun p => { p with visit := u, inVisit := false }).visitVd u
      if !(s1.scheduled part u) || (s1.vd u).weight = 0 || s1.follows part u then visitFrom part fuel s1
      else if !(s1.hasWork part u) then
        visitFrom part fuel (s1.updVd u fun x => { x with deficit := min x.deficit 0 })
      else
        let d := s1.vd u
        let s2 := s1.updVd u fun x => { x with deficit := x.deficit + (d.weight * d.quantum * 1500 : Nat) }
        visitFrom part fuel (s2.updPart part fun p => { p with inVisit := true, cfg := d.cfg, policy := d.policy })

/-- Some weighted device of a partition has work (15 R270). -/
def State.weightedWork (s : State) (part : Nat) : Bool :=
  (List.range 128).any fun v => s.scheduled part v && (s.vdNow v).weight != 0 && s.hasWork part v

/-- The weight-0 device that runs next: the first with work after the one that ran last. -/
def State.zeroNext (s : State) (part : Nat) : Option Nat :=
  let after := (s.part part).zero + 1
  ((List.range 128).map fun i => (after + i) % 128).find? fun v =>
    s.scheduled part v && (s.vdNow v).weight == 0 && s.hasWork part v && !s.follows part v

/-- The slice of a gang that this partition joins at its boundary: the lowest part runs the device (15 R271). -/
def State.gangSlice (s : State) (part : Nat) : Option Slice :=
  (s.nests.map (·.2)).findSome? fun x =>
    if x.launch.gang && x.parts.contains part && x.phase == .active then
      let lead := x.parts.foldl min part
      match (s.part lead).slice with
      | some y =>
        if lead != part && y.vd == x.vd && !y.stopped && s.ticksSince y.start < y.length then
          some { y with start := s.time, length := y.length - s.ticksSince y.start, ended := [] }
        else none
      | none => none
    else none

/-- A slice starts once the withheld completions of its device have performed (15 R272). -/
def State.flushThen (s : State) (part vd : Nat) (f : State → State) : State :=
  match s.flushHeld (.event (.sliceStart part)) vd with
  | .error s1 => s1
  | .ok s1 => f s1

/-- SLICE_START (15 R269 to R272): between slices, a partition joins the slice of a gang, visits its weighted devices, or runs a
device of weight 0. -/
def execSliceStart (part : Nat) (s : State) : Host.Outcome State Fault Refusal :=
  if 32 ≤ part || (s.part part).slice.isSome then .next s
  else
    match s.gangSlice part with
    | some x => .next (s.flushThen part x.vd fun s' => s'.putSlice part x)
    | none =>
      match visitFrom part 260 s with
      | (s1, some v) =>
        .next (s1.flushThen part v fun s' =>
          s'.startSlice part ⟨v, s'.time, s'.sliceLength v (s'.part part).cfg (s'.part part).policy, true, false, []⟩)
      | (s1, none) =>
        if s1.weightedWork part then .next s1
        else
          match s1.zeroNext part with
          | some v =>
            .next (s1.flushThen part v fun s' =>
              (s'.startSlice part ⟨v, s'.time, (s'.vdNow v).quantum * 1500, false, false, []⟩).updPart part fun p =>
                { p with zero := v })
          | none => .next s1

/-- WEIGHT0_PREEMPT (15 R270): a weighted device has work, so the weight-0 slice stops at once. -/
def execWeight0Preempt (part : Nat) (s : State) : Host.Outcome State Fault Refusal :=
  match (s.part part).slice with
  | some x =>
    if !x.charged && s.weightedWork part then
      .next (s.updPart part fun p => { p with slice := some { x with stopped := true } })
    else .next s
  | none => .next s

end Sys2Proof.Machine
end

