-- ==== Sys2Proof/Machine/Preempt.lean ====
section
/-! DEFINITION. Pre-emption (14 R260 to R263): stop requests, the stop of groups, the save of teams and Sluice contexts (03 R63,
R64, 11 R232, 10 R196), the end of drains and slices (15 R269, R272), and resumption (14 R261, 17 R295). -/

namespace Sys2Proof.Machine

/-! ### Which teams a stop request reaches (14 R262, 17 R295) -/

/-- A team put into a list in descending order of start. -/
def insertTeam (x : Nat × Team) : List (Nat × Team) → List (Nat × Team)
  | [] => [x]
  | y :: rest => if y.2.started < x.2.started then x :: y :: rest else y :: insertTeam x rest

/-- Teams of a context on a core that run, most recently started first. -/
def State.runningOn (s : State) (core ctx : Nat) : List (Nat × Team) :=
  (s.teams.filter fun t => t.2.core == core && t.2.ctx == ctx && t.2.phase == .running).foldr insertTeam []

/-- The teams that go with a team: all of a persistent nest, or its cluster. -/
def State.companions (s : State) (t : Nat) (tm : Team) : List Nat :=
  if (s.nests.find? tm.nest).elim false (·.launch.persist) then
    (s.teams.filter fun x => x.2.nest == tm.nest).map (·.1)
  else if tm.peers.isEmpty then [t] else tm.peers.vals

/-- The teams of a list with their companions. -/
def State.withCompanions (s : State) (l : List Nat) : List Nat :=
  (l.flatMap fun t => (s.teams.find? t).elim [] fun tm => s.companions t tm).eraseDups

/-- The Sluice contexts that packets of a context run on a core. -/
def Core.packetSl (c : Core) (ctx : Nat) : List (Nat × SlCtx) :=
  ([0, 1, 2, 3].map fun n => (n, c.sl n)).filter fun x =>
    x.2.state == .running && x.2.ctx == ctx && match x.2.owner with
      | .packet _ _ => true
      | _ => false

/-- A context has something on a core that a drain must end: teams, array work, packets' Sluice contexts, or instances that a
leaving context may not keep (10 R196). -/
def State.present (s : State) (core ctx : Nat) : Bool :=
  (s.teams.any fun t => t.2.core == core && t.2.ctx == ctx && t.2.phase == .running) ||
  ((s.core core).work.any fun e => e.ctx == ctx) || !((s.core core).packetSl ctx).isEmpty ||
  ((s.core core).copies.any fun m => m.ctx == ctx)

/-! ### What comes next (14 R262, 10 R196) -/

/-- The device whose slice a partition starts next, as it stands, when the slice that runs has taken its whole length. -/
def State.incoming (s : State) (part : Nat) (x : Slice) : Option Nat :=
  let s1 := if x.charged then s.updVd x.vd fun v => { v with deficit := v.deficit - x.length } else s
  match s1.gangSlice part with
  | some y => some y.vd
  | none =>
    match visitFrom part 260 s1 with
    | (_, some v) => some v
    | (s2, none) => if s2.weightedWork part then none else s2.zeroNext part

/-- The shapes of the teams that a device brings to a core, without those of one context: its saved teams, the points that persistent
nests, gangs and clusters have reserved there, and the first entry of each ready queue that the core's port group serves (log entry 34). -/
def State.incomingShapes (s : State) (core vd ctx : Nat) : List TeamShape :=
  let other := fun (x : Nest) => x.vd == vd && x.ctx != ctx
  (s.teams.filterMap fun t =>
    if t.2.core == core && t.2.phase == .saved && t.2.ctx != ctx && (s.ctx t.2.ctx).vd == vd &&
        (s.nests.find? t.2.nest).all (fun x => x.plan.isEmpty) then some t.2.shape else none) ++
  ((s.nests.map (·.2)).flatMap fun x =>
    if other x then List.replicate (planOn x.plan core) x.launch.shape else []) ++
  ((s.gangs.map (·.2)).flatMap fun g =>
    if g.vd == vd && g.ctx != ctx then List.replicate (planOn g.plan core) g.launch.shape else []) ++
  ((s.reservations.find? (corePort core)).toList.filterMap fun r => match s.nests.find? r.entry.nest with
    | some x =>
      if other x && (rectCores (corePort core) (coreRow r.core % 2, coreCol r.core % 6) x.launch.cw r.entry.points).contains core then
        some x.launch.shape
      else none
    | none => none) ++
  ((s.queueOrder (corePort core)).filterMap fun key => (s.ready.getD key []).findSome? fun e =>
    match s.nests.find? e.nest with
    | some x => if other x then some x.launch.shape else none
    | none => none)

/-- What the teams of a core take, without those that stop and those of a list. -/
def State.useWithout (s : State) (core : Nat) (go : List Nat) : CoreUse :=
  s.teams.foldl (fun u e =>
    if e.2.core = core && !go.contains e.1 && (match e.2.phase with | .stopping _ => false | _ => true) then e.2.use u else u)
    CoreUse.none

/-- The teams that a drain evicts: the fewest, most recently started first, with their companions, without which the incoming work
fits in registers, group slots, scratchpad and tiles, and all of them where it never does (14 R262). -/
def State.evicted (s : State) (core ctx : Nat) (x : Slice) : List Nat :=
  let l := (s.runningOn core ctx).map (·.1)
  let shapes := (s.incoming (s.partOf core) x).elim [] fun vd => s.incomingShapes core vd ctx
  let sets := (List.range (l.length + 1)).map fun n => s.withCompanions (l.take n)
  (sets.find? fun go => (shapes.foldl (fun u t => u.add t 1) (s.useWithout core go)).fits).getD (s.withCompanions l)

/-- A drain of a context on a core begins, or goes on for more teams of it after a save (17 R295). -/
def Core.drain (c : Core) (ctx time : Nat) : Core :=
  { c with draining := c.draining.put ctx (((c.draining.find? ctx).elim time (·.1)), false) }

/-- STOP_REQUEST (14 R260, R262): the walker places no further point of the context on the core, and the teams to evict start to
stop. -/
def execStopRequest (core ctx : Nat) (s : State) : Host.Outcome State Fault Refusal :=
  match (s.part (s.partOf core)).slice with
  | some x =>
    if core < coreCount && x.vd = (s.ctx ctx).vd && s.stopDue x ctx && ((s.core core).draining.find? ctx).isNone &&
        !x.ended.contains (core, ctx) && s.present core ctx then
      let go := s.evicted core ctx x
      let s1 := go.foldl (fun s' t => s'.updTeam t fun tm =>
        if tm.phase == .running then { tm with phase := .stopping s.time } else tm) s
      .next ((core :: s.coresOf go).eraseDups.foldl (fun s' c => s'.updCore c fun y => y.drain ctx s.time) s1)
    else .next s
  | none => .next s

/-! ### The stop of a group (14 R260, 02 R39) -/

/-- Nothing of the group is under way that a stop must await: only a monitor or a rendezvous, in which it is stopped where it
waits. -/
def Group.stoppable (g : Group) : Bool :=
  (g.pend.all fun p => match p.kind with
    | .landed | .monitor _ | .recv _ _ => true
    | _ => false) &&
  [g.w0, g.w1].all fun x => match x with
    | some (.hostSignal _ _ _ _ _) => false
    | _ => true

def Group.stop (g : Group) : Group := { g with st := { g.st with stopped := true } }

/-- GROUP_STOP (14 R260 step 2): a group of a stopping team stops at its reconvergence point. -/
def execGroupStop (team grp : Nat) (s : State) : Host.Outcome State Fault Refusal :=
  match s.teams.find? team, s.group? team grp with
  | some tm, some g =>
    match tm.phase with
    | .stopping _ => if g.reconverged && g.stoppable then .next (s.updGroup team grp Group.stop) else .next s
    | _ => .next s
  | _, _ => .next s

/-- FORCED_SAVE (14 R260 step 3): 50 µs after the request a group stops at its next word boundary, its window rolled back. -/
def execForcedSave (team grp : Nat) (s : State) : Host.Outcome State Fault Refusal :=
  match s.teams.find? team, s.group? team grp with
  | some tm, some g =>
    match tm.phase with
    | .stopping since =>
      if forceLimit ≤ s.time - since && g.rollback.stoppable && !g.st.stopped then
        .next (s.updGroup team grp fun g => g.rollback.stop)
      else .next s
    | _ => .next s
  | _, _ => .next s

/-! ### The save (14 R260 steps 4 and 5, 03 R63, R64) -/

/-- Every group of a team has stopped or ended. -/
def Team.quiet (t : Team) : Bool :=
  t.phase == .retired || t.groups.all fun g => g.st.stopped || g.st.ended

/-- The Sluice contexts of a team on its core. -/
def State.slOf (s : State) (team : Nat) (tm : Team) : List (Nat × SlCtx) :=
  ([0, 1, 2, 3].map fun n => (n, (s.core tm.core).sl n)).filter fun x =>
    match x.2.owner with
    | .team k _ => k == team
    | _ => false

/-- A Sluice context may be saved: its transfers have performed and it stands at a word boundary (11 R232); one that has faulted is taken
up first (18 R296). -/
def SlCtx.settled (c : SlCtx) : Bool :=
  c.work.isEmpty && c.todo.isEmpty && c.faulted.isNone && match c.wait with
    | some (.load _) => false
    | _ => true

/-- An engine word still has to write into the scratchpad of a team (12 R238). -/
def State.enginesInto (s : State) (team : Nat) : Bool :=
  s.engines.any fun e => (e.2.stage == .issued || e.2.stage == .counted) && e.2.lines.any fun l => l.1 == team

/-- A stopping team may be saved with its companions. -/
def State.saveReady (s : State) (t : Nat) (tm : Team) : Bool :=
  (s.companions t tm).all fun k => match s.teams.find? k with
    | some x =>
      x.quiet && (s.slOf k x).all (fun y => y.2.settled) && !s.enginesInto k &&
      !((s.core x.core).work.any fun e => e.team == k)
    | none => true

/-- The teams of a context that stop on a core. -/
def State.stoppingOn (s : State) (core ctx : Nat) : List (Nat × Team) :=
  s.teams.filter fun t => t.2.core == core && t.2.ctx == ctx && match t.2.phase with
    | .stopping _ => true
    | _ => false

/-- The context leaves the core: no team of it goes on there. -/
def State.leaves (s : State) (core ctx : Nat) : Bool :=
  !(s.teams.any fun t => t.2.core == core && t.2.ctx == ctx && t.2.phase == .running)

/-- The base of the slab of a core in the save region of a context (03 R63). -/
def Ctx.slab (c : Ctx) (core : Nat) : Nat := (c.save.extractLsb' 21 27).toNat * 2 ^ 21 + core * 0x700000

/-- Words of 32 bits, and of 64 bits, as bytes. -/
def words32Bytes (l : List W32) : List Byte := l.flatMap fun x => natToBytes 4 x.toNat
def words64Bytes (l : List W64) : List Byte := l.flatMap fun x => natToBytes 8 x.toNat

/-- An entry of the join stack in 16 bytes (02 R36). -/
def JoinEntry.bytes : JoinEntry → List Byte
  | .mark rejoin expected arrived _ => natToBytes 8 rejoin.toNat ++ natToBytes 4 expected.toNat ++ natToBytes 4 arrived.toNat
  | .path pc mask => natToBytes 8 (pc.toNat + 1) ++ natToBytes 4 mask.toNat ++ natToBytes 4 0

/-- The areas of a slab for a group slot: those of its team, which its first group's slot names, and of its group (03 Table 3-8). -/
def teamArea (place : Nat) : Nat := 0x2000 + place * 0x2000
def groupArea (place : Nat) : Nat := 0x1B2000 + place * 0xA000

/-- What a slab holds of a group, by offset (03 Table 3-8): s registers, call and join stacks from their oldest entry on, v registers. -/
def Group.slab (g : Group) (vregs : Nat) : List (Nat × List Byte) :=
  let at_ := groupArea g.place
  [(at_, words32Bytes ((List.range 160).map g.r.rdS)), (at_ + 0x800, words64Bytes g.r.calls.reverse),
    (at_ + 0x1000, g.r.join.reverse.flatMap JoinEntry.bytes),
    (at_ + 0x2000, (List.range vregs).flatMap fun n => words32Bytes (allLanes.map (g.r.rdV n)))]

/-- A descriptor of a Sluice context as bytes. -/
def SlDescr.bytes (d : SlDescr) : List Byte :=
  natToBytes 8 d.base.toNat ++ words32Bytes d.sizes ++ words64Bytes d.strides ++ [d.ctrl]

/-- The state of a Sluice context in a slab (log entry 52). -/
def SlState.byte : SlState → Byte
  | .free => 0
  | .running => 1
  | .ended => 2

/-- What a slab holds of a Sluice context (03 Table 3-8): w0 to w15, flag, descriptors, PC, serial, state, status, and whether the
codebook store has its tag. -/
def SlCtx.slab (c : SlCtx) (n : Nat) (book : Codebook) : List (Nat × List Byte) :=
  [(0x1000 + 0x400 * n, words64Bytes ((List.range 16).map fun i => c.w.getD i 0) ++ natToBytes 8 c.flag.toNat ++
    c.desc.flatMap SlDescr.bytes ++ natToBytes 8 c.pc.toNat ++ natToBytes 4 c.serial.toNat ++
    [c.state.byte, c.status, if book.tag = some c.owner then 1 else 0])]

/-- The first group slot of a team. -/
def Team.firstPlace (t : Team) : Nat := (t.groups.map (·.place)).headD 0

/-- What a slab holds of a team: its rendezvous slots and item queue, its scratchpad image from an offset and its tiles from a tile
on, its groups, and its Sluice contexts (03 Table 3-8). -/
def Team.slab (t : Team) (pad tile : Nat) (sl : List (Nat × SlCtx)) (book : Codebook) : List (Nat × List Byte) :=
  let at_ := teamArea t.firstPlace
  ((List.range 16).map fun n => (at_ + 128 * n, words32Bytes (t.rdvSlot n).data)) ++
  [(at_ + 0x800, words32Bytes t.itemq),
    (0x102000 + pad, (List.range t.shape.padBytes).map t.padByte),
    (0x172000 + 4096 * tile, words32Bytes ((List.range (1024 * t.shape.tiles)).map fun i => t.tiles.getD i 0))] ++
  (t.groups.flatMap fun g => g.slab t.shape.vregs) ++ sl.flatMap fun x => x.2.slab x.1 book

/-- The parts of a slab whose format is the firmware's own, offset and length: the header, and the control blocks of teams and groups,
where what the public areas do not hold of them lies (03 R63). -/
def Team.controlAreas (t : Team) : List (Nat × Nat) :=
  (teamArea t.firstPlace + 0x1800, 0x800) :: t.groups.map fun g => (groupArea g.place + 0x280, 0x580)

/-- The presence bits of the lines of a pad. -/
def Team.presence (t : Team) : List Bool := (List.range (t.shape.padBytes / 128)).map fun k => (t.absent.find? k).isNone

/-- Bits packed in bytes, the first lowest. -/
def packBits (l : List Bool) : List Byte :=
  (List.range ((l.length + 7) / 8)).map fun i =>
    BitVec.ofNat 8 ((List.range 8).foldl (fun n j => if l.getD (8 * i + j) false then n + 2 ^ j else n) 0)

/-- The teams of a context on a core whose state a drain writes: those that stop, and the retired ones of their clusters. -/
def State.writtenOn (s : State) (core ctx : Nat) : List (Nat × Team) :=
  let stops := fun (t : Team) => match t.phase with
    | .stopping _ => true
    | _ => false
  s.teams.filter fun t => t.2.core == core && t.2.ctx == ctx &&
    (stops t.2 || (t.2.phase == .retired && t.2.peers.vals.any fun k => (s.teams.find? k).any stops))

/-- What a drain writes to the slab of a core in the areas that 03 Table 3-8 lays out: its teams, one behind another in the images of
scratchpad and tiles, their presence bits behind the image of their pads where it leaves room, and the packets' Sluice contexts. -/
def State.slabImage (s : State) (core ctx : Nat) : List (Nat × List Byte) :=
  let l := s.writtenOn core ctx
  let book := (s.core core).book
  let r := l.foldl (fun (r : List (Nat × List Byte) × Nat × Nat) t =>
    (r.1 ++ t.2.slab r.2.1 r.2.2 (s.slOf t.1 t.2) book, r.2.1 + t.2.shape.padBytes, r.2.2 + t.2.shape.tiles)) ([], 0, 0)
  let bits := packBits (l.flatMap fun t => t.2.presence)
  r.1 ++ (if r.2.1 + bits.length ≤ 458752 then [(0x102000 + r.2.1, bits)] else []) ++
    ((s.core core).packetSl ctx).flatMap fun x => x.2.slab x.1 book

/-- What it writes in the firmware's own format. -/
def State.slabControl (s : State) (core ctx : Nat) : List (Nat × Nat) :=
  (0, 0x1000) :: (s.writtenOn core ctx).flatMap fun t => t.2.controlAreas

/-- The translated pieces of a list of writes to the save region of a context, where its pages are mapped and writable (03 R63). -/
def State.savePieces (s : State) (core ctx : Nat) (l : List (Nat × List Byte)) : List (List (Phys × Nat) × List Byte) :=
  l.filterMap fun x => match s.rangeFw ctx .write ((s.ctx ctx).slab core + x.1) x.2.length with
    | .ok ps => if x.2.isEmpty then none else some (ps, x.2)
    | .error _ => none

/-- The pieces of the parts in the firmware's own format, of which the model says no byte (log entry 52). -/
def State.controlPieces (s : State) (core ctx : Nat) : List (Phys × Nat) :=
  (s.slabControl core ctx).flatMap fun x => match s.rangeFw ctx .write ((s.ctx ctx).slab core + x.1) x.2 with
    | .ok ps => ps
    | .error _ => []

/-- Translated pieces whose bytes the firmware writes as it likes. -/
def State.fwControl (s : State) (l : List (Phys × Nat)) : State :=
  if l.isEmpty then s
  else { s with m := s.m.scramble (l.map fun x => (lineOf x.1.pa, lineOf (x.1.pa + x.2 - 1))) s.tick }

/-- A codebook store whose owner leaves the processor holds no codebook: it is not saved (11 R225). -/
def Core.dropBook (c : Core) (o : SlOwner) : Core := if c.book.tag = some o then { c with book := ⟨none, 0, []⟩ } else c

/-- One team saved: it leaves its group slots, and its Sluice contexts their numbers. -/
def State.saveTeam (s : State) (t : Nat) (tm : Team) : State :=
  let l := s.slOf t tm
  let s1 := s.updCore tm.core fun c =>
    (l.foldl (fun c x => c.setSl x.1 (c.sl x.1).freed) c).dropBook (.team t tm.nest)
  s1.updTeam t fun x => { x with phase := .saved, sluice := l }

/-- The packets' Sluice contexts of a context moved into the slab. -/
def Core.savePackets (c : Core) (ctx : Nat) : Core :=
  let l := c.packetSl ctx
  l.foldl (fun c x => (c.setSl x.1 (c.sl x.1).freed).dropBook x.2.owner) { c with savedSl := c.savedSl ++ l }

/-- Pinned macros of a context on a core. -/
def State.pinnedOn (s : State) (core ctx : Nat) : List MacroCopy :=
  (s.core core).copies.filter fun m => m.ctx == ctx && ((s.ctx ctx).handle m.index).res.elim false (·.pinned)

/-- Pinned instances of a context evicted, least recently used first, until the need fits; at most `fuel` of them. -/
def State.evictPinned (need : Nat) : (fuel core ctx : Nat) → State → State
  | 0, _, _, s => s
  | fuel + 1, core, ctx, s =>
    if need ≤ (s.core core).freeMacros then s
    else
      match (s.pinnedOn core ctx).foldl (fun (b : Option MacroCopy) m => match b with
        | some x => if m.used < x.used then some m else b
        | none => some m) none with
      | some m => State.evictPinned need fuel core ctx (s.evictCopy core m.ctx m.index)
      | none => s

/-- The need of what comes next on a core: the pinned macros that each context of the incoming device had there when it last left it
(10 R196). -/
def State.incomingNeed (s : State) (core ctx : Nat) : Nat :=
  match (s.part (s.partOf core)).slice with
  | some x =>
    match s.incoming (s.partOf core) x with
    | some vd => (s.core core).pinnedNeed.foldl (fun n e => if e.1 != ctx && (s.ctx e.1).vd == vd then n + e.2 else n) 0
    | none => 0
  | none => 0

/-- The instances of a context that leaves a core: the unpinned ones are evicted, and the pinned ones as far as the incoming need
takes (10 R196). -/
def State.evictCopies (s : State) (core ctx : Nat) : State :=
  let pinned := s.pinnedOn core ctx
  let gone := (s.core core).copies.filter fun m => m.ctx == ctx && !pinned.any fun x => x.is m.ctx m.index
  let s1 := gone.foldl (fun s' m => s'.evictCopy core m.ctx m.index) s
  let s2 := s1.updCore core fun c =>
    { c with pinnedNeed := c.pinnedNeed.put ctx (pinned.foldl (fun n m => n + m.macros) 0) }
  State.evictPinned (s.incomingNeed core ctx) 12 core ctx s2

/-- The context of a core whose drain may save: its stopping teams, its array work and its packets' contexts are ready. -/
def State.savable (s : State) (core : Nat) : Option Nat :=
  (((s.core core).draining.filter fun d => !d.2.2).map (·.1)).find? fun ctx =>
    (s.stoppingOn core ctx).all (fun t => s.saveReady t.1 t.2) && ((s.core core).packetSl ctx).all (fun x => x.2.settled) &&
    !(s.leaves core ctx && (s.core core).work.any fun e => e.ctx == ctx)

/-- CONTEXT_SAVE (14 R260 steps 4 and 5): dirty lines are written back, L1 and the TLB of the core are discarded, and what stops
is saved and written to the slab of the core, as a whole. -/
def execContextSave (core : Nat) (s : State) : Host.Outcome State Fault Refusal :=
  match s.savable core with
  | some ctx =>
    let l := s.savePieces core ctx (s.slabImage core ctx)
    let own := s.controlPieces core ctx
    match s.pieceWaits ctx (.event (.contextSave core)) (own ++ l.flatMap (·.1)) with
    | some s1 => .next s1
    | none =>
      let s1 := (s.wbCore core).setL1 core []
      let s2 : State := { s1 with m := { s1.m with l1tlb := s1.m.l1tlb.erase core } }
      let s3 := l.foldl (fun s' x => s'.fwPut x.1 x.2) (s2.fwControl own)
      let s4 := (s3.stoppingOn core ctx).foldl (fun s' t => s'.saveTeam t.1 t.2) s3
      let s5 := (if s.leaves core ctx then s4.evictCopies core ctx else s4).updCore core fun c =>
        { c.savePackets ctx with draining := c.draining.upd ctx fun d => (d.1, true) }
      .next (s5.resplit core)
  | none => .next s

/-! ### The end of drains and slices (14 R263, 15 R269, R272) -/

/-- The drains of a slice that are left: contexts of its device on cores of the partition that drain, or that have not been
asked. -/
def State.drainsLeft (s : State) (part : Nat) (x : Slice) : Bool :=
  (s.cores.any fun c => s.partOf c.1 == part && c.2.draining.any fun d => (s.ctx d.1).vd == x.vd) ||
  (List.range coreCount).any fun c => s.partOf c == part &&
    s.ctxs.any fun k => k.2.vd == x.vd && s.present c k.1 && !x.ended.contains (c, k.1)

/-- A slice ends: its ticks are charged, and its device has drained (15 R269, R270, R272). -/
def State.endSlice (s : State) (part : Nat) (x : Slice) : State :=
  let s1 := if x.charged then s.updVd x.vd fun v => { v with deficit := v.deficit - s.ticksSince x.start } else s
  s1.updPart part fun p => { p with slice := none, drained := x.vd :: p.drained.filter (· != x.vd) }

/-- Every drain of a slice has begun and ended before its time is over, so that what comes next starts at once (14 R263). -/
def State.drainedEarly (s : State) (x : Slice) : Bool :=
  !x.ended.isEmpty && s.ctxs.all fun c => c.2.vd != x.vd || c.2.state != .live || s.stopDue x c.1

/-- The slice of a partition ends when no drain is left, and its time is over or its drains have ended early. -/
def State.trySliceEnd (s : State) (part : Nat) : State :=
  match (s.part part).slice with
  | some x =>
    if (x.stopped || x.length ≤ s.ticksSince x.start || s.drainedEarly x) && !s.drainsLeft part x then s.endSlice part x else s
  | none => s

/-- DRAIN_END (14 R260 step 5, R263): a saved context of the core has drained; the last drain of a slice ends the slice. -/
def execDrainEnd (core : Nat) (s : State) : Host.Outcome State Fault Refusal :=
  let part := s.partOf core
  if coreCount ≤ core then .next s
  else
    match (((s.core core).draining.filter fun d => d.2.2).map (·.1)).head? with
    | some ctx =>
      let s1 := s.updCore core fun c => { c with draining := c.draining.erase ctx }
      let s2 := s1.updPart part fun p =>
        { p with slice := p.slice.map fun x =>
            if x.vd = (s.ctx ctx).vd then { x with ended := (core, ctx) :: x.ended } else x }
      .next (s2.trySliceEnd part)
    | none => .next (s.trySliceEnd part)

/-! ### Resumption (14 R261, 17 R295) -/

/-- A monitor re-arms and reads its location again (14 R261). -/
def Pending.rearm (p : Pending) : Pending :=
  match p.kind with
  | .monitor m => { p with kind := .monitor { m with fired := true } }
  | _ => p

/-- A group that resumes in a group slot. -/
def Group.resume (g : Group) (place : Nat) : Group :=
  { g with
    st := { g.st with stopped := false }
    pend := (g.pend.filter Pending.out).map fun p => { p.rearm with left := 0 }
    place := place }

/-- A team resumes on a core. -/
def State.resumeTeam (s : State) (t : Nat) (tm : Team) (core : Nat) : State :=
  let used := s.placesUsed core
  let places := placeGroups (emptiest used) tm.groups.length 0 used
  let s1 := s.updTeam t fun x =>
    { x with
      core := core
      phase := if tm.phase == .saved then .running else tm.phase
      groups := x.groups.mapIdx fun i g => g.resume (places.getD i g.place)
      sluice := [] }
  let s2 := s1.updCore core fun c => tm.sluice.foldl (fun c x => c.setSl x.1 x.2) c
  (s2.resplit core).acquire core 3

/-- The saved teams of a nest as units: clusters, or single teams. -/
def State.savedUnits (s : State) (teams : List Nat) : List (List (Nat × Team)) :=
  let l := teams.filterMap fun t => (s.teams.find? t).map fun tm => (t, tm)
  let heads := l.filter fun x => x.2.peers.isEmpty || (x.2.peers.vals.head? == some x.1)
  heads.map fun x =>
    if x.2.peers.isEmpty then [x]
    else x.2.peers.vals.filterMap fun t => (s.teams.find? t).map fun tm => (t, tm)

/-- The Sluice numbers that teams bring are free on a core. -/
def State.slFree (s : State) (tm : Team) (core : Nat) : Bool :=
  tm.sluice.all fun x => ((s.core core).sl x.1).state == .free

/-- A team fits on a core where its context may run, next to the claims that began before a time; a retired one of a cluster brings its
scratchpad alone (06 R142). -/
def State.resumeFits (s : State) (x : Nest) (before : Nat) (tm : Team) (core : Nat) : Bool :=
  let u := s.useWith core before
  s.open tm.ctx x.vd core && s.unclaimed core before &&
  (if tm.phase == .retired then (Team.use tm u).fits else (u.add tm.shape 1).fits && s.slFree tm core) &&
  (x.parts.isEmpty || s.partOf core == s.partOf tm.core)

/-- The points of the teams of a unit. -/
def unitReady (u : List (Nat × Team)) : List ReadyPoint := u.map fun y => ⟨y.2.ix.map BitVec.toInt, y.2.teamIdx, y.2.clus⟩

/-- The cores of a unit from a corner core. -/
def State.unitCores (s : State) (x : Nest) (u : List (Nat × Team)) (core : Nat) : Option (List Nat) :=
  if x.launch.clustered then s.rectAt x (unitReady u) core else some [core]

/-- A unit resumed on its cores, when every team of it fits there next to the claims that began before a time. -/
def State.resumeOn (s : State) (x : Nest) (before : Nat) (u : List (Nat × Team)) (cores : List Nat) : Option State :=
  (u.zip cores).foldl (fun (st : Option State) y =>
    match st with
    | some s1 => if s1.resumeFits x before y.1.2 y.2 then some (s1.resumeTeam y.1.1 y.1.2 y.2) else none
    | none => none) (some s)

/-- A unit resumed at a corner core. -/
def State.resumeUnit (s : State) (x : Nest) (before : Nat) (u : List (Nat × Team)) (core : Nat) : Option State :=
  (s.unitCores x u core).bind fun cores => s.resumeOn x before u cores

/-- The hardware partition that a unit has left. -/
def State.unitPart (s : State) (u : List (Nat × Team)) : Option Nat := u.head?.map fun y => s.partOf y.2.core

/-- The cores that the units of a nest reserve: across the partitions of its device, or for a gang each in the part that it left
(14 R261, 06 R143 to R145). -/
def State.resumePlan (s : State) (x : Nest) (units : List (List (Nat × Team))) : Option Plan :=
  if x.parts.isEmpty then s.deal x.launch (s.vdNow x.vd).owned (units.map unitReady)
  else x.parts.foldl (fun (pl : Option Plan) part =>
    pl.bind fun l => (s.planPart x.launch part ((units.filter fun u => s.unitPart u == some part).map unitReady)).map (l ++ ·)) (some [])

/-- The cores of a plan for a unit. -/
def planFor (pl : Plan) (u : List (Nat × Team)) : Option (List Nat) := (List.find? (fun e : List ReadyPoint × List Nat => e.1 == unitReady u) pl).map (·.2)

/-- Units resumed together on the cores of a plan that began at a time. -/
def State.resumeAll (s : State) (x : Nest) (since : Nat) (pl : Plan) (units : List (List (Nat × Team))) : Option State :=
  units.foldl (fun (st : Option State) u => st.bind fun s1 => (planFor pl u).bind fun cores => s1.resumeOn x since u cores) (some s)

/-- A plan holds a place for every unit, in partitions that the nest may use. -/
def State.planServes (s : State) (x : Nest) (units : List (List (Nat × Team))) : Bool :=
  s.planIn (if x.parts.isEmpty then (s.vdNow x.vd).owned else x.parts) x.plan && units.all fun u => (planFor x.plan u).isSome

/-- The points of a persistent nest resume together on the cores that they have reserved; they reserve them first, and resume at once
where all of them are free (14 R261, 06 R143). -/
def State.resumePersistent (s : State) (nest : Nat) (x : Nest) (units : List (List (Nat × Team))) : State :=
  match (if s.planServes x units then some (x.plan, x.since) else (s.resumePlan x units).map fun pl => (pl, s.time)) with
  | some (pl, since) =>
    match s.resumeAll x since pl units with
    | some s1 => s1.updNest nest fun x => { x with plan := [] }
    | none => s.updNest nest fun x => { x with plan := pl, since := since }
  | none => s

/-- The reservation that saved teams hold, with its port group (14 R261). -/
def State.savedRect (s : State) (teams : List Nat) : Option (Nat × Reservation) :=
  List.find? (fun r : Nat × Reservation => !r.2.teams.isEmpty && r.2.teams == teams) s.reservations

/-- A saved cluster resumes on the rectangle that it has reserved; it reserves one in the partition of a core first, and resumes at once
where it fits there (14 R261, 06 R143). -/
def State.resumeCluster (s : State) (x : Nest) (nest : Nat) (u : List (Nat × Team)) (core : Nat) : State :=
  let part := s.partOf core
  match s.savedRect (u.map (·.1)) with
  | some (port, r) =>
    ({ s with reservations := s.reservations.erase port }.resumeUnit x r.since u r.core).getD s
  | none =>
    match s.rectFor x part (unitReady u) with
    | some r =>
      if s.runsIn part x.vd then
        (s.resumeOn x s.after u r.2).getD (s.putRect ⟨nest, unitReady u, 0⟩ (u.map (·.1)) r.1)
      else s
    | none => s

/-- A packet's Sluice context resumed in its own number, or in the lowest FREE one, which keeps its own serial (11 R213); its packet names
the new number. -/
def State.resumePacket (s : State) (core : Nat) (x : Nat × SlCtx) : State :=
  let c := s.core core
  match (if (c.sl x.1).state == .free then some x.1 else c.freeSl) with
  | some n =>
    let y : SlCtx := if n = x.1 then x.2 else { x.2 with serial := (c.sl n).serial }
    let s1 := s.updCore core fun c => { c.setSl n y with savedSl := c.savedSl.erase x }
    match x.2.owner with
    | .packet q id => s1.setWork q id (.sluice core n)
    | _ => s1
  | none => s

/-- CONTEXT_RESUME (14 R261, 17 R295): a saved team resumes on a core with its cluster, or with every point of its persistent nest;
a number that names no saved team resumes the packets' Sluice contexts of the core. -/
def execContextResume (team core : Nat) (s : State) : Host.Outcome State Fault Refusal :=
  match s.teams.find? team with
  | some tm =>
    match s.nests.find? tm.nest with
    | some x =>
      let units := s.savedUnits (s.companions team tm)
      let ready := (s.companions team tm).all fun k => (s.teams.find? k).all fun y =>
        y.phase == .saved || (y.phase == .retired && !y.peers.isEmpty)
      if tm.phase == .saved && x.phase == .active && core < coreCount && ready then
        if x.launch.persist then .next (s.resumePersistent tm.nest x units)
        else .next ((units.head?).elim s fun u =>
          if x.launch.clustered then s.resumeCluster x tm.nest u core else (s.resumeUnit x s.after u core).getD s)
      else .next s
    | none => .next s
  | none =>
    let l := (s.core core).savedSl.filter fun x => s.open x.2.ctx (s.ctx x.2.ctx).vd core
    if core < coreCount then .next (l.foldl (fun s' x => s'.resumePacket core x) s) else .next s

end Sys2Proof.Machine
end

