-- ==== Sys2Proof/Machine/Queues.lean ====
section
/-! DEFINITION. Queues and packets (16 R282 to R294, 18 R296, R297), launches (06 R125 to R129, R145), and NLAUNCH (22 R390). -/

namespace Sys2Proof.Machine

/-! ### Packets (16 Table 16-4) -/

/-- A doubleword of a packet at an offset, and bits of it. -/
def pktDword (b : List Byte) (off : Nat) : W64 := BitVec.ofNat 64 (bytesToNat ((b.drop off).take 8))
def pktType (b : List Byte) : Nat := recBits b 0 0 8
def pktCompl (b : List Byte) : W64 := pktDword b 8
def pktAcq (b : List Byte) : Nat := recBits b 0 9 2
def pktRel (b : List Byte) : Nat := recBits b 0 11 2
def pktHold (b : List Byte) : Bool := recBits b 0 8 1 == 1

/-- The types of 16 Table 16-3 in priority order. -/
def typeOrder : List Nat := [3, 4, 1, 2, 5, 0x7F]

/-- Doublewords that a type leaves without a meaning are zero. -/
def pktZeros (b : List Byte) (offs : List Nat) : Bool := offs.all fun o => pktDword b o == 0
def aligned (x : W64) (n : Nat) : Bool := x.toNat % n == 0

/-- A header, body or address that the tables refuse: PACKET_RSVD. -/
def pktReserved (b : List Byte) : Bool :=
  let body :=
    match pktType b with
    | 1 => pktZeros b [0x18, 0x20, 0x28, 0x30, 0x38] && aligned (pktDword b 0x10) 64
    | 2 =>
      pktZeros b [0x28, 0x30, 0x38] && aligned (pktDword b 0x10) 64 && recBits b 0x18 4 60 == 0 &&
      1 ≤ recBits b 0x18 0 4 && recBits b 0x18 0 4 ≤ 8 && (List.range 8).all fun n => recBits b (0x20 + n) 5 3 == 0
    | 3 => pktDword b 0x38 == 0 && [0x10, 0x18, 0x20, 0x28, 0x30].all fun o => aligned (pktDword b o) 8
    | 4 =>
      pktZeros b [0x28, 0x30, 0x38] && aligned (pktDword b 0x10) 8 && recBits b 0x20 2 62 == 0 && recBits b 0x20 0 2 != 3
    | 5 =>
      pktZeros b [0x30, 0x38] && aligned (pktDword b 0x10) 8 && recBits b 0x20 2 62 == 0 && aligned (pktDword b 0x28) 128
    | _ => pktZeros b [0x10, 0x18, 0x20, 0x28, 0x30, 0x38]
  !(recBits b 0 13 51 == 0 && pktAcq b != 3 && pktRel b != 3 && aligned (pktCompl b) 8 && body)

/-! ### The ring and the header (16 R283) -/

/-- The address of the slot of an index. -/
def Queue.slotAt (x : Queue) (i : Nat) : Nat := x.base.toNat + 64 * (i % 2 ^ x.logsize)

/-- Bytes written by Fountainhead at an address of a context, in a step that `act` takes again; an address that fails is not
written. -/
def State.fwStore (s : State) (act : Action) (ctx a : Nat) (b : List Byte) : Except State State :=
  match s.rangeFw ctx .write a b.length with
  | .error _ => .ok s
  | .ok l =>
    match s.pieceWaits ctx act l with
    | some s1 => .error s1
    | none => .ok (s.fwPut l b)

/-- The translated pieces of bytes that Fountainhead writes at an address of a context, none where it fails. -/
def State.storePieces (s : State) (ctx a n : Nat) : List (Phys × Nat) :=
  match s.rangeFw ctx .write a n with
  | .ok l => l
  | .error _ => []

/-- The TYPE byte of the slot at RIDX, and RIDX in the header. -/
def State.typePieces (s : State) (q : Nat) : List (Phys × Nat) :=
  let x := s.queue q
  s.storePieces x.ctx (x.slotAt x.ridx) 1
def State.ridxPieces (s : State) (q : Nat) : List (Phys × Nat) :=
  let x := s.queue q
  s.storePieces x.ctx (x.header.toNat + 0x14) 4

/-- The TYPE of the slot at RIDX cleared, and RIDX moved on in the queue and in its header (16 R285); the host is asked for the lines of
both at once (19 R300). -/
def State.nextPacket (s : State) (q : Nat) : Except State State :=
  let x := s.queue q
  let r := (x.ridx + 1) % idxMod
  match s.pieceWaits x.ctx (laneStep q) (s.typePieces q ++ s.ridxPieces q) with
  | some e => .error e
  | none =>
    .ok (((s.fwPut (s.typePieces q) [0]).fwPut (s.ridxPieces q) (natToBytes 4 r)).updQueue q fun x =>
      { x with ridx := r, head := none })

/-- A queue whose ENABLE is 0 is DISABLED once the packets it has processed have completed (16 R282). -/
def Queue.rest (x : Queue) : Queue :=
  if !x.enable && x.inflight.isEmpty && x.failing.isEmpty then { x with state := .disabled } else x

/-- A packet removed from the packets in flight. -/
def State.dropPacket (s : State) (q id : Nat) : State :=
  s.updQueue q fun x => { x with inflight := x.inflight.filter fun p => p.id != id }.rest

/-- A packet in flight. -/
def State.flight? (s : State) (q id : Nat) : Option Packet := (s.queue q).inflight.find? fun p => p.id == id

/-- The AMAX registers of a SLUICE packet written to its slot block (16 R289). -/
def State.writeBlock (s : State) (act : Action) (p : Packet) : Except State State :=
  if p.block = 0 then .ok s
  else s.fwStore act p.ctx (p.block.toNat + 0x20) ((p.amax ++ p.amaxst).flatMap fun w => natToBytes 4 w.toNat)

/-! ### Failures (16 R292, 18 R297)

A lane goes through `failing` from its head: each entry writes −1, puts the queue in ERROR, and moves on or leaves the packets in flight.
Where a write must wait, what has been done stands. -/

/-- How far the lane has come with its first failure. -/
def State.updFailing (s : State) (q : Nat) (f : Failing → Failing) : State :=
  s.updQueue q fun x => { x with failing := match x.failing with
    | y :: rest => f y :: rest
    | [] => [] }

/-- The −1 write of a packet that fails or retires unexecuted, and before it the registers of a SLUICE packet's slot block. -/
def State.failSignal (s : State) (q : Nat) (f : Failing) : Except State State :=
  let p := f.id.bind fun id => s.flight? q id
  match p.elim (.ok s) fun p => s.writeBlock (laneStep q) p with
  | .error e => .error e
  | .ok s1 =>
    if f.compl = 0 || f.compl.toNat % 8 ≠ 0 then .ok s1
    else s1.complete (laneStep q) f.vd ⟨q, f.id.getD 0, f.idx, f.ctx, f.compl, false, 2, p.bind (·.nest)⟩

/-- The first failure of a queue applied in the order of R297; only the first of an ACTIVE queue gives its code. The error is the state
in which the lane waits with it. -/
def State.applyFailing (s : State) (q : Nat) (f : Failing) : Except State State :=
  match (if f.signalled then .ok s else s.failSignal q f) with
  | .error e => .error e
  | .ok s1 =>
    let s2 := s1.updFailing q fun g => { g with signalled := true }
    let r : Except State State := match f.code with
      | some c => if f.recorded || (s2.queue q).state != QState.active then .ok s2 else s2.queueError (laneStep q) q c f.idx
      | none => .ok s2
    match r with
    | .error e => .error e
    | .ok s3 =>
      let s4 := s3.updFailing q fun g => { g with recorded := true }
      let pop := fun (x : Queue) => { x with failing := x.failing.tail }
      match f.id with
      | some id => .ok ((s4.updQueue q pop).dropPacket q id)
      | none =>
        match s4.nextPacket q with
        | .error e => .error e
        | .ok s5 => .ok (s5.updQueue q fun x => (pop x).rest)

/-- The packet at RIDX as it retires unexecuted; a slot whose TYPE is 0 holds the retirement. For a slot that cannot be read no signal
is written. -/
def State.nextRetire (s : State) (q : Nat) : Option Failing :=
  let x := s.queue q
  match s.fwRead x.ctx (x.slotAt x.ridx) 64 with
  | .error _ => some ⟨none, x.ridx, x.ctx, x.vd, 0, none, false, true⟩
  | .ok b => if pktType b = 0 then none else some ⟨none, x.ridx, x.ctx, x.vd, pktCompl b, none, false, true⟩

/-- A lane applies its failures, and then a queue in ERROR retires what it has not executed, in index order up to the known write index;
at most `fuel` steps of it. -/
def State.settleLane : (fuel q : Nat) → State → State
  | 0, _, s => s
  | fuel + 1, q, s =>
    let x := s.queue q
    match x.failing with
    | f :: _ =>
      match s.applyFailing q f with
      | .error e => e
      | .ok s1 => State.settleLane fuel q s1
    | [] =>
      if x.state == .error && x.pending then
        match s.nextRetire q with
        | some f => State.settleLane fuel q (s.updQueue q fun x => { x with failing := [f] })
        | none => s
      else s

/-- All that a lane has to settle. -/
def State.settle (s : State) (q : Nat) : State :=
  let x := s.queue q
  State.settleLane (x.failing.length + 2 * idxAhead x.ridx x.w + 1) q s

/-- A failure that a lane finds. -/
def State.addFailing (s : State) (q : Nat) (f : Failing) : State := s.updQueue q fun x => { x with failing := x.failing ++ [f] }

/-- The packet at RIDX fails as the lane processes it. -/
def State.failHere (s : State) (q code : Nat) (compl : W64) : State :=
  let x := s.queue q
  (s.addFailing q ⟨none, x.ridx, x.ctx, x.vd, compl, some code, false, false⟩).settle q

/-- A state in which a step's writes wait: only what it asks of the host and of firmware is kept. -/
def State.asked (s e : State) : State := { s with m := { s.m with backInv := e.m.backInv, collapses := e.m.collapses } }

/-! ### BARRIER_AND (16 R291) -/

/-- What an evaluation gives: it waits, completes, or fails with a code. -/
inductive Evaluation where
  | waits
  | completes
  | fails (code : Nat)
  deriving DecidableEq, Repr

/-- The signals of a barrier as Fountainhead reads them, or none for an address that fails. -/
def State.readSignals (s : State) (ctx : Nat) (deps : List W64) : Option (List W64) :=
  deps.foldl (fun (st : Option (List W64)) a =>
    match st, s.fwNat ctx a.toNat 8 with
    | some l, .ok x => some (l ++ [BitVec.ofNat 64 x])
    | _, _ => none) (some [])

/-- One evaluation. -/
def State.evalBarrier (s : State) (ctx : Nat) (deps : List W64) : Evaluation :=
  match s.readSignals ctx deps with
  | none => .fails 0x12
  | some l => if l.any BitVec.msb then .fails 0x13 else if l.all (· == 0) then .completes else .waits

/-! ### Launches (06 R125 to R129, R145) -/

/-- The launch failure of a record, in the order of 06 Table 6-5. `gangPkt` says that a GANG packet names it, `parts` where its
points may lie. A device without partitions fails with NO_PARTITION and not for want of residency (06 R141). -/
def State.launchCode (s : State) (b : List Byte) (x : Nest) (gangPkt : Bool) (parts : List Nat) : Option Nat :=
  let l := x.launch
  if recReserved b then some 0x01
  else if recBadBound b l then some 0x02
  else if recBadDep b l then some 0x03
  else if l.shape.bad then some 0x04
  else if l.badCluster then some 0x05
  else if x.open.badPersist || (l.persist && !parts.isEmpty && (s.reserve x.open parts).isNone) then some 0x06
  else if l.fslots.any fun w => !fslotOk w then some 0x07
  else if l.entry.toNat / 2 ^ 48 != 0 || l.entry.toNat % 8 != 0 then some 0x08
  else if l.gang != gangPkt then some 0x09
  else if parts.isEmpty then some 0x0B
  else none

/-- The launch of a record for packet `id` of a queue: the work of the packet, and the state with its nest, which fetches code as it is
now (04 R87), or with its gang reservation. -/
def State.launch (s : State) (q id : Nat) (b : List Byte) (gangPkt : Bool) (parts : List Nat) : State × PktWork :=
  let y := s.queue q
  let x := (LaunchRec.ofBytes b).nest y.ctx y.vd q id (if gangPkt then parts else []) s.time
  match s.launchCode b x gangPkt parts with
  | some c => (s, .outcome (some c))
  | none =>
    let n := x.open
    let (k, s1) := s.fresh
    let plan := if n.launch.persist then (s.reserve n parts).getD [] else []
    if n.done then (s, .outcome none)
    else if gangPkt then
      ({ s1 with gangs := s1.gangs.put k ⟨q, id, y.ctx, y.vd, n.launch, parts, plan, s.time⟩ }, .gang k)
    else ({ s1.freshCode with nests := s1.nests.put k { n with plan := plan } }, .nest k)

/-- Nests of the package, with the gangs that still reserve. -/
def State.activeNests (s : State) : Nat := s.nests.length + s.gangs.length

/-! ### Sluice contexts of packets (16 R288, R289) -/

/-- The cores of a partition on a die, by port. -/
def State.coresOnDie (s : State) (part die : Nat) : List Nat :=
  ((s.portsOf part).filter fun n => n / 8 == die).flatMap pgCores

/-- A FREE Sluice context for a packet: the die of its basin first, partitions ascending, then the other dies. -/
def State.findSluice (s : State) (owned : List Nat) (basin : Nat) : Option (Nat × Nat) :=
  (basinOrder basin).findSome? fun die => owned.findSome? fun p => (s.coresOnDie p die).findSome? fun c =>
    ((s.core c).freeSl).map fun n => (c, n)

/-- The format slots of a slot block, none when it cannot be used: unreadable or not writable, or a reserved value. -/
def State.slotBlock (s : State) (ctx : Nat) (a : W64) : Except Nat (List W32) :=
  if a = 0 then .ok []
  else
    match s.fwRead ctx a.toNat 32, s.rangeFw ctx .write a.toNat 128 with
    | .ok b, .ok _ =>
      let l := (words32 8 b).map (BitVec.ofNat 32)
      if l.all fslotOk then .ok l else .error 0x11
    | _, _ => .error 0x18

/-! ### Processing (16 R284 to R288) -/

/-- What processing a packet does beside its acquire: a failure that the lane finds, a wait at the head with the launch record that was
read, or work. -/
inductive Started where
  | fails (code : Nat)
  | waits (record : List Byte)
  | work (s : State) (w : PktWork) (fslots : List W32) (block : W64)

/-- The parts that a GANG packet names. -/
def pktParts (b : List Byte) : List Nat := (List.range (recBits b 0x18 0 4)).map fun n => recBits b (0x20 + n) 0 5

/-- The nonzero signals of a BARRIER_AND. -/
def pktDeps (b : List Byte) : List W64 := ([0x10, 0x18, 0x20, 0x28, 0x30].map (pktDword b)).filter (· != 0)

/-- A NEST or GANG packet: its record is read once, when the packet reaches the head of its queue, and it waits there while 64 nests are
active (06 R125, R129). -/
def State.startNest (s : State) (q id : Nat) (record : W64) (gangPkt : Bool) (parts : List Nat) : Started :=
  let x := s.queue q
  match x.head.elim (s.fwRead x.ctx record.toNat 256) .ok with
  | .error _ => .work s (.outcome (some 0x18)) [] 0
  | .ok b =>
    if 64 ≤ s.activeNests then .waits b
    else
      let (s1, w) := s.launch q id b gangPkt parts
      .work s1 w [] 0

/-- The operation of a SIGNAL packet on its signal. -/
def pktSignal (b : List Byte) (old : W64) : W64 :=
  let v := pktDword b 0x18
  match recBits b 0x20 0 2 with
  | 0 => old + v
  | 1 => old - v
  | _ => v

/-- The work of packet `id` starts; signals of barriers are read in `s0`, the state at the start of the step (18 R297). A SIGNAL asks the
host for its line with those of the ring (19 R300). -/
def State.startPacket (s s0 : State) (q id : Nat) (b : List Byte) : Except State Started :=
  let x := s.queue q
  let owned := (s.vdNow x.vd).owned
  match pktType b with
  | 3 =>
    match s0.evalBarrier x.ctx (pktDeps b) with
    | .fails c => .ok (.fails c)
    | .completes => .ok (.work s (.outcome none) [] 0)
    | .waits => .ok (.work s (.barrier (pktDeps b)) [] 0)
  | 4 =>
    match s.pieceWaits x.ctx (laneStep q) (s.storePieces x.ctx (pktDword b 0x10).toNat 8 ++ s.typePieces q ++ s.ridxPieces q) with
    | some e => .error e
    | none =>
      match s.signalFw (laneStep q) x.ctx (pktDword b 0x10) (pktSignal b) with
      | .error e => .error e
      | .ok (_, false) => .ok (.fails 0x12)
      | .ok (s1, true) => .ok (.work s1 (.outcome none) [] 0)
  | 1 => .ok (s.startNest q id (pktDword b 0x10) false owned)
  | 2 =>
    let parts := pktParts b
    if !owned.isEmpty && (parts.eraseDups.length != parts.length || parts.any fun p => !owned.contains p) then
      .ok (.fails 0x16)
    else .ok (s.startNest q id (pktDword b 0x10) true (if owned.isEmpty then [] else parts))
  | 5 =>
    if owned.isEmpty then .ok (.fails 0x17)
    else
      match s.slotBlock x.ctx (pktDword b 0x28) with
      | .error c => .ok (.fails c)
      | .ok fs =>
        match s.findSluice owned (recBits b 0x20 0 2) with
        | none => .ok (.waits [])
        | some (c, n) =>
          let s1 := s.freshCode.updSl c n fun y => SlCtx.begin y.serial (pktDword b 0x10) (pktDword b 0x18) (.packet q id) x.ctx none
          .ok (.work s1 (.sluice c n) fs (pktDword b 0x28))
  | _ => .ok (.work s (.outcome none) [] 0)

/-- The packet as it stands in the queue once it is processed. -/
def Queue.newPacket (x : Queue) (id : Nat) (b : List Byte) (w : PktWork) (fs : List W32) (block : W64) : Packet where
  id := id
  idx := x.ridx
  ctx := x.ctx
  vd := x.vd
  ty := pktType b
  hold := pktHold b
  rel := pktRel b
  compl := pktCompl b
  work := w
  nest := w.nest?
  block := block
  fslots := fs
  amax := List.replicate 8 0
  amaxst := List.replicate 8 0

/-- The signal of a completion can be written: an address that fails gives SIGNAL_ADDR. -/
def State.complOk (s : State) (ctx : Nat) (a : W64) : Bool :=
  a == 0 || (match s.resolveFw ctx .write a.toNat with
    | .ok _ => true
    | .error _ => false)

/-- A packet of 64 bytes at RIDX is processed. -/
def State.runPacket (s s0 : State) (q : Nat) (b : List Byte) : State :=
  let x := s.queue q
  let fail := fun (c : Nat) => s.failHere q c (pktCompl b)
  if !typeOrder.contains (pktType b) then fail 0x10
  else if pktReserved b then fail 0x11
  else if !s.complOk x.ctx (pktCompl b) then fail 0x12
  else
    let (id, s1) := (s.fwAcquire (s.fwScope x.vd (pktAcq b))).fresh
    match s1.startPacket s0 q id b with
    | .error e => s.asked e
    | .ok (.fails c) => fail c
    | .ok (.waits r) => s.updQueue q fun x => { x with head := some r }
    | .ok (.work s2 w fs block) =>
      match (s2.updQueue q fun y => { y with inflight := y.inflight ++ [x.newPacket id b w fs block] }).nextPacket q with
      | .error e => s.asked e
      | .ok s3 => s3

/-- A completion of a packet waits at its source: its device is descheduled, and its FIFO is full (15 R272). -/
def State.heldUp (s : State) (x : Queue) : Bool :=
  s.descheduled x.vd && heldLimit ≤ (s.vd x.vd).held.length && x.inflight.any fun p => match p.work with
    | .outcome _ => true
    | _ => false

/-- No rule holds the queue (16 R286, 15 R272). -/
def State.mayProcess (s : State) (q : Nat) : Bool :=
  let x := s.queue q
  x.state == .active && x.enable && x.pending && x.failing.isEmpty && x.inflight.length < 8 && !(x.inflight.any (·.hold)) &&
  !s.heldUp x

/-- The packet at RIDX of a lane, or none when its slot cannot be read. -/
def State.slotBytes (s : State) (q : Nat) : Option (List Byte) :=
  let x := s.queue q
  match s.fwRead x.ctx (x.slotAt x.ridx) 64 with
  | .ok b => some b
  | .error _ => none

/-- The slot at RIDX of a lane can be written. -/
def State.slotWritable (s : State) (q : Nat) : Bool :=
  let x := s.queue q
  match s.rangeFw x.ctx .write (x.slotAt x.ridx) 64 with
  | .ok _ => true
  | .error _ => false

/-- The type under which the packet at RIDX of a lane is processed: its own, or 0xFFFF for a slot that fails or a type that is not
listed; none for a slot that is not yet written. -/
def State.laneType (s : State) (q : Nat) : Option Nat :=
  match s.slotBytes q with
  | none => some 0xFFFF
  | some b =>
    if pktType b = 0 then none else some (if typeOrder.contains (pktType b) && s.slotWritable q then pktType b else 0xFFFF)

/-- A lane processes the packet at RIDX. One whose slot cannot be read has no completion signal; one whose slot can be read and not written
has its own (16 Table 16-5). -/
def State.lane (s s0 : State) (q : Nat) : State :=
  if !s.mayProcess q then s
  else
    match s.slotBytes q with
    | none => s.failHere q 0x18 0
    | some b =>
      if pktType b = 0 then s
      else if !s.slotWritable q then s.failHere q 0x18 (pktCompl b)
      else s.runPacket s0 q b

/-! ### What a step does for packets in flight (16 R291, 18 R297) -/

/-- The failure of a packet in flight as the step finds it. -/
def State.failureOf (s0 : State) (p : Packet) : Option Nat :=
  match p.work with
  | .outcome (some c) => some c
  | .barrier deps =>
    match s0.evalBarrier p.ctx deps with
    | .fails c => some c
    | _ => none
  | _ => none

/-- The packets in flight of a lane at a step: failures are found, and barriers whose signals all read 0 complete. -/
def State.flights (s s0 : State) (q : Nat) : State :=
  (s.queue q).inflight.foldl (fun s' p =>
    if (s'.queue q).failing.any fun f => f.id == some p.id then s'
    else
      match s0.failureOf p with
      | some c => s'.addFailing q ⟨some p.id, p.idx, p.ctx, p.vd, p.compl, some c, false, false⟩
      | none =>
        match p.work with
        | .barrier deps =>
          if s0.evalBarrier p.ctx deps = .completes then s'.setWork q p.id (.outcome none) else s'
        | _ => s') s

/-- The queues of a Fountainhead core. -/
def lanesOfFh (fh : Nat) : List Nat := (List.range 64).map fun i => 64 * fh + i

/-- The lanes of a Fountainhead core that may process a packet, type by type and, within a type, lane by lane. -/
def State.laneOrder (s : State) (fh : Nat) : List Nat :=
  let ready : List (Nat × Nat) :=
    (lanesOfFh fh).filterMap fun q => if s.mayProcess q then (s.laneType q).map fun ty => (q, ty) else none
  (typeOrder ++ [0xFFFF]).flatMap fun (ty : Nat) => ready.filterMap fun (x : Nat × Nat) => if x.2 = ty then some x.1 else none

/-- FOUNTAINHEAD_STEP (16 R285, 18 R297): each lane applies its failures, those of packets in flight among them, and retires what a
queue in ERROR holds; then one ready packet of each lane, type by type and lane by lane. A barrier reads the signals as they were when
the step began. -/
def execFountainheadStep (fh : Nat) (s : State) : Host.Outcome State Fault Refusal :=
  if 4 ≤ fh || !s.mgmt.booted then .next s
  else
    let s1 := (lanesOfFh fh).foldl (fun s' q => (s'.flights s q).settle q) s
    .next ((s.laneOrder fh).foldl (fun s' q => s'.lane s q) s1)

/-- NEST_LAUNCH_DEFERRED (06 R129, 16 R285, R288): a packet that waits at the head of its queue for a nest, or for a Sluice context, is
processed once there is one; of those that wait on a Fountainhead core it is the first. -/
def execNestLaunchDeferred (q : Nat) (s : State) : Host.Outcome State Fault Refusal :=
  if q < 256 && s.mgmt.booted && ((s.laneOrder (q / 64)).find? fun k => (s.queue k).head.isSome) == some q then .next (s.lane s q)
  else .next s

/-- PACKET_COMPLETE (16 R286, R287, R290): a packet that has succeeded completes, with its release and its completion write. What it has
written stands where a later write must wait. -/
def execPacketComplete (q slotNo : Nat) (s : State) : Host.Outcome State Fault Refusal :=
  let act : Action := .event (.packetComplete q slotNo)
  match s.flight? q slotNo with
  | some p =>
    if p.work = .outcome none then
      match s.writeBlock act p with
      | .error e => .next e
      | .ok s1 =>
        match s1.complete act p.vd ⟨q, p.id, p.idx, p.ctx, p.compl, true, p.rel, p.nest⟩ with
        | .error e => .next e
        | .ok s2 => .next (s2.dropPacket q p.id)
    else .next s
  | none => .next s

/-- The record of a Sluice fault of a packet's context (18 R296). -/
def packetFault (sub : SubCause) (pc addr : W64) (n time : Nat) : FaultInfo where
  cause := .sluiceFault
  sub := some sub
  nested := false
  precise := false
  pc := pc
  addr := addr
  ix := [0, 0, 0, 0]
  owner := 0
  slctx := some n
  grp := none
  tinfo := 0
  time := time
  team := none
  groups := []

/-- SLUICE_PACKET_FAULT (18 R296): the context becomes FREE, the record is written, and the packet has failed. -/
def execSluicePacketFault (core sctx : Nat) (s : State) : Host.Outcome State Fault Refusal :=
  match s.slAt core sctx with
  | some w =>
    match w.c.faulted, w.c.owner with
    | some (sub, pc, addr, time), .packet q id =>
      match s.writeRecord (.event (.sluicePacketFault core sctx)) w.c.ctx 0 (packetFault sub pc addr sctx time) false with
      | .error e => .next (s.asked e)
      | .ok s1 => .next ((s1.updSl core sctx SlCtx.freed).setWork q id (.outcome (some 0x15)))
    | _, _ => .next s
  | none => .next s

/-! ### Registers of a queue (16 R282, R293, R294) -/

/-- Accepted when SEQ is newer and IDX not behind (16 R293). -/
def Queue.accepts (x : Queue) (seq idx : Nat) : Bool :=
  let d := (seq + 2 ^ 16 - x.s) % 2 ^ 16
  1 ≤ d && d ≤ 32767 && idxAhead x.w idx < 2 ^ 31

/-- A doorbell: a DISABLED queue discards it. -/
def Queue.ring (x : Queue) (seq idx : Nat) : Queue :=
  if x.state != .disabled && x.accepts seq idx then { x with s := seq, w := idx } else x

/-- DOORBELL_WRITE (16 R293, 19 R301): DBq lies at offset 8q of BAR0 of the virtual function that is the queue's virtual device; a
write to any other offset is ignored. -/
def execDoorbellWrite (at_ : VfOffset) (value : W64) (s : State) : Host.Outcome State Fault Refusal :=
  let q := at_.off / 8
  if at_.off % 8 = 0 && q < 256 && (s.queue q).vd = at_.vf then
    .next (s.updQueue q fun x => x.ring (value.extractLsb' 32 16).toNat (value.extractLsb' 0 32).toNat)
  else .next s

/-- WIDX_RECONCILE (16 R294): every 50 µs, WIDX of the header of an ACTIVE queue or of one in ERROR. -/
def execWidxReconcile (q : Nat) (s : State) : Host.Outcome State Fault Refusal :=
  let x := s.queue q
  if x.state != .disabled && 50000 ≤ s.time - x.reconciled then
    match s.fwNat x.ctx (x.header.toNat + 0x10) 4 with
    | .ok i =>
      let d := idxAhead x.w i
      .next (s.updQueue q fun x =>
        { x with reconciled := s.time, w := if 1 ≤ d && d < 2 ^ 31 then i else x.w })
    | .error _ => .next (s.updQueue q fun x => { x with reconciled := s.time })
  else .next s

/-- The header that a queue reads at enable: ring address, LOGSIZE and RIDX, or none for a bad one, and for one whose address cannot be
read (log entry 121). -/
def State.readHeader (s : State) (ctx : Nat) (hdr : W64) : Option (W64 × Nat × Nat) :=
  if hdr.toNat % 64 ≠ 0 then none
  else
    match s.fwRead ctx hdr.toNat 64 with
    | .error _ => none
    | .ok b =>
      let base := pktDword b 0
      let log := recBits b 8 0 5
      if base.toNat % 64 = 0 && 6 ≤ log && log ≤ 16 then some (base, log, recBits b 0x10 32 32) else none

/-- A queue whose ENABLE is written from 0 to 1, before its header is read; one with a bad header keeps this ring of 64 packets at address
0 (log entry 121). It is bound to the header, the context and the device that its registers name, and it
starts at index 0; packets that it processed before stay in flight (16 R282, R293, log entry 112). -/
def Queue.start (x : Queue) (now : Nat) : Queue :=
  { x with
    header := x.hdr, ctx := x.qctx, vd := x.qvd, enable := true, state := .active, base := 0, logsize := 6, ridx := 0, s := 0, w := 0
    head := none, reconciled := now, err := none, failing := x.failing.filter fun f => f.id.isSome }

/-- ENABLE goes from 0 to 1 (16 R282, R283, 15 R278): a context that is not LIVE, or a bad header, puts the queue in ERROR with code
0x11 and ERRPKT 0 (log entry 121). -/
def State.enableQueue (s : State) (act : Action) (q : Nat) : State :=
  let s1 := s.updQueue q fun x => x.start s.time
  let x := s1.queue q
  let live := x.ctx != 0 && (s.ctx x.ctx).state == .live
  match (if live then s.readHeader x.ctx x.header else none) with
  | some (base, log, r) => s1.updQueue q fun x => { x with base := base, logsize := log, ridx := r }
  | none =>
    if live then
      match s1.queueError act q 0x11 0 with
      | .ok s2 => s2
      | .error e => s.asked e
    else s1.updQueue q fun x => { x with state := .error, err := some (0x11, 0) }

/-- CTX and VD of QCTL as they are written (16 Table 16-1). -/
def Queue.setCtl (x : Queue) (ctx : BitVec 16) (vd : BitVec 7) : Queue := { x with qctx := ctx.toNat, qvd := vd.toNat }

/-- QUEUE_ENABLE (16 R282, R283, 15 R278): QCTL is written with ENABLE 1. -/
def execQueueEnable (q : Nat) (ctx : BitVec 16) (vd : BitVec 7) (s : State) : Host.Outcome State Fault Refusal :=
  if q < 256 then
    let s1 := s.updQueue q fun x => x.setCtl ctx vd
    .next (if (s.queue q).enable then s1 else s1.enableQueue (.event (.queueEnable q ctx vd)) q)
  else .next s

/-- QUEUE_DISABLE (16 R282): QCTL is written with ENABLE 0; the queue is DISABLED once the packets it has processed have completed. -/
def execQueueDisable (ctl : QueueCtl) (s : State) : Host.Outcome State Fault Refusal :=
  if ctl.q < 256 then
    .next (s.updQueue ctl.q fun x => { x.setCtl ctl.ctx ctl.vd with enable := false, head := none }.rest)
  else .next s

/-! ### NLAUNCH (22 R390) -/

/-- The 64 bytes of the packet that NLAUNCH writes. -/
def nlaunchBytes (hdr : BitVec 5) (compl record : W64) : List Byte :=
  natToBytes 8 (1 + 256 * hdr.toNat) ++ natToBytes 8 compl.toNat ++ natToBytes 8 record.toNat ++ List.replicate 40 0

/-- The slot of NLAUNCH written at its home through the CORE path, and the doorbell rung. -/
def Site.nlaunchPut (w : Site) (s : State) (f : NlaunchF) (q i : Nat) (hd : Phys) (slot : Phys) : State :=
  let b := nlaunchBytes f.hdr (w.g.r.rdS64 f.c.toNat) (w.g.r.rdS64 f.a.toNat)
  let s1 := (((s.l2Access (s.tenantOf w.ctx) hd).atomPrepare w.core hd).landBytes hd (natToBytes 4 ((i + 1) % idxMod))
    w.writer)
  let s2 := ((s1.l2Access (s1.tenantOf w.ctx) slot).atomPrepare w.core slot).landBytes slot b w.writer
  let s3 := s2.updQueue q fun x => x.ring ((x.s + 1) % 2 ^ 16) ((i + 1) % idxMod)
  w.commit s3 (w.wrPred f.p true)

/-- The indices of the header at its home: WIDX and RIDX. -/
def State.headerIdx (s : State) (core : Nat) (hd : Phys) : Nat × Nat :=
  let s1 := s.atomPrepare core hd
  (bytesToNat (readBytes (s1.homeByte hd.key) hd.pa 4), bytesToNat (readBytes (s1.homeByte hd.key) (hd.pa + 4) 4))

/-- NLAUNCH (22 R390): a release at system scope, then the slot is reserved and written, and the doorbell rung; the host is asked for the
lines of the header and of the slot at once (19 R300). -/
def execNlaunch (f : NlaunchF) (s : State) := onMem s fun w =>
  let q := (w.g.r.rdS f.b.toNat).toNat
  let x := s.queue q
  match w.releaseAt s 5 with
  | .error e => e
  | .ok s1 =>
    if 255 < q || x.state != .active || x.ctx != w.ctx then w.commit s1 (w.wrPred f.p false)
    else
      match w.devPhys s .write 8 (x.header + 0x10) with
      | .error (c, a) => w.fault s c a
      | .ok hd =>
        match w.admission s1 [hd.page] true with
        | some s2 => s2
        | none =>
          let (i, r) := s1.headerIdx w.core hd
          if 2 ^ x.logsize ≤ idxAhead r i then w.commit s1 (w.wrPred f.p false)
          else
            match w.devPhys s .write 64 (BitVec.ofNat 64 (x.slotAt i)) with
            | .error (c, a) => w.fault s c a
            | .ok slot =>
              match w.admission s1 [slot.page] true with
              | some s2 => s2
              | none =>
                match s1.pieceWaits w.ctx w.act [(hd, 8), (slot, 64)] with
                | some s2 => s2
                | none => w.nlaunchPut s1 f q i hd slot

end Sys2Proof.Machine
end

