-- ==== Sys2Proof/Machine/Package.lean ====
section
/-! DEFINITION. The driver's steps in the package control space: regions (01 R15 to R20), shootdowns (01 R26, 15 R280), contexts
(15 R278, R279), ports, virtual devices and tenants (15 R264 to R276), and the other control registers (00 R6). A write with an
index that names no register changes nothing. -/

namespace Sys2Proof.Machine

/-! ### Regions (01 R15 to R20) -/

/-- The fields of a region register that a write reaches (01 Table 1-2). -/
def regionMask (reg : Nat) : W64 :=
  if reg = 0 then 0x7FFFFFF0001 else if reg = 1 then 0x7FFFFFF0000 else 0xF707

def RegionEntry.write (e : RegionEntry) (reg : Nat) (value : W64) : RegionEntry :=
  if reg = 0 then { e with base := value &&& regionMask 0 }
  else if reg = 1 then { e with limit := value &&& regionMask 1 }
  else { e with map := value &&& regionMask 2 }

/-- The region table of a basin changed. -/
def State.updRegions (s : State) (basin : Nat) (f : Regions → Regions) : State :=
  s.updBasin basin fun b => { b with regions := f b.regions }

/-- REGION_ENTRY_WRITE (01 R15, R18). -/
def execRegionEntryWrite (basin entry reg : Nat) (value : W64) (s : State) : Host.Outcome State Fault Refusal :=
  if 4 ≤ basin || 16 ≤ entry || 3 ≤ reg then .next s
  else .next (s.updRegions basin fun r =>
    if r.busy then { r with commitErr := true }
    else { r with staging := listUpd (fun e => e.write reg value) entry r.staging })

/-- Units of 64 KiB in the LPDDR6 range of a basin, and in a channel group. -/
def basinUnits : Nat := lpddrSize / 65536
def groupUnits : Nat := 48 * 2 ^ 30 / 65536

/-- Channel groups of an entry. -/
def RegionEntry.groups (e : RegionEntry) : Nat := ((List.range 4).filter fun g => e.chgrp.getLsbD g).length

/-- An entry is well-formed by itself. -/
def RegionEntry.sound (e : RegionEntry) : Bool :=
  e.lo ≤ e.hi && e.hi < basinUnits && (e.groups == 1 || e.groups == 2 || e.groups == 4) && e.slgrp != 0 && e.gran < 5

/-- No two entries of a list overlap. -/
def noOverlap : List RegionEntry → Bool
  | [] => true
  | e :: t => t.all (fun x => x.hi < e.lo || e.hi < x.lo) && noOverlap t

/-- Quarter units that the entries assign to a channel group: each range is spread evenly over its groups. -/
def groupLoad (l : List RegionEntry) (g : Nat) : Nat :=
  l.foldl (fun n e => if e.chgrp.getLsbD g then n + (e.hi + 1 - e.lo) * (4 / e.groups) else n) 0

/-- The checks of a staged table (01 R18): every entry is well-formed, the valid ones do not overlap, and their ranges fit the channel
groups (log entry 75). -/
def commitOk (staging : List RegionEntry) : Bool :=
  let l := staging.filter (·.valid)
  staging.all (·.sound) && noOverlap l && [0, 1, 2, 3].all fun g => groupLoad l g ≤ 4 * groupUnits

/-- The lines of a range of a basin, from first to last. -/
def RegionEntry.lines (e : RegionEntry) (basin : Nat) : Nat × Nat :=
  (basin * 2 ^ 36 + e.lo * 512, basin * 2 ^ 36 + (e.hi + 1) * 512 - 1)

/-- REGION_COMMIT (01 R17 to R20): REGION_CTL is written. A write with COMMIT_ERR and COMMIT both 1 clears COMMIT_ERR first, and a
refused commit then sets it again (log entry 93). -/
def execRegionCommit (basin : Nat) (value : W64) (s : State) : Host.Outcome State Fault Refusal :=
  if 4 ≤ basin then .next s
  else
    let s1 := s.updRegions basin fun r => { r with commitErr := r.commitErr && !value.getLsbD 2 }
    let r := (s1.basin basin).regions
    if !value.getLsbD 0 then .next s1
    else if r.busy || !commitOk r.staging then .next (s1.updRegions basin fun r => { r with commitErr := true })
    else
      let r' : Regions := { r with old := r.active, active := r.staging, gen := (r.gen + 1) % 16, busy := true }
      let s2 := s1.updRegions basin fun _ => r'
      .next { s2 with m := s2.m.scramble (r'.changed.map fun e => e.lines basin) s.tick }

/-- REGION_DRAIN_END (01 R19): no request of the old generation to a rewritten range remains. -/
def execRegionDrainEnd (basin : Nat) (s : State) : Host.Outcome State Fault Refusal :=
  let left := s.m.ingress.any fun b => b.2.any fun e => basinOf (128 * e.line) == basin && s.oldWrite e
  if (s.basin basin).regions.busy && !left then .next (s.updRegions basin fun r => { r with busy := false, old := [] })
  else .next s

/-! ### Shootdowns (01 R26, 14 R258, 15 R280) -/

/-- Fields of SD_CTL (15 Table 15-8). -/
def SdChannel.pages (c : SdChannel) : Nat := (c.ctl.extractLsb' 32 32).toNat
def SdChannel.all (c : SdChannel) : Bool := c.ctl.getLsbD 30
def SdChannel.ctx (c : SdChannel) : Nat := (c.ctl.extractLsb' 16 12).toNat
/-- The pages that a shootdown covers, from a first to one past the last, clipped to the address space. -/
def SdChannel.span (c : SdChannel) : Nat × Nat :=
  if c.all then (0, 2 ^ 36)
  else
    let lo := (c.base.extractLsb' 12 36).toNat
    (lo, min (lo + c.pages) (2 ^ 36))

def State.setChan (s : State) (ch : Nat) (c : SdChannel) : State := { s with sd := s.sd.put ch c }

/-- SHOOTDOWN_START (15 R280, R281): SD_BASE and then SD_CTL are written. -/
def execShootdownStart (ch : Nat) (base ctl : W64) (s : State) : Host.Outcome State Fault Refusal :=
  if 8 ≤ ch || (s.chan ch).busy then .next s
  else
    let c : SdChannel := ⟨base &&& 0xFFFFFFFFF000, ctl &&& 0xFFFFFFFF4FFF0000, false⟩
    if !ctl.getLsbD 0 || (c.pages = 0 && !c.all) || (s.ctx c.ctx).state != .live then .next (s.setChan ch c)
    else .next ((s.shoot c.ctx c.span.1 c.span.2).setChan ch { c with busy := true })

/-- SHOOTDOWN_COMPLETE (01 R26, 15 R280). -/
def execShootdownComplete (ch : Nat) (s : State) : Host.Outcome State Fault Refusal :=
  let c := s.chan ch
  if c.busy then
    .next (s.endShoot c.ctx c.span.1 c.span.2 (.event (.shootdownComplete ch)) fun s' => s'.setChan ch { c with busy := false })
  else .next s

/-! ### Contexts (15 R278, R279) -/

/-- Every page from an address up to an end is present and writable for a context. -/
def State.writableUpTo (s : State) (ctx stop : Nat) : (fuel a : Nat) → Bool
  | 0, a => decide (stop ≤ a)
  | fuel + 1, a =>
    if stop ≤ a then true
    else
      match s.walkCtx (fun _ => true) ctx a with
      | .ok l =>
        s.permit ctx .write (l.entry ctx (a / 4096)) &&
        State.writableUpTo s ctx stop fuel ((a / 4096 / l.pages + 1) * l.pages * 4096)
      | .error _ => false

/-- Bytes of a save region: 2,688 MiB (03 R63). -/
def saveSize : Nat := 2688 * 2 ^ 20

/-- The save region and the fault area of a context are mapped writable. -/
def State.areasOk (s : State) (ctx : Nat) : Bool :=
  let save := ((s.ctx ctx).save.extractLsb' 21 27).toNat * 2 ^ 21
  let fault := (s.ctx ctx).faultArea
  save + saveSize ≤ 2 ^ 48 && s.writableUpTo ctx (save + saveSize) (saveSize / 4096) save &&
  s.writableUpTo ctx (fault + 4096) 1 fault

/-- The drain time of a context is one that its virtual device accepts (15 R268). -/
def State.drainOk (s : State) (ctx : Nat) : Bool :=
  let v := s.vd (s.ctx ctx).vd
  !v.enabled || v.overrunOk || (s.ctx ctx).drain ≤ v.quantum

def State.cmdDone (s : State) (ctx status : Nat) : State := { s with cmd := ⟨status, false, ctx⟩ }

/-- A command that is written while another runs is ignored (15 R279). -/
def State.cmdBusy (s : State) : State := { s with cmd := { s.cmd with status := 1 } }

/-- CREATE (15 R278, R279): the checks in their order, then the context is LIVE with an empty handle table. -/
def State.createCtx (s : State) (ctx : Nat) : State :=
  if 4096 ≤ ctx then s
  else if s.cmd.busy then s.cmdBusy
  else if (s.ctx ctx).state != .free then s.cmdDone ctx 5
  else if ctx = 0 || (s.ctx ctx).drain < 10 || 10000 < (s.ctx ctx).drain then s.cmdDone ctx 2
  else if !s.drainOk ctx then (s.updVd (s.ctx ctx).vd fun v => { v with cfgErr := 2 }).cmdDone ctx 4
  else if !s.areasOk ctx then s.cmdDone ctx 3
  else (s.updCtx ctx fun c => { c with state := .live, handles := [] }).cmdDone ctx 0

/-- CTX_CREATE (15 R278, R279). -/
def execCtxCreate (ctx : Nat) (s : State) : Host.Outcome State Fault Refusal := .next (s.createCtx ctx)

/-- Work of a context that forbids its destruction. -/
def State.ctxActive (s : State) (ctx : Nat) : Bool :=
  (s.queues.any fun q => (q.2.ctx == ctx || q.2.qctx == ctx) && q.2.enable) ||
  (s.nests.any fun n => n.2.ctx == ctx) || (s.gangs.any fun g => g.2.ctx == ctx) ||
  (s.teams.any fun t => t.2.ctx == ctx) || (s.engines.any fun e => e.2.ctx == ctx) ||
  s.cores.any fun c =>
    ([0, 1, 2, 3].any fun n => (c.2.sl n).state == .running && (c.2.sl n).ctx == ctx) ||
    c.2.savedSl.any fun x => x.2.ctx == ctx

/-- The residencies of a context freed: its copies, its watches and its pinned macros go (10 R180, R192). -/
def State.freeResidencies (s : State) (ctx : Nat) : State :=
  { s with
    cores := s.cores.mapVals fun _ c =>
      { c with copies := c.copies.filter (fun m => m.ctx != ctx), pinnedNeed := c.pinnedNeed.erase ctx }
    basins := s.basins.mapVals fun _ b => { b with watches := b.watches.filter fun w => w.ctx != ctx }
    ctxs := s.ctxs.upd ctx fun c => { c with handles := c.handles.mapVals fun _ e => { e with res := none } } }

/-- DESTROY (15 R279): refused for a context that is not LIVE or has work; else it is DYING and the command is busy. -/
def State.destroyCtx (s : State) (ctx : Nat) : State :=
  if 4096 ≤ ctx then s
  else if s.cmd.busy then s.cmdBusy
  else if (s.ctx ctx).state != .live || s.ctxActive ctx then s.cmdDone ctx 5
  else
    let s1 := (s.updCtx ctx fun c => { c with state := .dying }).freeResidencies ctx
    { s1.shoot ctx 0 (2 ^ 36) with cmd := ⟨0, true, ctx⟩ }

/-- CTX_DESTROY (15 R279). -/
def execCtxDestroy (ctx : Nat) (s : State) : Host.Outcome State Fault Refusal := .next (s.destroyCtx ctx)

/-- CTX_DESTROY_COMPLETE (15 R279): the shootdown has completed, and the context is FREE. -/
def execCtxDestroyComplete (ctx : Nat) (s : State) : Host.Outcome State Fault Refusal :=
  if s.cmd.busy && (s.ctx ctx).state == .dying then
    .next (s.endShoot ctx 0 (2 ^ 36) (.event (.ctxDestroyComplete ctx)) fun s' =>
      { s'.updCtx ctx fun c => { c with state := .free, handles := [] } with cmd := { s'.cmd with status := 0, busy := false } })
  else .next s

/-- CTX_CMD is written (15 R279, Table 15-7): OP 1 creates the context CTX and OP 2 destroys it; with OP 0 or 3 no command is given, and
CTX takes the value (log entry 125). -/
def State.writeCmd (s : State) (value : W64) : State :=
  let ctx := (value.extractLsb' 16 12).toNat
  match (value.extractLsb' 0 2).toNat with
  | 1 => s.createCtx ctx
  | 2 => s.destroyCtx ctx
  | _ => { s with cmd := { s.cmd with ctx := ctx } }

/-! ### Ports, virtual devices and tenants (15 R264 to R276) -/

/-- PORT_WRITE (15 R264, R266). -/
def execPortWrite (port : Nat) (value : W64) (s : State) : Host.Outcome State Fault Refusal :=
  if port < 32 then
    .next { s with ports := s.ports.put port ⟨value.extractLsb' 32 32, value.extractLsb' 0 5⟩ }
  else .next s

/-- The refusal of a virtual device's configuration: 1 enabled with quantum 0, 2 quantum below the drain time (15 R268). -/
def State.cfgRefusal (s : State) (vd : Nat) (cfg : W64) (policy : W32) : Nat :=
  if cfg.getLsbD 7 && cfgQuantum cfg = 0 then 1
  else if !policyOverrun policy && cfgQuantum cfg < s.drainOf vd then 2
  else 0

/-- A configuration written to a virtual device, which takes effect at the next visit of the scheduler, or refused with CFG_ERR
(15 R268, log entry 111). -/
def State.writeVd (s : State) (vd : Nat) (cfg : W64) (policy : W32) : State :=
  if 128 ≤ vd then s
  else
    let e := s.cfgRefusal vd cfg policy
    s.updVd vd fun v => if e = 0 then { v with cfg := cfg, policy := policy, cfgErr := 0 } else { v with cfgErr := e }

/-- VD_CFG_WRITE (15 R267, R268). -/
def execVdCfgWrite (vd : Nat) (value : W64) (s : State) : Host.Outcome State Fault Refusal :=
  .next (s.writeVd vd value (s.vd vd).policy)

/-- VD_POLICY_WRITE (15 R268, 08 R171). -/
def execVdPolicyWrite (vd : Nat) (value : W64) (s : State) : Host.Outcome State Fault Refusal :=
  .next (s.writeVd vd (s.vd vd).cfg (value.setWidth 32 &&& 7))

/-- The ways of a basin that tenants other than one own. -/
def BasinState.foreignWays (b : BasinState) (ten : Nat) : BitVec 16 :=
  (List.range 128).foldl (fun m t => if t = ten then m else m ||| b.waysOf t) 0

/-- TEN_WAYS_WRITE (15 R273): refused when it names a way of another tenant; lines in ways that go leave the slices. -/
def execTenWaysWrite (ten basin : Nat) (value : W64) (s : State) : Host.Outcome State Fault Refusal :=
  let ways := value.setWidth 16
  if 128 ≤ ten || 4 ≤ basin || (s.basin basin).foreignWays ten &&& ways != 0 then .next s
  else
    let s1 := s.updBasin basin fun b => { b with ways := b.ways.put ten ways }
    .next { s1 with m := { s1.m with l2 := s1.m.l2.filter fun x =>
      !(x.2.tenant == ten && basinOf (128 * keyLine x.1) == basin && !ways.getLsbD x.2.way) } }

/-! ### The other registers (00 R6) -/

/-- A range register of a tenant changed (08 Table 8-1). -/
def State.updRange (s : State) (ten basin n : Nat) (f : RangeRegs → RangeRegs) : State :=
  if 128 ≤ ten || 4 ≤ basin || 8 ≤ n then s
  else s.updBasin basin fun b => { b with ranges := b.ranges.put (8 * ten + n) (f (b.range ten n)) }

/-- A register of a context changed, while the context is FREE (15 R278). -/
def State.updFree (s : State) (ctx : Nat) (f : Ctx → Ctx) : State :=
  if 1 ≤ ctx && ctx < 4096 && (s.ctx ctx).state == .free then s.updCtx ctx f else s

def State.updKey (s : State) (k : Nat) (f : KeySlot → KeySlot) : State :=
  if k < 256 then { s with keys := s.keys.put k (f (s.key k)) } else s

/-- A communicator of a virtual device configured (12 R244): its packages in order, 1 to 1,024 of them, the local rank, and a timeout of
1 ms to 60 s given in ms. -/
def State.setComm (s : State) (vd comm : Nat) (packages : List Nat) (rank timeout : Nat) : State :=
  if vd < 128 && comm < 256 && 1 ≤ packages.length && packages.length ≤ 1024 && rank < packages.length && 1 ≤ timeout &&
      timeout ≤ 60000 then
    { s with comms := s.comms.put (commKey vd comm) ⟨packages, rank, timeout * 1000000, 0, []⟩ }
  else s

/-- REGISTER_WRITE (00 R6, 08 R151, 12 R244, 15 R275, R276, R278 to R280, 16 Table 16-1): a control register with no behaviour of
its own takes the written value in its RW fields; CTX_CMD is written whole. -/
def execRegisterWrite (reg : CtlReg) (value : W64) (s : State) : Host.Outcome State Fault Refusal :=
  .next <| match reg with
  | .rangeBase ten basin n => s.updRange ten basin n fun r => { r with base := value &&& 0x1FFFFFFFF001 }
  | .rangeLimit ten basin n => s.updRange ten basin n fun r => { r with limit := value &&& 0x1FFFFFFFF000 }
  | .rangeCtl ten basin n => s.updRange ten basin n fun r => { r with ctl := value &&& 0xFFFFF }
  | .tenMacros ten =>
    let q := (value.extractLsb' 0 13).toNat
    if ten < 128 && q ≤ 4608 then { s with quotas := s.quotas.put ten q } else s
  | .keyTenLo k => s.updKey k fun x => { x with tenLo := value }
  | .keyTenHi k => s.updKey k fun x => { x with tenHi := value }
  | .ctxRoot c => s.updFree c fun x => { x with root := value &&& 0x1FFFFFFFF000 }
  | .ctxSave c => s.updFree c fun x => { x with save := value &&& 0xFFFFFFE00000 }
  | .ctxFault c => s.updFree c fun x => { x with fault := value &&& 0xFFFFFFFFF000 }
  | .ctxHandler c => s.updFree c fun x => { x with handler := value &&& 0xFFFFFFFFFFF8 }
  | .ctxCfg c => s.updFree c fun x => { x with cfg := value &&& 0xFFFC7F00 }
  | .sdBase ch =>
    if 8 ≤ ch || (s.chan ch).busy then s
    else s.setChan ch { s.chan ch with base := value &&& 0xFFFFFFFFF000 }
  | .qhdr q => if q < 256 then s.updQueue q fun x => { x with hdr := value } else s
  | .commCfg vd comm packages rank timeout => s.setComm vd comm packages rank timeout
  | .ctxCmd => s.writeCmd value
  | .readOnly _ => s

end Sys2Proof.Machine
end

