-- ==== Sys2Proof/Machine/Management.lean ====
section
/-! DEFINITION. Requests of the host (08 R170, 19 R298 to R300) and the management controller: sensors, firmware, reset,
attestation and keys (19 R302 to R306). What the host reads or is told stands in `reply`. -/

namespace Sys2Proof.Machine

def State.answer (s : State) (r : HostReply) : State := { s with reply := r }

/-! ### Accesses of the host

They carry device physical addresses, name no key id, and are not checked by the connection matrix (15 R265). -/

/-- The pieces of a host access, as translated addresses under no key id. -/
def hostPieces (addr n : Nat) : List (Phys × Nat) :=
  (piecesOf addr n).map fun x => (⟨x.1, 0, noKey, 0, placeOf x.1 == .host, false⟩, x.2)

/-- Every byte of a host access exists: it lies in LPDDR6 or in the host window, inside the 45-bit space. -/
def hostRangeOk (addr n : Nat) : Bool :=
  addr + n ≤ 2 ^ 45 && (hostPieces addr n).all fun x => placeOf x.1.pa != .hole

/-- The replicated pages below a table: first virtual page, pages of 4 KiB and first frame (01 R22, R27). -/
def State.replLeaves (s : State) : List Nat → (table page : Nat) → List (Nat × Nat × Nat)
  | [], _, _ => []
  | level :: rest, table, page =>
    (List.range 512).flatMap fun i =>
      let e : W64 := BitVec.ofNat 64 (s.m.homeNat (table + 8 * i) 8)
      let at_ := page + i * 2 ^ (9 * (level - 1))
      if !pteV e then []
      else if pteLeaf e then
        match leafAt s.m level table i e with
        | .ok l => if l.repl then [(at_ / l.pages * l.pages, l.pages, l.frame)] else []
        | .error _ => []
      else if level = 1 then []
      else s.replLeaves rest (pteFrame e * 4096) at_

/-- The replicated pages of live contexts in which one of some pieces lies: context and first virtual page. -/
def State.replOf (s : State) (l : List (Phys × Nat)) : List (Nat × Nat) :=
  s.ctxs.flatMap fun c =>
    if c.2.state == .live then
      (((s.replLeaves [4, 3, 2, 1] c.2.rootPa 0).filter fun x =>
        l.any fun y => x.2.2 ≤ y.1.pa / 4096 && y.1.pa / 4096 < x.2.2 + x.2.1).map fun x => (c.1, x.1)).eraseDups
    else []

/-- What a piece of a host write makes of its page: the context and the address for the collapse that it raises or joins, if its page is
replicated or collapses. -/
def State.hostHit (s : State) (x : Phys × Nat) : Option (Nat × Phys) :=
  if s.m.collapses.any fun c => c.holds x.1.pa then some (0, x.1)
  else (s.replOf [x]).head?.map fun y => (y.1, { x.1 with page := y.2, repl := true })

/-- A write of the host to a replicated page, or to one that collapses, waits for the collapse: its completion is withheld (01 R28). -/
def State.hostCollapse (s : State) (act : Action) (l : List (Phys × Nat)) : Option State :=
  match l.filterMap s.hostHit with
  | [] => none
  | hits => some (hits.foldl (fun s' h => s'.joinCollapse h.1 act h.2) s)

/-- Bytes written by the host: they enter the HOST ingress buffer of their home slice; a write to the window is the host's
own (08 R170). -/
def State.hostPut (s : State) (l : List (Phys × Nat)) (b : List Byte) : State :=
  (l.foldl (fun (st : State × List Byte) x =>
    let piece := st.2.take x.2
    (if x.1.host then st.1.landBytes x.1 piece none else st.1.push .host (st.1.entryOf x.1 piece none none),
      st.2.drop x.2)) (s, b)).1

/-- HOST_WRITE (08 R154, R170, 01 R28, 19 R300): its completion is withheld while a replicated page collapses, and while it finds no room
in the HOST buffers. -/
def execHostWrite (addr : Nat) (data : List Byte) (s : State) : Host.Outcome State Fault Refusal :=
  let l := hostPieces addr data.length
  if !hostRangeOk addr data.length then .next (s.answer .unsupported)
  else
    let act : Action := .event (.hostWrite addr data)
    match s.hostCollapse act l, (if l.any fun x => !x.1.host then s.awaitRoom .host act else none) with
    | some s1, _ => .next s1
    | none, some s1 => .next s1
    | none, none => .next ((s.hostPut l data).answer .done)

/-- The lines of pieces that the host may take: those of device memory with no back-invalidation under way. -/
def State.hostTakes (s : State) (l : List (Phys × Nat)) : List Nat :=
  ((devLines l).filter fun x => (s.m.backInv.find? x).isNone && !s.hostHolds x).eraseDups

/-- A read of device memory through the HOST path (08 R167, 19 R300); under HDM-DB the host may keep the lines. -/
def State.hostLoad (s : State) (addr n : Nat) (hold : Bool) : State :=
  let l := hostPieces addr n
  if !hostRangeOk addr n then s.answer .unsupported
  else
    let b := l.flatMap fun x => (List.range x.2).map fun i => s.pathByte .host noKey (x.1.pa + i)
    let s1 : State := if hold then { s with m := { s.m with hostHeld := s.m.hostHeld ++ s.hostTakes l } } else s
    s1.answer (.data b)

/-- Fields put together from their lowest bits. -/
def fields (l : List (Nat × Nat)) : W64 := BitVec.ofNat 64 (l.foldl (fun n x => n + x.2 * 2 ^ x.1) 0)

def CtxState.code : CtxState → Nat
  | .free => 0
  | .live => 1
  | .dying => 2

def QState.code : QState → Nat
  | .disabled => 0
  | .active => 1
  | .error => 2

/-- CTX_CMD as it reads (15 Table 15-7). -/
def CtxCmd.word (c : CtxCmd) : W64 := fields [(16, c.ctx), (31, c.busy.toNat), (32, c.status)]

/-- What a control register reads as: its RW fields as they were written, its RO fields as the device holds them, and zero for its WO
fields and reserved bits (00 R6). The table of communicators has no register layout and reads zero. -/
def State.readCtl (s : State) : CtlReg → W64
  | .rangeBase ten basin n => if ten < 128 && basin < 4 && n < 8 then ((s.basin basin).range ten n).base else 0
  | .rangeLimit ten basin n => if ten < 128 && basin < 4 && n < 8 then ((s.basin basin).range ten n).limit else 0
  | .rangeCtl ten basin n => if ten < 128 && basin < 4 && n < 8 then ((s.basin basin).range ten n).ctl else 0
  | .tenMacros ten => if ten < 128 then fields [(0, s.quota ten), (16, s.macrosUsed ten)] else 0
  | .keyTenLo k => if k < 256 then (s.key k).tenLo else 0
  | .keyTenHi k => if k < 256 then (s.key k).tenHi else 0
  | .ctxRoot c => if 1 ≤ c && c < 4096 then (s.ctx c).root else 0
  | .ctxSave c => if 1 ≤ c && c < 4096 then (s.ctx c).save else 0
  | .ctxFault c => if 1 ≤ c && c < 4096 then (s.ctx c).fault else 0
  | .ctxHandler c => if 1 ≤ c && c < 4096 then (s.ctx c).handler else 0
  | .ctxCfg c => if 1 ≤ c && c < 4096 then (s.ctx c).cfg ||| fields [(1, (s.ctx c).state.code)] else 0
  | .sdBase ch => if ch < 8 then (s.chan ch).base else 0
  | .qhdr q => if q < 256 then (s.queue q).hdr else 0
  | .commCfg _ _ _ _ _ => 0
  | .ctxCmd => s.cmd.word
  | .readOnly _ => 0

/-- The registers that have steps of their own or that only the device writes (01 Tables 1-2, 1-3, 15 Tables 15-1 to 15-8, R273,
R274, 16 Table 16-1). -/
def State.readStat (s : State) : StatReg → W64
  | .regionBase b n => if b < 4 then ((s.basin b).regions.staging.getD n ⟨0, 0, 0⟩).base else 0
  | .regionLimit b n => if b < 4 then ((s.basin b).regions.staging.getD n ⟨0, 0, 0⟩).limit else 0
  | .regionMap b n => if b < 4 then ((s.basin b).regions.staging.getD n ⟨0, 0, 0⟩).map else 0
  | .regionCtl b =>
    let r := (s.basin b).regions
    if b < 4 then fields [(1, r.busy.toNat), (2, r.commitErr.toNat), (8, r.gen)] else 0
  | .port n => if n < 32 then fields [(0, (s.port n).part.toNat), (32, (s.port n).allow.toNat)] else 0
  | .vdCfg v => if v < 128 then (s.vd v).cfg else 0
  | .vdPolicy v => if v < 128 then ((s.vd v).policy.setWidth 64) else 0
  | .vdStat v =>
    let d := s.vd v
    if v < 128 then fields [(0, d.cfgErr), (8, d.held.length), (16, (d.deficit % 2 ^ 48).toNat)] else 0
  | .tenWays ten b => if ten < 128 && b < 4 then ((s.basin b).waysOf ten).setWidth 64 else 0
  | .hits ten b => if ten < 128 && b < 4 then (s.basin b).hits.getD ten 0 else 0
  | .misses ten b => if ten < 128 && b < 4 then (s.basin b).misses.getD ten 0 else 0
  | .fhits ten b => if ten < 128 && b < 4 then (s.basin b).fhits.getD ten 0 else 0
  | .ctxCmd => s.cmd.word
  | .sdCtl ch => if ch < 8 then (s.chan ch).ctl ||| fields [(31, (s.chan ch).busy.toNat)] else 0
  | .qctl q =>
    let x := s.queue q
    if q < 256 then fields [(0, x.enable.toNat), (1, x.state.code), (8, x.qvd), (16, x.qctx)] else 0
  | .doorbell _ => 0
  | .key _ => 0

/-- HOST_READ (08 R167, 19 R298, R300, R301, 00 R6): the host reads `n` bytes of device memory, with `hold` when it keeps their lines
under HDM-DB, a control register, which is read whole, or an offset of BAR0 of a virtual function, which holds WO doorbells alone and
reads zero. -/
def execHostRead (x : HostSpace) (n : Nat) (hold : Bool) (s : State) : Host.Outcome State Fault Refusal :=
  .next <| match x with
  | .mem addr => s.hostLoad addr n hold
  | .ctl r => s.answer (.data (natToBytes 8 (s.readCtl r).toNat))
  | .stat r => s.answer (.data (natToBytes 8 (s.readStat r).toNat))
  | .vf _ _ => s.answer (.data (natToBytes 8 0))

/-- The AtomicOps that the completer supports: FetchAdd, Swap and CAS of 4 and 8 bytes, aligned, to device memory (19 R298). -/
def hostAtomicOk (op : AOp) (addr n : Nat) : Bool :=
  (op == .add || op == .exch || op == .cas) && (n == 4 || n == 8) && addr % n == 0 && addr < 2 ^ 45 &&
  match placeOf addr with
  | .lpddr _ _ => true
  | _ => false

/-- HOST_ATOMIC_REQUEST (19 R298): `a` is the operand and `b` the compare value; earlier host writes to the line leave their
buffer, and the operation executes at the home slice. -/
def execHostAtomicRequest (op : AOp) (addr n : Nat) (a b : W64) (s : State) : Host.Outcome State Fault Refusal :=
  if !hostAtomicOk op addr n then .next (s.answer .unsupported)
  else
    let ph : Phys := ⟨addr, 0, noKey, 0, false, false⟩
    match s.hostCollapse (.event (.hostAtomicRequest op addr n a b)) [(ph, n)] with
    | some s1 => .next s1
    | none =>
      let s1 := s.drainPath .host fun e => e.line == lineOf addr
      let old := readBytes (s1.homeByte noKey) addr n
      let new := atomNew op n (bytesToNat old) (a.toNat % 2 ^ (8 * n)) (b.toNat % 2 ^ (8 * n))
      .next ((s1.landBytes ph (natToBytes n new) none).answer (.data old))

/-- UNSUPPORTED_HOST_REQUEST (19 R298): completed with Unsupported Request. -/
def execUnsupportedHostRequest (_addr : Nat) (s : State) : Host.Outcome State Fault Refusal := .next (s.answer .unsupported)

/-- A group has an access to a page of the host window that the host has not completed. -/
def Group.hostPending (g : Group) (page : Nat) : Bool :=
  (g.pend.any fun p => match p.kind with
    | .host h => h.cur.phys / 4096 == page
    | _ => false) ||
  [g.w0, g.w1].any fun x => match x with
    | some (.hostSignal _ _ pa _ _) => pa / 4096 == page
    | _ => false

/-- ATS_INVALIDATION (19 R298, R299): it completes once no access that used the translation is on its way, and the cache does not hold
it any more. -/
def execAtsInvalidation (page : Nat) (s : State) : Host.Outcome State Fault Refusal :=
  if s.teams.any fun t => t.2.groups.any fun g => g.hostPending page then .next s
  else .next ({ s with m := { s.m with ats := s.m.ats.erase page } }.answer .done)

/-- The back-invalidations of a state that complete: the host has answered them, and no step that waits for one of them waits for
another. -/
def State.answered (s : State) : List (Nat × List Action) :=
  let blocked := fun (a : Action) => s.m.backInv.any fun e => s.hostHolds e.1 && e.2.contains a
  s.m.backInv.filter fun e => !s.hostHolds e.1 && e.2.all fun a => !blocked a

/-- BACK_INVALIDATION_RESPONSE (19 R300): the host no longer holds the line. With the completion of the back-invalidation the device's
writes to the line perform: those in its ingress buffers, and the steps that waited, before anything else. -/
def execBackInvalidationResponse (line : Nat) (s : State) : Host.Outcome State Fault Refusal :=
  if (s.m.backInv.find? line).isSome && s.hostHolds line then
    let s1 : State := { s with m := { s.m with hostHeld := s.m.hostHeld.filter fun x => x != line } }
    let l := s1.answered
    let s2 : State := { s1 with m := { s1.m with backInv := s1.m.backInv.filter fun e => !l.contains e } }
    let s3 := l.foldl (fun s' e => devicePaths.foldl (fun s'' p => s''.drainPath p fun x => x.line == e.1) s') s2
    .next { s3 with agenda := (l.flatMap (·.2)).eraseDups ++ s3.agenda }
  else .next s

/-! ### The management controller (19 R302 to R306) -/

/-- The package power above which the clock is lowered, in W, and the samples of the average: one per ms for 10 ms. -/
def powerLimit : Nat := 2400
def powerSamples : Nat := 10

def Mgmt.sum (m : Mgmt) : Nat := m.power.foldl (· + ·) 0

/-- The ns between two samples. -/
def samplePeriod : Nat := 1000000

/-- SENSOR_SAMPLE (19 R302): every 1 ms the controller takes the power of each rail and the temperatures. The clock is lowered, with a log
entry, when the package power averaged over 10 ms exceeds the limit, and until it is below. -/
def execSensorSample (rails : List Nat) (temps : Temps) (s : State) : Host.Outcome State Fault Refusal :=
  let m0 := s.mgmt
  if m0.sampled.any fun t => s.time - t < samplePeriod then .next s
  else
    let power := rails.foldl (· + ·) 0
    let m1 : Mgmt := { m0 with
      rails := rails, dies := temps.dies, inlet := temps.inlet, outlet := temps.outlet, sampled := some s.time
      power := (power :: m0.power).take powerSamples }
    let limit := powerLimit * m1.power.length
    .next { s with mgmt :=
      if limit < m1.sum then
        if m1.lowered then m1 else { m1 with lowered := true }.record (.thermal power)
      else if m1.sum < limit then { m1 with lowered := false }
      else m1 }

/-- The image of a number: A is false, B is true. -/
def Mgmt.image (m : Mgmt) (b : Bool) : FwImage := if b then m.imgB else m.imgA

/-- FIRMWARE_UPDATE (19 R304): only the image that does not run is written, and it is marked when its signature verifies. -/
def execFirmwareUpdate (version : Nat) (sigOk : Bool) (s : State) : Host.Outcome State Fault Refusal :=
  let m := s.mgmt
  let img : FwImage := ⟨version, sigOk⟩
  let m1 : Mgmt := if m.running then { m with imgA := img } else { m with imgB := img }
  let m2 : Mgmt := if sigOk then { m1 with marked := !m.running } else m1
  .next { s with mgmt := m2.record (.firmware version sigOk) }

/-- The boot of the marked image, or of the other one; when both fail, no packet is executed (19 R304). -/
def Mgmt.boot (m : Mgmt) : Mgmt :=
  if (m.image m.marked).sigOk then { m with running := m.marked, booted := true }.record (.boot m.marked true)
  else
    let m1 := m.record (.boot m.marked false)
    if (m.image !m.marked).sigOk then { m1 with running := !m.marked, booted := true }.record (.boot (!m.marked) true)
    else { m1 with booted := false }.record (.boot (!m.marked) false)

/-- What the controller keeps in non-volatile storage. -/
def Mgmt.kept (m : Mgmt) : Mgmt :=
  { Mgmt.reset with
    log := m.log, overflow := m.overflow, imgA := m.imgA, imgB := m.imgB, running := m.running, marked := m.marked
    leaves := m.leaves }

/-- The lines of the LPDDR6 of every basin. -/
def allLpddr : List (Nat × Nat) := [0, 1, 2, 3].map fun b => (b * 2 ^ 36, b * 2 ^ 36 + lpddrSize / 128 - 1)

/-- The package after its volatile state has gone: every field at its reset value, but for the model's own ones, what stands
in non-volatile storage, and the host's memory. The manual gives LPDDR6 no contents after a reset. -/
def State.cleared (s : State) : State :=
  { State.reset with
    tick := s.tick
    agenda := s.agenda
    serial := s.serial
    m := { MemState.reset with
      mem := s.m.mem.filter fun x => placeOf x.1 == .host
      scrambled := allLpddr.map fun r => (r.1, r.2, s.tick) }
    mgmt := s.mgmt.kept }

/-- DEVICE_RESET (19 R304). -/
def execDeviceReset (s : State) : Host.Outcome State Fault Refusal :=
  let s1 := s.cleared
  .next { s1 with mgmt := s1.mgmt.boot }

/-- Leaves of the attestation key (19 R305). -/
def leafCount : Nat := 32768

/-- ATTESTATION_SIGN (19 R305): the counter is written before the signature that uses the leaf is released. -/
def execAttestationSign (_nonce : Nat) (s : State) : Host.Outcome State Fault Refusal :=
  let m := s.mgmt
  if m.leaves < leafCount then
    .next { s with
      mgmt := { m with leaves := m.leaves + 1 }.record (.attestation m.leaves)
      reply := .leaf m.leaves }
  else .next (s.answer .refused)

/-! ### What a device without firmware exposes (19 R304) -/

/-- A step that the host takes through a base address register or to device memory: everything but configuration space and the
mailbox. -/
def throughBar : Instr → Bool
  | .regionEntryWrite _ _ _ _ | .regionCommit _ _ | .portWrite _ _ | .vdCfgWrite _ _ | .vdPolicyWrite _ _ | .tenWaysWrite _ _ _
  | .registerWrite _ _ | .ctxCreate _ | .ctxDestroy _ | .shootdownStart _ _ _ | .queueEnable _ _ _ | .queueDisable _
  | .doorbellWrite _ _ | .hostWrite _ _ | .hostRead _ _ _ | .hostAtomicRequest _ _ _ _ _ => true
  | _ => false

/-- The step is one that a device both of whose images have failed does not expose (19 R304). -/
def State.unexposed (s : State) (i : Instr) : Bool := !s.mgmt.booted && throughBar i

/-- KEY_WRITE (15 R276, R277, 19 R306): the key applies to lines written after it. -/
def execKeyWrite (key : Nat) (value : List W64) (s : State) : Host.Outcome State Fault Refusal :=
  let word := (List.range 4).foldl (fun n k => n + (value.getD k 0).toNat * 2 ^ (64 * k)) 0
  .next (s.updKey key fun x => { x with key := BitVec.ofNat 256 word, version := x.version + 1 })

/-- POWER_LOSS (19 R303, R305): what is volatile is gone, and no packet executes until a reset boots. -/
def execPowerLoss (s : State) : Host.Outcome State Fault Refusal :=
  let s1 := s.cleared
  .next { s1 with mgmt := { s1.mgmt with booted := false } }

end Sys2Proof.Machine
end

