-- ==== Sys2Proof/Machine/SystemWords.lean ====
section
/-! DEFINITION. The system words (20 R329, 23 R431 to R438, R446): special registers (03 Tables 3-2 to 3-5), traps and the
return from a handler (14 R254 to R257), and YIELD (02 R39). -/

namespace Sys2Proof.Machine

/-! ### Special registers -/

/-- TSTAT (14 Table 14-4). -/
def TrapRegs.tstat (t : TrapRegs) : W32 :=
  BitVec.ofNat 32 (t.inh.toNat + 2 * t.slot.toNat + 4 * t.held.toNat + 8 * (t.hidden != 0).toNat)

/-- A special register of 32 bits, for a lane (03 Table 3-2). -/
def Site.special (w : Site) (s : State) (sel L : Nat) : W32 :=
  let nest := s.nests.find? w.tm.nest
  if sel = 0x000 then BitVec.ofNat 32 L
  else if sel = 0x001 then BitVec.ofNat 32 w.grp
  else if sel = 0x002 then BitVec.ofNat 32 w.tm.teamIdx
  else if sel = 0x003 then BitVec.ofNat 32 w.tm.clus
  else if sel = 0x004 then BitVec.ofNat 32 w.tm.nest
  else if 0x010 ≤ sel && sel ≤ 0x013 then w.tm.ix.getD (sel - 0x010) 0
  else if sel = 0x020 then w.g.r.fpm
  else if sel = 0x021 then w.g.r.ltile
  else if sel = 0x022 then w.ps.repc
  else if sel = 0x040 then w.g.t.tstat
  else if sel = 0x042 then w.g.t.tcause
  else if sel = 0x044 then w.g.t.tinfo
  else if sel = 0x050 then w.g.r.gstat
  else if 0x060 ≤ sel && sel ≤ 0x067 then nest.elim 0 (·.amax.getD (sel - 0x060) 0)
  else if 0x068 ≤ sel && sel ≤ 0x06F then nest.elim 0 (·.amaxst.getD (sel - 0x068) 0)
  else if sel = 0x070 then BitVec.ofNat 32 w.core
  else BitVec.ofNat 32 (coreBasin w.core)

/-- A special register of 64 bits (03 Table 3-2). -/
def Site.special64 (w : Site) (s : State) (sel : Nat) : W64 :=
  if sel = 0x030 then BitVec.ofNat 64 s.clk
  else if sel = 0x031 then BitVec.ofNat 64 s.time
  else if sel = 0x041 then w.g.t.tpc
  else w.g.t.taddr

/-- SRD (23 R431, R432). -/
def execSrd (f : SrdF) (s : State) := onSite s fun w =>
  let sel := f.sel.toNat
  let d := f.d.toNat
  let r :=
    if selWide sel then
      (if f.uni then w.g.r.wrS64 d (w.special64 s sel)
       else w.g.r.wrLanes64 d (w.lanes f.g) fun _ => w.special64 s sel)
    else if f.uni then w.g.r.wrS d (w.special s sel 0)
    else w.g.r.wrLanes d (w.lanes f.g) (w.special s sel)
  w.commitCtl s (r.advance w.slot)

/-- The trap registers after a write in a handler (23 R436): TSTAT and reserved fields keep their values. -/
def TrapRegs.write (t : TrapRegs) (sel : Nat) (x : W32) (x64 : W64) : TrapRegs :=
  if sel = 0x041 then { t with tpc := x64 }
  else if sel = 0x042 then { t with tcause := x }
  else if sel = 0x043 then { t with taddr := x64 }
  else if sel = 0x044 then { t with tinfo := x &&& 0xFF03FF3F }
  else t

/-- A selector of a trap register. -/
def selTrap (sel : Nat) : Bool := 0x040 ≤ sel && sel ≤ 0x044

/-- SWR (23 R436). -/
def execSwr (f : SwrF) (s : State) := onSite s fun w =>
  let sel := f.sel.toNat
  let x := w.g.r.rdS f.a.toNat
  let x64 := w.g.r.rdS64 f.a.toNat
  let next := w.nextPc
  if sel = 0x020 then
    if fpmOk x then w.commitCtl s { next with fpm := x } else w.fault s .illegal 0
  else if sel = 0x021 then
    if ltileOk x.toNat then w.commitCtl s { next with ltile := x } else w.fault s .illegal 0
  else if sel = 0x050 then w.commitCtl s { next with gstat := w.g.r.gstat &&& ~~~(x &&& 3) }
  else if selTrap sel && w.g.t.inh && !(sel = 0x041 && x64 &&& 7 != 0) then
    w.upd (w.commitCtl s next) fun g => { g with t := g.t.write sel x x64 }
  else w.fault s .illegal 0

/-! ### Traps -/

/-- TRAP (23 R437): the word commits, and the slot enters the handler (14 R254). -/
def execTrapw (f : TrapF) (s : State) := onSite s fun w =>
  let s1 := w.commitCtl s w.nextPc
  if w.active f.g = 0 then s1 else w.trap s s1 ⟨.trapSw, w.pc, f.imm, w.pc + 8, 0, 0⟩

/-- BKPT (20 R329): the word has no effect, and the slot enters the handler (14 R254). -/
def execBkpt (f : TrapF) (s : State) := onSite s fun w =>
  if w.active f.g = 0 then w.commitCtl s w.nextPc else w.trap s s ⟨.bkpt, w.pc, f.imm, w.pc, 0, 0⟩

/-- TRET (23 R438, 14 R257). -/
def execTret (s : State) := onSite s fun w =>
  if w.tretOk then w.upd s fun g => (g.count w.slot true w.skid).leaveHandler w.slot
  else w.fault s .illegal 0

/-- YIELD (23 R446, 02 R39). -/
def execYieldw (s : State) := onSite s fun w =>
  if w.g.t.inh || (w.g.r.slot (!w.slot)).live then w.commitCtl s w.nextPc
  else w.commitCtl s { w.nextPc with yieldDepth := w.g.r.join.length }

end Sys2Proof.Machine
end

