-- ==== Sys2Proof/Machine/Dispatch.lean ====
section
/-! DEFINITION. The one dispatch: an arm for each instruction, each a direct call of its meaning. -/

namespace Sys2Proof.Machine

def exec (i : Instr) (s : State) : Host.Outcome State Fault Refusal :=
  match i with
  | .and f => Sys2Proof.Machine.execAnd f s
  | .andi f => Sys2Proof.Machine.execAndi f s
  | .bfi f => Sys2Proof.Machine.execBfi f s
  | .bfx f => Sys2Proof.Machine.execBfx f s
  | .brev f => Sys2Proof.Machine.execBrev f s
  | .clz f => Sys2Proof.Machine.execClz f s
  | .iabs f => Sys2Proof.Machine.execIabs f s
  | .iadd f => Sys2Proof.Machine.execIadd f s
  | .iaddi f => Sys2Proof.Machine.execIaddi f s
  | .imad f => Sys2Proof.Machine.execImad f s
  | .imax f => Sys2Proof.Machine.execImax f s
  | .imin f => Sys2Proof.Machine.execImin f s
  | .imul f => Sys2Proof.Machine.execImul f s
  | .imulh f => Sys2Proof.Machine.execImulh f s
  | .ineg f => Sys2Proof.Machine.execIneg f s
  | .isetp f => Sys2Proof.Machine.execIsetp f s
  | .isub f => Sys2Proof.Machine.execIsub f s
  | .lea f => Sys2Proof.Machine.execLea f s
  | .mov f => Sys2Proof.Machine.execMov f s
  | .movi f => Sys2Proof.Machine.execMovi f s
  | .not f => Sys2Proof.Machine.execNot f s
  | .or f => Sys2Proof.Machine.execOr f s
  | .ori f => Sys2Proof.Machine.execOri f s
  | .plop f => Sys2Proof.Machine.execPlop f s
  | .popc f => Sys2Proof.Machine.execPopc f s
  | .rot f => Sys2Proof.Machine.execRot f s
  | .sar f => Sys2Proof.Machine.execSar f s
  | .sel f => Sys2Proof.Machine.execSel f s
  | .shl f => Sys2Proof.Machine.execShl f s
  | .shr f => Sys2Proof.Machine.execShr f s
  | .xor f => Sys2Proof.Machine.execXor f s
  | .xori f => Sys2Proof.Machine.execXori f s
  | .fabs f => Sys2Proof.Machine.execFabs f s
  | .fadd f => Sys2Proof.Machine.execFadd f s
  | .fclass f => Sys2Proof.Machine.execFclass f s
  | .fcos f => Sys2Proof.Machine.execFcos f s
  | .fdiv f => Sys2Proof.Machine.execFdiv f s
  | .fdot2 f => Sys2Proof.Machine.execFdot2 f s
  | .fexp2 f => Sys2Proof.Machine.execFexp2 f s
  | .ffma f => Sys2Proof.Machine.execFfma f s
  | .flog2 f => Sys2Proof.Machine.execFlog2 f s
  | .fmax f => Sys2Proof.Machine.execFmax f s
  | .fmin f => Sys2Proof.Machine.execFmin f s
  | .fmul f => Sys2Proof.Machine.execFmul f s
  | .fneg f => Sys2Proof.Machine.execFneg f s
  | .frcp f => Sys2Proof.Machine.execFrcp f s
  | .frnd f => Sys2Proof.Machine.execFrnd f s
  | .frsq f => Sys2Proof.Machine.execFrsq f s
  | .fsetp f => Sys2Proof.Machine.execFsetp f s
  | .fsin f => Sys2Proof.Machine.execFsin f s
  | .fsqrt f => Sys2Proof.Machine.execFsqrt f s
  | .fsub f => Sys2Proof.Machine.execFsub f s
  | .ftanh f => Sys2Proof.Machine.execFtanh f s
  | .hfma2 f => Sys2Proof.Machine.execHfma2 f s
  | .amaxrd f => Sys2Proof.Machine.execAmaxrd f s
  | .cvt f => Sys2Proof.Machine.execCvt f s
  | .cvtd f => Sys2Proof.Machine.execCvtd f s
  | .cvtq f => Sys2Proof.Machine.execCvtq f s
  | .fmode f => Sys2Proof.Machine.execFmode f s
  | .pack f => Sys2Proof.Machine.execPack f s
  | .seed f => Sys2Proof.Machine.execSeed f s
  | .unpk f => Sys2Proof.Machine.execUnpk f s
  | .bcast f => Sys2Proof.Machine.execBcast f s
  | .ltile f => Sys2Proof.Machine.execLtile f s
  | .redux f => Sys2Proof.Machine.execRedux f s
  | .scan f => Sys2Proof.Machine.execScan f s
  | .shfl f => Sys2Proof.Machine.execShfl f s
  | .vote f => Sys2Proof.Machine.execVote f s
  | .xrecv f => Sys2Proof.Machine.execXrecv f s
  | .xsend f => Sys2Proof.Machine.execXsend f s
  | .bra f => Sys2Proof.Machine.execBra f s
  | .brau f => Sys2Proof.Machine.execBrau f s
  | .call f => Sys2Proof.Machine.execCall f s
  | .endw => Sys2Proof.Machine.execEndw s
  | .exitw f => Sys2Proof.Machine.execExitw f s
  | .itemq f => Sys2Proof.Machine.execItemq f s
  | .joinw => Sys2Proof.Machine.execJoinw s
  | .looph f => Sys2Proof.Machine.execLooph f s
  | .mjoin f => Sys2Proof.Machine.execMjoin f s
  | .nop f => Sys2Proof.Machine.execNop f s
  | .rep f => Sys2Proof.Machine.execRep f s
  | .ret => Sys2Proof.Machine.execRet s
  | .atom f => Sys2Proof.Machine.execAtom f s
  | .atoms f => Sys2Proof.Machine.execAtoms f s
  | .cctl f => Sys2Proof.Machine.execCctl f s
  | .ld f => Sys2Proof.Machine.execLd f s
  | .lds f => Sys2Proof.Machine.execLds f s
  | .ldu f => Sys2Proof.Machine.execLdu f s
  | .mwait f => Sys2Proof.Machine.execMwait f s
  | .pref f => Sys2Proof.Machine.execPref f s
  | .st f => Sys2Proof.Machine.execSt f s
  | .sts f => Sys2Proof.Machine.execSts f s
  | .bar => Sys2Proof.Machine.execBar s
  | .barv f => Sys2Proof.Machine.execBarv f s
  | .binit f => Sys2Proof.Machine.execBinit f s
  | .binv f => Sys2Proof.Machine.execBinv f s
  | .bwait f => Sys2Proof.Machine.execBwait f s
  | .cbar => Sys2Proof.Machine.execCbar s
  | .fence f => Sys2Proof.Machine.execFence f s
  | .nbar => Sys2Proof.Machine.execNbar s
  | .sigop f => Sys2Proof.Machine.execSigop f s
  | .xfence f => Sys2Proof.Machine.execXfence f s
  | .nbnd f => Sys2Proof.Machine.execNbnd f s
  | .nlaunch f => Sys2Proof.Machine.execNlaunch f s
  | .nqry f => Sys2Proof.Machine.execNqry f s
  | .mxDist f => Sys2Proof.Machine.execMxDist f s
  | .mxDrain f => Sys2Proof.Machine.execMxDrain f s
  | .mxRalloc f => Sys2Proof.Machine.execMxRalloc f s
  | .mxRevoke f => Sys2Proof.Machine.execMxRevoke f s
  | .mxRload f => Sys2Proof.Machine.execMxRload f s
  | .mxRpin f => Sys2Proof.Machine.execMxRpin f s
  | .mxRqry f => Sys2Proof.Machine.execMxRqry f s
  | .mxRun f => Sys2Proof.Machine.execMxRun f s
  | .mxTopk f => Sys2Proof.Machine.execMxTopk f s
  | .mxZero f => Sys2Proof.Machine.execMxZero f s
  | .fork f => Sys2Proof.Machine.execFork f s
  | .rdv f => Sys2Proof.Machine.execRdv f s
  | .a2av f => Sys2Proof.Machine.execA2av f s
  | .aredc f => Sys2Proof.Machine.execAredc f s
  | .esort f => Sys2Proof.Machine.execEsort f s
  | .gather f => Sys2Proof.Machine.execGather f s
  | .scatter f => Sys2Proof.Machine.execScatter f s
  | .bkpt f => Sys2Proof.Machine.execBkpt f s
  | .srd f => Sys2Proof.Machine.execSrd f s
  | .swr f => Sys2Proof.Machine.execSwr f s
  | .trapw f => Sys2Proof.Machine.execTrapw f s
  | .tret => Sys2Proof.Machine.execTret s
  | .yieldw => Sys2Proof.Machine.execYieldw s
  | .halfIadd f => Sys2Proof.Machine.execHalfIadd f s
  | .halfIsub f => Sys2Proof.Machine.execHalfIsub f s
  | .halfAnd f => Sys2Proof.Machine.execHalfAnd f s
  | .halfOr f => Sys2Proof.Machine.execHalfOr f s
  | .halfXor f => Sys2Proof.Machine.execHalfXor f s
  | .halfShl f => Sys2Proof.Machine.execHalfShl f s
  | .halfShr f => Sys2Proof.Machine.execHalfShr f s
  | .halfSar f => Sys2Proof.Machine.execHalfSar f s
  | .halfImin f => Sys2Proof.Machine.execHalfImin f s
  | .halfImax f => Sys2Proof.Machine.execHalfImax f s
  | .halfMov f => Sys2Proof.Machine.execHalfMov f s
  | .halfImul f => Sys2Proof.Machine.execHalfImul f s
  | .halfFadd f => Sys2Proof.Machine.execHalfFadd f s
  | .halfFsub f => Sys2Proof.Machine.execHalfFsub f s
  | .halfFmul f => Sys2Proof.Machine.execHalfFmul f s
  | .halfFmin f => Sys2Proof.Machine.execHalfFmin f s
  | .halfFmax f => Sys2Proof.Machine.execHalfFmax f s
  | .slAdd f => Sys2Proof.Machine.execSlAdd f s
  | .slArrive f => Sys2Proof.Machine.execSlArrive f s
  | .slBmexp f => Sys2Proof.Machine.execSlBmexp f s
  | .slBr f => Sys2Proof.Machine.execSlBr f s
  | .slCbload f => Sys2Proof.Machine.execSlCbload f s
  | .slCmp f => Sys2Proof.Machine.execSlCmp f s
  | .slEnd f => Sys2Proof.Machine.execSlEnd f s
  | .slIdx f => Sys2Proof.Machine.execSlIdx f s
  | .slLoop f => Sys2Proof.Machine.execSlLoop f s
  | .slMad f => Sys2Proof.Machine.execSlMad f s
  | .slMov f => Sys2Proof.Machine.execSlMov f s
  | .slSegnext f => Sys2Proof.Machine.execSlSegnext f s
  | .slSetd f => Sys2Proof.Machine.execSlSetd f s
  | .slSignal f => Sys2Proof.Machine.execSlSignal f s
  | .slStamp f => Sys2Proof.Machine.execSlStamp f s
  | .slWait f => Sys2Proof.Machine.execSlWait f s
  | .slXfer f => Sys2Proof.Machine.execSlXfer f s
  | .longLatencyResult team grp id => Sys2Proof.Machine.execLongLatencyResult team grp id s
  | .rejectedReissue team grp slot => Sys2Proof.Machine.execRejectedReissue team grp slot s
  | .requestAged team grp slot => Sys2Proof.Machine.execRequestAged team grp slot s
  | .presenceBitSet team line => Sys2Proof.Machine.execPresenceBitSet team line s
  | .pageWalk core ctx page => Sys2Proof.Machine.execPageWalk core ctx page s
  | .barrierComplete team => Sys2Proof.Machine.execBarrierComplete team s
  | .rendezvousServe team slotNo => Sys2Proof.Machine.execRendezvousServe team slotNo s
  | .itemqPushServed team => Sys2Proof.Machine.execItemqPushServed team s
  | .mwaitWake team grp slot => Sys2Proof.Machine.execMwaitWake team grp slot s
  | .mwaitTimeout team grp slot => Sys2Proof.Machine.execMwaitTimeout team grp slot s
  | .mwaitHostPoll team grp slot => Sys2Proof.Machine.execMwaitHostPoll team grp slot s
  | .holderPromotion line => Sys2Proof.Machine.execHolderPromotion line s
  | .specWindowCommit team grp => Sys2Proof.Machine.execSpecWindowCommit team grp s
  | .ingressDrain basin slice path => Sys2Proof.Machine.execIngressDrain basin slice path s
  | .collapseEvent ctx page => Sys2Proof.Machine.execCollapseEvent ctx page s
  | .collapseRelease ctx page => Sys2Proof.Machine.execCollapseRelease ctx page s
  | .replicaPlacement ctx page pool => Sys2Proof.Machine.execReplicaPlacement ctx page pool s
  | .teamStart core => Sys2Proof.Machine.execTeamStart core s
  | .clusterStart core => Sys2Proof.Machine.execClusterStart core s
  | .clusterReservation basin part sub => Sys2Proof.Machine.execClusterReservation basin part sub s
  | .reservationAged pg => Sys2Proof.Machine.execReservationAged pg s
  | .pointRelease nest => Sys2Proof.Machine.execPointRelease nest s
  | .pointRetire team => Sys2Proof.Machine.execPointRetire team s
  | .boundProposalApply nest => Sys2Proof.Machine.execBoundProposalApply nest s
  | .nestLaunchDeferred q => Sys2Proof.Machine.execNestLaunchDeferred q s
  | .persistentStart nest => Sys2Proof.Machine.execPersistentStart nest s
  | .gangCommit gang => Sys2Proof.Machine.execGangCommit gang s
  | .gangTimeout gang => Sys2Proof.Machine.execGangTimeout gang s
  | .arrayEntryStart core => Sys2Proof.Machine.execArrayEntryStart core s
  | .residencyFirstUse core => Sys2Proof.Machine.execResidencyFirstUse core s
  | .arrayOpComplete core => Sys2Proof.Machine.execArrayOpComplete core s
  | .instanceDiscard core ctx handle => Sys2Proof.Machine.execInstanceDiscard core ctx handle s
  | .transferPerform core sctx => Sys2Proof.Machine.execTransferPerform core sctx s
  | .sluiceContextEnded core sctx => Sys2Proof.Machine.execSluiceContextEnded core sctx s
  | .engineComplete id => Sys2Proof.Machine.execEngineComplete id s
  | .gatherCountReturn id => Sys2Proof.Machine.execGatherCountReturn id s
  | .engineLateFault id => Sys2Proof.Machine.execEngineLateFault id s
  | .collectiveMessage vd comm rank seq cmd data => Sys2Proof.Machine.execCollectiveMessage vd comm rank seq cmd data s
  | .collectiveTimeout id => Sys2Proof.Machine.execCollectiveTimeout id s
  | .linkPathFailure vd comm rank => Sys2Proof.Machine.execLinkPathFailure vd comm rank s
  | .linkRetry link => Sys2Proof.Machine.execLinkRetry link s
  | .trapEntry team grp slot => Sys2Proof.Machine.execTrapEntry team grp slot s
  | .teamHalt team => Sys2Proof.Machine.execTeamHalt team s
  | .nestAbort nest => Sys2Proof.Machine.execNestAbort nest s
  | .deferredReleaseWb core line => Sys2Proof.Machine.execDeferredReleaseWb core line s
  | .eccError nest grp pc addr => Sys2Proof.Machine.execEccError nest grp pc addr s
  | .stopRequest core ctx => Sys2Proof.Machine.execStopRequest core ctx s
  | .groupStop team grp => Sys2Proof.Machine.execGroupStop team grp s
  | .forcedSave team grp => Sys2Proof.Machine.execForcedSave team grp s
  | .contextSave core => Sys2Proof.Machine.execContextSave core s
  | .drainEnd core => Sys2Proof.Machine.execDrainEnd core s
  | .contextResume team core => Sys2Proof.Machine.execContextResume team core s
  | .sliceStart part => Sys2Proof.Machine.execSliceStart part s
  | .weight0Preempt part => Sys2Proof.Machine.execWeight0Preempt part s
  | .fountainheadStep fh => Sys2Proof.Machine.execFountainheadStep fh s
  | .packetComplete q slotNo => Sys2Proof.Machine.execPacketComplete q slotNo s
  | .sluicePacketFault core sctx => Sys2Proof.Machine.execSluicePacketFault core sctx s
  | .doorbellWrite at_ value => Sys2Proof.Machine.execDoorbellWrite at_ value s
  | .widxReconcile q => Sys2Proof.Machine.execWidxReconcile q s
  | .queueEnable q ctx vd => Sys2Proof.Machine.execQueueEnable q ctx vd s
  | .queueDisable ctl => Sys2Proof.Machine.execQueueDisable ctl s
  | .regionEntryWrite basin entry reg value => Sys2Proof.Machine.execRegionEntryWrite basin entry reg value s
  | .regionCommit basin value => Sys2Proof.Machine.execRegionCommit basin value s
  | .regionDrainEnd basin => Sys2Proof.Machine.execRegionDrainEnd basin s
  | .shootdownStart ch base ctl => Sys2Proof.Machine.execShootdownStart ch base ctl s
  | .shootdownComplete ch => Sys2Proof.Machine.execShootdownComplete ch s
  | .ctxCreate ctx => Sys2Proof.Machine.execCtxCreate ctx s
  | .ctxDestroy ctx => Sys2Proof.Machine.execCtxDestroy ctx s
  | .ctxDestroyComplete ctx => Sys2Proof.Machine.execCtxDestroyComplete ctx s
  | .portWrite port value => Sys2Proof.Machine.execPortWrite port value s
  | .vdCfgWrite vd value => Sys2Proof.Machine.execVdCfgWrite vd value s
  | .vdPolicyWrite vd value => Sys2Proof.Machine.execVdPolicyWrite vd value s
  | .tenWaysWrite ten basin value => Sys2Proof.Machine.execTenWaysWrite ten basin value s
  | .registerWrite reg value => Sys2Proof.Machine.execRegisterWrite reg value s
  | .hostWrite addr data => Sys2Proof.Machine.execHostWrite addr data s
  | .hostRead x n hold => Sys2Proof.Machine.execHostRead x n hold s
  | .hostAtomicRequest op addr n a b => Sys2Proof.Machine.execHostAtomicRequest op addr n a b s
  | .hostAtomicCompletion team grp slot ok => Sys2Proof.Machine.execHostAtomicCompletion team grp slot ok s
  | .unsupportedHostRequest addr => Sys2Proof.Machine.execUnsupportedHostRequest addr s
  | .atsInvalidation page => Sys2Proof.Machine.execAtsInvalidation page s
  | .backInvalidationResponse line => Sys2Proof.Machine.execBackInvalidationResponse line s
  | .sensorSample rails temps => Sys2Proof.Machine.execSensorSample rails temps s
  | .firmwareUpdate version sigOk => Sys2Proof.Machine.execFirmwareUpdate version sigOk s
  | .deviceReset => Sys2Proof.Machine.execDeviceReset s
  | .attestationSign nonce => Sys2Proof.Machine.execAttestationSign nonce s
  | .keyWrite key value => Sys2Proof.Machine.execKeyWrite key value s
  | .sluiceIndexLoadData core sctx => Sys2Proof.Machine.execSluiceIndexLoadData core sctx s
  | .powerLoss => Sys2Proof.Machine.execPowerLoss s

end Sys2Proof.Machine
end

