-- ==== Sys2Proof/Machine/Step.lean ====
section
/-! DEFINITION. One step: a slot or a Sluice context issues its word, or the device does one of its own steps. -/

namespace Sys2Proof.Machine

/-- One step of the machine (log entry 2). -/
def step (s : State) : Host.Outcome State Fault Refusal :=
  match s.action with
  | .issue who =>
    match s.turn.prepare who with
    | .hold s' => .next s'
    | .run i s' => exec i s'
  | .event i =>
    if !i.isEvent then .next s.turn
    else if s.unexposed i then .next (s.turn.answer .unsupported)
    else exec i { s.turn with cur := none }
  | .evictL1 core k => .next (s.turn.evictL1 core k)
  | .evictTlb core i => .next (s.turn.evictTlb core i)

/-- The state with an instruction stored where step fetches its next one (log entry 3). -/
def State.withFetchWord (s : State) (nbits w : Nat) : State := s.place (BitVec.ofNat 64 (w % 2 ^ nbits))

end Sys2Proof.Machine
end

