-- ==== Sys2Proof/Safety.lean ====
section
/-! DEFINITION. What counts as a safe step and a safe state, and the terms in which the statements say what a word does: which
group it changes, which registers it writes, and what it leaves alone. -/

namespace Sys2Proof

open Machine

/-- A step that goes on: neither a stop nor a refusal. -/
def StepsOn (s : State) : Prop := ∃ t, step s = .next t

/-- The state that every step keeps: memory in its canonical form. -/
def MemoryCanonical (s : State) : Prop := s.m.mem.wf = true

/-- A step of the device, or a word, has an effect: it answers the state `t`. -/
def Gives (i : Instr) (s t : State) : Prop := exec i s = .next t

/-- Two states differ at most in one group of one team, and there the second has the group `g`: every other team and group,
every table of the package, the caches and every byte of memory are as they were. -/
structure OnlyGroup (s t : State) (team grp : Nat) (tm : Team) (g : Group) : Prop where
  rest : t = { s with teams := t.teams }
  others : ∀ k, k ≠ team → t.teams.find? k = s.teams.find? k
  here : t.teams.find? team = some { tm with groups := listUpd (fun _ => g) grp tm.groups }
  memory : ∀ key pa, t.homeByte key pa = s.homeByte key pa

/-- A word of a site has run and left the registers `r`: its slot has moved on, what counts words has counted it, and
nothing but its group has changed. -/
def Committed (w : Site) (s t : State) (r : GroupRegs) : Prop :=
  OnlyGroup s t w.team w.grp w.tm { w.g.count w.slot false w.skid with r := r.advance w.slot }

/-- A control or system word has run and left the registers `r`, its own PC among them; it closes the windows of its slot. -/
def CommittedCtl (w : Site) (s t : State) (r : GroupRegs) : Prop :=
  OnlyGroup s t w.team w.grp w.tm { w.g.count w.slot true w.skid with r := r }

/-- A long-latency word has issued: its result is outstanding with the register writes that it will make, and its slot has
moved on. No register is written yet. -/
def PostedGroup (w : Site) (la : BitVec 4) (i : Instr) (kind : PendKind) (writes : List RegWrite) (entries : Nat) : Group :=
  { w.g.count w.slot false w.skid with
    pend := (w.g.count w.slot false w.skid).pend ++
      [⟨w.g.nextId, w.slot, none, false, i.operands.filter (·.dest), kind, writes, la.toNat, entries⟩]
    nextId := w.g.nextId + 1
    r := w.g.r.advance w.slot }

/-- A long-latency word has issued, and nothing but its group has changed. -/
def Posted (w : Site) (s t : State) (la : BitVec 4) (i : Instr) (kind : PendKind) (writes : List RegWrite)
    (entries : Nat) : Prop :=
  OnlyGroup s t w.team w.grp w.tm (PostedGroup w la i kind writes entries)

/-- Registers after a word with a destination `d`: one register, or the pair from `d` when `wide`. The vector form writes the
lanes of a mask, the uniform form the s register; every other register, predicate, slot and special register is as it was. -/
structure DestIs (old new : GroupRegs) (uni wide : Bool) (d : Nat) (mask : W32) (val : Nat → W64) : Prop where
  v : ∀ n L, L < 32 → new.rdV n L =
    if uni = false ∧ mask.getLsbD L = true ∧ n = d then lo32 (val L)
    else if uni = false ∧ wide = true ∧ mask.getLsbD L = true ∧ n = d + 1 then hi32 (val L)
    else old.rdV n L
  s : ∀ n, new.rdS n =
    if uni = true ∧ n = d then lo32 (val 0)
    else if uni = true ∧ wide = true ∧ n = d + 1 then hi32 (val 0)
    else old.rdS n
  rest : new = { old with v := new.v, s := new.s }

/-- Registers after a word that writes predicate `p` in the lanes of a mask; p7 is constant, so nothing is written there. -/
structure PredIs (old new : GroupRegs) (p : Nat) (mask : W32) (val : Nat → Bool) : Prop where
  p : ∀ n L, L < 32 → (new.rdP n).getLsbD L =
    if n = p ∧ n ≠ 7 ∧ mask.getLsbD L = true then val L else (old.rdP n).getLsbD L
  rest : new = { old with p := new.p }

/-- A word answers a next state in which its destination holds the values given, and nothing else has changed. -/
def WritesReg (i : Instr) (s : State) (w : Site) (g : Guard) (uni wide : Bool) (d : BitVec 8) (val : Nat → W64) : Prop :=
  ∃ t r, Gives i s t ∧ Committed w s t r ∧ DestIs w.g.r r uni wide d.toNat (w.active g) val

/-- The same for a destination of 32 bits. -/
def Writes32 (i : Instr) (s : State) (w : Site) (g : Guard) (uni : Bool) (d : BitVec 8) (val : Nat → W32) : Prop :=
  WritesReg i s w g uni false d fun L => (val L).setWidth 64

/-- A word answers a next state in which its predicate holds the values given in its active lanes, and nothing else has
changed. -/
def WritesPred (i : Instr) (s : State) (w : Site) (g : Guard) (p : BitVec 3) (val : Nat → Bool) : Prop :=
  ∃ t r, Gives i s t ∧ Committed w s t r ∧ PredIs w.g.r r p.toNat (w.active g) val

/-- No NaN trap is due at a site: NANTRAP is 0, NAN_SEEN is set already, or the word runs in a handler (05 R123, 14 R255). -/
def NoNanTrap (w : Site) : Prop :=
  w.g.r.fpm.getLsbD 7 = false ∨ w.g.r.gstat.getLsbD 1 = true ∨ w.g.t.inh = true

/-- GSTAT after a word: NAN_SEEN is set when a NaN is reported, and every other bit is as it was. -/
def gstatAfter (w : Site) (nan : Bool) : W32 := if nan then w.g.r.gstat ||| 2 else w.g.r.gstat

/-- A rounding word answers a next state: D holds the results, NAN_SEEN follows 05 R122, the LFSRs of the lanes that computed
have moved on by `draws` steps under SR, and nothing else has changed. -/
def WritesFloat (i : Instr) (s : State) (w : Site) (g : Guard) (uni : Bool) (d : BitVec 8) (sr : Bool) (draws : Nat)
    (res : Nat → FRes) : Prop :=
  ∃ t r, Gives i s t ∧ Committed w s t r ∧
    DestIs { w.g.r with gstat := r.gstat, lfsr := r.lfsr } r uni false d.toNat (w.active g)
      (fun L => (BitVec.ofNat 32 (res L).bits).setWidth 64) ∧
    r.gstat = gstatAfter w ((w.doing g uni).any fun L => (res L).nanOut || (res L).nanIn) ∧
    ∀ L, r.draw L = if sr && (w.doing g uni).contains L then lfsrSteps draws (w.g.r.draw L) else w.g.r.draw L

/-- A long-latency float word answers a next state: its results are outstanding, NAN_SEEN follows 05 R122, the LFSRs of its
active lanes have moved on by one step under SR, and nothing else has changed. -/
def PostsFloat (i : Instr) (s : State) (w : Site) (la : BitVec 4) (g : Guard) (d : BitVec 8) (sr : Bool)
    (res : Nat → FRes) : Prop :=
  ∃ t x, Gives i s t ∧ OnlyGroup s t w.team w.grp w.tm x ∧
    (let y := PostedGroup w la i .value ((w.lanes g).map fun L => .v d.toNat L (BitVec.ofNat 32 (res L).bits)) 0
     x = { y with r := { y.r with gstat := x.r.gstat, lfsr := x.r.lfsr } }) ∧
    x.r.gstat = gstatAfter w ((w.lanes g).any fun L => (res L).nanOut) ∧
    ∀ L, x.r.draw L = if sr && (w.lanes g).contains L then lfsrStep (w.g.r.draw L) else w.g.r.draw L

/-- An operand of a 64-bit type: the pair of a field. -/
def valPair (w : Site) (uni : Bool) (n : BitVec 8) (L : Nat) : W64 := w.g.r.rd64 uni n.toNat L

/-- A word takes the fault `c` with an address: its nest holds a fault record, its team halts, its group, which the halt of its team
has not reached before, issues nothing further at the word, and no register, memory or other team has changed. -/
structure Faulted (w : Site) (s t : State) (c : Cause) (addr : W64) : Prop where
  rest : t = { s with teams := t.teams, nests := t.nests }
  others : ∀ k, k ≠ w.team → t.teams.find? k = s.teams.find? k
  halts : ∃ g, t.teams.find? w.team = some { w.tm with phase := .halting, groups := g } ∧
    g[w.grp]? = some (if w.g.st.reached then w.g
      else { w.g with st := { w.g.st with faulted := true, reached := true, haltedAt := some w.pc } })
  recorded : t.nests = s.nests.upd w.tm.nest fun x =>
    match x.fault with
    | none => { x with fault := some (w.faultInfo s c w.pc addr 0), phase := .faulted }
    | some _ => { x with multi := true }

/-- A group has entered the handler of its context (14 R254, R255): the trap registers say where and why, the slot goes on at the
handler with REPC 0, and no other register and not the other slot has changed. `repc` is the hidden copy. -/
structure Entered (w : Site) (g : Group) (req : TrapReq) (repc : W32) (handler : W64) : Prop where
  inh : g.t.inh = true
  slot : g.t.slot = w.slot
  held : g.t.held = (w.g.r.slot (!w.slot)).live
  hidden : g.t.hidden = repc
  depth : g.t.depth = w.g.r.join.length
  tpc : g.t.tpc = req.tpc
  tcause : g.t.tcause = (req.arg.setWidth 32 <<< 8) ||| BitVec.ofNat 32 req.cause.code
  taddr : g.t.taddr = req.addr
  tinfo : g.t.tinfo = req.info
  pc : g.r.slot w.slot = ⟨handler, w.mask, 0⟩
  other : g.r.slot (!w.slot) = w.g.r.slot (!w.slot)
  regs : g.r = { w.g.r with s0 := g.r.s0, s1 := g.r.s1 }

/-- The trap of a word that produces its first NaN is due and enters the handler at once: NANTRAP is 1, NAN_SEEN is clear, the word
runs neither in a handler nor in a speculative window nor as a skid word, no result is outstanding, no trap of S0 waits before one of S1, and the handler of
the context can be fetched (05 R123, 14 R254). -/
structure NanTrapDue (s : State) (w : Site) : Prop where
  trap : w.g.r.fpm.getLsbD 7 = true
  first : w.g.r.gstat.getLsbD 1 = false
  outside : w.g.t.inh = false
  free : w.blocked = false
  done : w.g.pend = []
  turn : w.slot = true → w.g.t.pend0 = none
  handler : (s.ctx w.ctx).handler ≠ 0
  fetched : s.fetchError w.core w.ctx (s.ctx w.ctx).handler = none

/-- A word that leaves the registers `r` has committed, NAN_SEEN is set, and the group has entered the handler with TPC at what comes
after the word and TCAUSE 0x22; nothing else has changed but the group. -/
def NanEntered (s t : State) (w : Site) (r : GroupRegs) : Prop :=
  OnlyGroup s t w.team w.grp w.tm
    { w.g.count w.slot false false with
      r := ({ r with gstat := w.g.r.gstat ||| 2 } : GroupRegs).setSlot w.slot ⟨(s.ctx w.ctx).handler, w.mask, 0⟩
      t := { w.g.t with
        inh := true
        slot := w.slot
        held := (w.g.r.slot (!w.slot)).live
        hidden := w.ps.advance.repc
        depth := w.g.r.join.length
        tpc := w.ps.advance.pc
        tcause := 0x22
        taddr := 0
        tinfo := 0
        pend0 := if w.slot then w.g.t.pend0 else none
        pend1 := if w.slot then none else w.g.t.pend1 } }

/-- A rounding word commits and traps: D holds the results, the LFSRs have moved on as `WritesFloat` says, and the slot is in the
handler. -/
def TrapsFloat (i : Instr) (s : State) (w : Site) (g : Guard) (uni : Bool) (d : BitVec 8) (sr : Bool) (draws : Nat)
    (res : Nat → FRes) : Prop :=
  ∃ t r, Gives i s t ∧ NanEntered s t w r ∧
    DestIs { w.g.r with lfsr := r.lfsr } r uni false d.toNat (w.active g)
      (fun L => (BitVec.ofNat 32 (res L).bits).setWidth 64) ∧
    ∀ L, r.draw L = if sr && (w.doing g uni).contains L then lfsrSteps draws (w.g.r.draw L) else w.g.r.draw L

/-- A long-latency float word posts its results, NAN_SEEN is set, and its trap waits until they are written, with TPC at what comes
after the word (05 R123, 14 R254 step 1). -/
def PostsTrap (i : Instr) (s : State) (w : Site) (la : BitVec 4) (g : Guard) (d : BitVec 8) (sr : Bool)
    (res : Nat → FRes) : Prop :=
  ∃ t x, Gives i s t ∧ OnlyGroup s t w.team w.grp w.tm x ∧
    (let y := PostedGroup w la i .value ((w.lanes g).map fun L => .v d.toNat L (BitVec.ofNat 32 (res L).bits)) 0
     let req : TrapReq := ⟨.nan, w.pc, 0, w.ps.advance.pc, 0, 0⟩
     x = { y with
       r := { y.r with gstat := w.g.r.gstat ||| 2, lfsr := x.r.lfsr }
       t := if w.slot then { w.g.t with pend1 := some req } else { w.g.t with pend0 := some req } }) ∧
    ∀ L, x.r.draw L = if sr && (w.lanes g).contains L then lfsrStep (w.g.r.draw L) else w.g.r.draw L

/-! ### Conversion words and pair words -/

/-- Registers after CVTD, but for GSTAT: the value of each active lane's element, and a draw under SR of the slot. -/
def CvtdIs (s : State) (w : Site) (f : CvtdF) (r : GroupRegs) : Prop :=
  let sl := w.fslot s f.slot
  (∀ n L, L < 32 → r.rdV n L = if n = f.d.toNat ∧ (w.active f.g).getLsbD L = true then
      BitVec.ofNat 32 (dequant sl w.mode.ftz (w.g.r.draw L) ((w.val32 f.bu f.b 0).toNat % 256)
        ((w.val32 false f.a L).toNat % 2 ^ fmtWidth sl.fmt)).bits
    else w.g.r.rdV n L) ∧
  r = { w.g.r with v := r.v, gstat := r.gstat, lfsr := r.lfsr } ∧
  ∀ L, r.draw L = if sl.rm == .sr && (w.lanes f.g).contains L then lfsrStep (w.g.r.draw L) else w.g.r.draw L

/-- The values that CVTQ reads: those of the active lanes, and 0 for the others. -/
def cvtqIn (w : Site) (f : CvtqF) (L : Nat) : FVal :=
  if (w.active f.g).getLsbD L then w.mode.rd (w.val32 false f.a L) else .fin false 0 0 false

/-- Registers after CVTQ, but for GSTAT: the block scale in lane 0 of C, the quantised element of each active lane in D, and a draw
under SR of the slot. -/
def CvtqIs (s : State) (w : Site) (f : CvtqF) (r : GroupRegs) : Prop :=
  let sl := w.fslot s f.slot
  let xs := (List.range 32).map (cvtqIn w f)
  let scale := blockScale sl.fmt xs
  (∀ n L, L < 32 → r.rdV n L =
    if n = f.c.toNat ∧ L = 0 then BitVec.ofNat 32 scale
    else if n = f.d.toNat ∧ (w.active f.g).getLsbD L = true then
      (if xs.any FVal.isNan then 0
       else BitVec.ofNat 32 (slotConvert sl w.mode.ftz (w.g.r.draw L) ((cvtqIn w f L).scale (127 - (scale : Int)))).bits)
    else w.g.r.rdV n L) ∧
  r = { w.g.r with v := r.v, gstat := r.gstat, lfsr := r.lfsr } ∧
  ∀ L, r.draw L = if sl.rm == .sr && (w.lanes f.g).contains L then lfsrStep (w.g.r.draw L) else w.g.r.draw L

/-- The two elements of a lane of PACK: each has its own draw. -/
def packRes (s : State) (w : Site) (f : PackF) (L : Nat) : FRes × FRes :=
  (packElem (w.fslot s f.slot) w.mode (w.g.r.draw L) (w.val32 false f.a L),
   packElem (w.fslot s f.slot) w.mode (lfsrStep (w.g.r.draw L)) (w.val32 f.bu f.b L))

/-- Registers after PACK, but for GSTAT: two elements at POS of each active lane's D, its other bits as they were, and two draws under
SR of the slot, but none in E8M0. -/
def PackIs (s : State) (w : Site) (f : PackF) (r : GroupRegs) : Prop :=
  let sl := w.fslot s f.slot
  let n := fmtWidth sl.fmt
  (∀ m L, L < 32 → (m ≠ f.d.toNat ∨ (w.active f.g).getLsbD L = false) → r.rdV m L = w.g.r.rdV m L) ∧
  (∀ L, L < 32 → (w.active f.g).getLsbD L = true →
    (r.rdV f.d.toNat L).toNat / 2 ^ (2 * n * f.pos.toNat) % 2 ^ n = (packRes s w f L).1.bits % 2 ^ n ∧
    (r.rdV f.d.toNat L).toNat / 2 ^ (2 * n * f.pos.toNat + n) % 2 ^ n = (packRes s w f L).2.bits % 2 ^ n ∧
    ∀ i, i < 32 → (i < 2 * n * f.pos.toNat ∨ 2 * n * f.pos.toNat + 2 * n ≤ i) →
      (r.rdV f.d.toNat L).getLsbD i = (w.g.r.rdV f.d.toNat L).getLsbD i) ∧
  r = { w.g.r with v := r.v, gstat := r.gstat, lfsr := r.lfsr } ∧
  ∀ L, r.draw L =
    if sl.rm == .sr && sl.fmt != 12 && (w.lanes f.g).contains L then lfsrSteps 2 (w.g.r.draw L) else w.g.r.draw L

/-- The state in which a conversion through a format slot has folded the magnitudes of what it read into AMAX of a slot with AMAXEN
(05 R117). -/
def foldsAmax (s : State) (w : Site) (slotNo : BitVec 3) (vs : List FVal) : State :=
  if (w.fslot s slotNo).amaxEn && !vs.isEmpty then
    s.amaxNest w.tm.nest slotNo.toNat (some (BitVec.ofNat 32 (amaxOf vs))) (amaxOf vs == fmtF32.infBits false) 0
  else s

/-- The state in which CVTD has counted the bad ternary codes of its active lanes (05 R107). -/
def countsBad (s : State) (w : Site) (f : CvtdF) : State :=
  let sl := w.fslot s f.slot
  let bad := ((w.lanes f.g).filter fun L => (w.val32 false f.a L).toNat % 2 ^ fmtWidth sl.fmt == 2).length
  if sl.fmt = 11 then s.amaxNest w.tm.nest f.slot.toNat none false bad else s

/-- What the active lanes of PACK read. -/
def packIn (w : Site) (f : PackF) : List FVal :=
  (w.lanes f.g).flatMap fun L => [w.mode.rd (w.val32 false f.a L), w.mode.rd (w.val32 f.bu f.b L)]

/-- The results of a pair word in a lane: of its first half, and of its second, whose draw comes after that of the first. -/
def pairOne (w : Site) (op : HOp) (f : PairF) (L : Nat) : FRes :=
  halfOp op w.mode (w.g.r.draw L) (w.g.r.rdV f.h1.d.toNat L) (if f.h1.im then halfImm op f.h1.s else w.g.r.rdV f.h1.s.toNat L)
def pairDrawn (w : Site) (op : HOp) (f : PairF) (L : Nat) : W32 :=
  if op.rounds && w.mode.rm == .sr && (w.active f.h1.g).getLsbD L then lfsrStep (w.g.r.draw L) else w.g.r.draw L
def pairTwo (w : Site) (op : HOp) (f : PairF) (L : Nat) : FRes :=
  halfOp f.op2 w.mode (pairDrawn w op f L) (w.g.r.rdV f.h2.d.toNat L)
    (if f.h2.im then halfImm f.op2 f.h2.s else w.g.r.rdV f.h2.s.toNat L)

/-- Registers after a pair word, but for GSTAT. -/
def PairIs (w : Site) (op : HOp) (f : PairF) (r : GroupRegs) : Prop :=
  (∀ n L, L < 32 → r.rdV n L =
    if n = f.h2.d.toNat ∧ (w.active f.h2.g).getLsbD L = true then BitVec.ofNat 32 (pairTwo w op f L).bits
    else if n = f.h1.d.toNat ∧ (w.active f.h1.g).getLsbD L = true then BitVec.ofNat 32 (pairOne w op f L).bits
    else w.g.r.rdV n L) ∧
  r = { w.g.r with v := r.v, gstat := r.gstat, lfsr := r.lfsr } ∧
  ∀ L, L < 32 → r.draw L =
    if f.op2.rounds && w.mode.rm == .sr && (w.active f.h2.g).getLsbD L then lfsrStep (pairDrawn w op f L)
    else pairDrawn w op f L

/-! ### REDUX and SCAN (22 R401, Table 22-22) -/

/-- Two values combined, and whether that produced a NaN. -/
def redCombine (op : ROp) (ty : Ty) (m : FpMode) (a b : W32) : W32 × Bool :=
  let least := fun (big : Bool) =>
    let x := aluFminmax m big a b
    (if m.ftz && x.bits % 2 ^ 31 < 2 ^ 23 then BitVec.ofNat 32 (x.bits / 2 ^ 31 * 2 ^ 31) else BitVec.ofNat 32 x.bits, x.nanOut)
  match op with
  | .add => (a + b, false)
  | .fadd =>
    let x := fmtF32.round .rne m.ftz 0 ((m.rd a).add false (m.rd b))
    (BitVec.ofNat 32 x.bits, x.nanOut)
  | .min =>
    if ty = .f32 then least false
    else (if ty = .i32 then (if a.slt b then a else b) else (if a.ult b then a else b), false)
  | .max =>
    if ty = .f32 then least true
    else (if ty = .i32 then (if a.slt b then b else a) else (if a.ult b then b else a), false)
  | .and => (a &&& b, false)
  | .or => (a ||| b, false)
  | .xor => (a ^^^ b, false)

/-- Node j of a level of the tree of REDUX over its leaves: absent, or a value and whether a NaN was produced below it. -/
def redNode (op : ROp) (ty : Ty) (m : FpMode) (leaf : Nat → Option (W32 × Bool)) : Nat → Nat → Option (W32 × Bool)
  | 0, j => leaf j
  | n + 1, j =>
    match redNode op ty m leaf n (2 * j), redNode op ty m leaf n (2 * j + 1) with
    | none, y => y
    | x, none => x
    | some (a, p), some (b, q) => some ((redCombine op ty m a b).1, p || q || (redCombine op ty m a b).2)

/-- What SCAN starts from. -/
def scanStart (op : ROp) (ty : Ty) : W32 :=
  match op, ty with
  | .min, .f32 => 0x7F800000
  | .min, .i32 => 0x7FFFFFFF
  | .min, _ | .and, _ => 0xFFFFFFFF
  | .max, .f32 => 0xFF800000
  | .max, .i32 => 0x80000000
  | _, _ => 0

/-- The combination of a list of values in order, and whether the last step produced a NaN; `acc` is what comes before them. -/
def scanFold (op : ROp) (ty : Ty) (m : FpMode) : Option (W32 × Bool) → List W32 → Option (W32 × Bool)
  | acc, [] => acc
  | none, x :: l => scanFold op ty m (some (x, false)) l
  | some (a, _), x :: l => scanFold op ty m (some (redCombine op ty m a x)) l

/-- An input of REDUX or SCAN under DAZ, and a result under FTZ with a NaN made canonical. -/
def redIn (ty : Ty) (m : FpMode) (x : W32) : W32 := if ty = .f32 then BitVec.ofNat 32 (asRead m x) else x
def redOut (ty : Ty) (m : FpMode) (x : W32) : FRes :=
  if ty = .f32 ∧ 0x7F800000 < x.toNat % 2 ^ 31 then ⟨0x7FC00000, true, false⟩
  else if ty = .f32 ∧ m.ftz = true ∧ x.toNat % 2 ^ 31 < 2 ^ 23 then ⟨x.toNat / 2 ^ 31 * 2 ^ 31, false, false⟩
  else ⟨x.toNat, false, false⟩

/-- The result of a lane of REDUX. -/
def reduxRes (w : Site) (f : LaneOp) (L : Nat) : FRes :=
  let leaf := fun j =>
    let i := L / w.width * w.width + j
    if j < w.width ∧ (w.active f.g).getLsbD i = true then some (redIn f.ty w.mode (w.g.r.rdV f.a.toNat i), false) else none
  match redNode f.op f.ty w.mode leaf (Nat.log2 w.width) 0 with
  | some (x, n) => { redOut f.ty w.mode x with nanOut := n || (redOut f.ty w.mode x).nanOut }
  | none => ⟨0, false, false⟩

/-- The result of a lane of SCAN. -/
def scanRes (w : Site) (f : ScanF) (L : Nat) : FRes :=
  let below := (List.range L).filter fun i => i / w.width == L / w.width && (w.active f.g).getLsbD i
  let xs := (below ++ if f.excl then [] else [L]).map fun i => redIn f.ty w.mode (w.g.r.rdV f.a.toNat i)
  match scanFold f.op f.ty w.mode (if f.excl then some (scanStart f.op f.ty, false) else none) xs with
  | some (x, n) => { redOut f.ty w.mode x with nanOut := n || (redOut f.ty w.mode x).nanOut }
  | none => ⟨0, false, false⟩

/-- The words that round in their lanes: guard, uniform form, D, stochastic rounding, draws of a lane, and results (21 R348 to R362,
20 R341, 22 R401, 23 R440). -/
inductive RoundedWord (s : State) (w : Site) : Instr → Guard → Bool → BitVec 8 → Bool → Nat → (Nat → FRes) → Prop where
  | fadd (f : FBin) : RoundedWord s w (.fadd f) f.g f.uni f.d (w.mode.sel f.rm == .sr) 1 fun L =>
      aluFadd w.mode (w.mode.sel f.rm) (w.g.r.draw L) (w.val32 f.uni f.a L) (w.val32 (f.uni || f.bu) f.b L)
  | fsub (f : FBin) : RoundedWord s w (.fsub f) f.g f.uni f.d (w.mode.sel f.rm == .sr) 1 fun L =>
      aluFsub w.mode (w.mode.sel f.rm) (w.g.r.draw L) (w.val32 f.uni f.a L) (w.val32 (f.uni || f.bu) f.b L)
  | fmul (f : FBin) : RoundedWord s w (.fmul f) f.g f.uni f.d (w.mode.sel f.rm == .sr) 1 fun L =>
      aluFmul w.mode (w.mode.sel f.rm) (w.g.r.draw L) (w.val32 f.uni f.a L) (w.val32 (f.uni || f.bu) f.b L)
  | ffma (f : FFmaF) : RoundedWord s w (.ffma f) f.g f.uni f.d (w.mode.sel f.rm == .sr) 1 fun L =>
      aluFfma w.mode (w.mode.sel f.rm) (w.g.r.draw L) (w.val32 f.uni f.a L) (w.val32 (f.uni || f.bu) f.b L) (w.val32 f.uni f.c L)
  | fmin (f : Bin) : RoundedWord s w (.fmin f) f.g f.uni f.d false 0 fun L =>
      aluFminmax w.mode false (w.val32 f.uni f.a L) (w.val32 (f.uni || f.bu) f.b L)
  | fmax (f : Bin) : RoundedWord s w (.fmax f) f.g f.uni f.d false 0 fun L =>
      aluFminmax w.mode true (w.val32 f.uni f.a L) (w.val32 (f.uni || f.bu) f.b L)
  | fdot2 (f : FTri) : RoundedWord s w (.fdot2 f) f.g false f.d (w.mode.sel f.rm == .sr) 1 fun L =>
      aluFdot2 w.mode (w.mode.sel f.rm) (w.g.r.draw L) (w.val32 false f.a L) (w.val32 f.bu f.b L) (w.val32 false f.c L)
  | hfma2 (f : HTri) : RoundedWord s w (.hfma2 f) f.g false f.d (w.mode.sel f.rm == .sr) 2 fun L =>
      aluHfma2 f.f16 w.mode (w.mode.sel f.rm) (w.g.r.draw L) (w.val32 false f.a L) (w.val32 f.bu f.b L) (w.val32 false f.c L)
  | frnd (f : FRndF) : RoundedWord s w (.frnd f) f.g f.uni f.d (w.mode.sel f.rm == .sr) 1 fun L =>
      roundIntegral (w.mode.sel f.rm) (w.g.r.draw L) (w.mode.rd (w.val32 f.uni f.a L))
  | cvt (f : CvtF) : RoundedWord s w (.cvt f) f.g f.uni f.d (w.mode.sel f.rm == .sr) 1 fun L =>
      cvtValue f.dst f.sat (w.mode.sel f.rm) w.mode.ftz (w.g.r.draw L) (f.src.value w.mode.daz (w.val32 f.uni f.a L))
  | unpk (f : UnpkF) (_ : narrowAccepts (w.fslot s f.slot).fmt = true)
      (_ : f.idx.toNat < 32 / fmtWidth (w.fslot s f.slot).fmt) : RoundedWord s w (.unpk f) f.g false f.d false 0 fun L =>
      let n := fmtWidth (w.fslot s f.slot).fmt
      fmtF32.round .rne w.mode.ftz 0 (elemValue (w.fslot s f.slot).fmt w.mode.daz
        ((w.val32 false f.a L).toNat / 2 ^ (n * f.idx.toNat) % 2 ^ n))
  | redux (f : LaneOp) : RoundedWord s w (.redux f) f.g false f.d false 0 (reduxRes w f)
  | scan (f : ScanF) : RoundedWord s w (.scan f) f.g false f.d false 0 (scanRes w f)

/-- The long-latency float words: LA, guard, D, stochastic rounding and results (21 R352 to R354). -/
inductive LongWord (w : Site) : Instr → BitVec 4 → Guard → BitVec 8 → Bool → (Nat → FRes) → Prop where
  | frcp (f : FLongR) : LongWord w (.frcp f) f.la f.g f.d (w.mode.sel f.rm == .sr) fun L =>
      fmtF32.round (w.mode.sel f.rm) w.mode.ftz (w.g.r.draw L) (w.mode.rd (w.val32 false f.a L)).rcp
  | frsq (f : FLongR) : LongWord w (.frsq f) f.la f.g f.d (w.mode.sel f.rm == .sr) fun L =>
      fmtF32.round (w.mode.sel f.rm) w.mode.ftz (w.g.r.draw L) (w.mode.rd (w.val32 false f.a L)).rsq
  | fsqrt (f : FLongR) : LongWord w (.fsqrt f) f.la f.g f.d (w.mode.sel f.rm == .sr) fun L =>
      fmtF32.round (w.mode.sel f.rm) w.mode.ftz (w.g.r.draw L) (w.mode.rd (w.val32 false f.a L)).sqrt
  | fdiv (f : FDivF) : LongWord w (.fdiv f) f.la f.g f.d (w.mode.sel f.rm == .sr) fun L =>
      fmtF32.round (w.mode.sel f.rm) w.mode.ftz (w.g.r.draw L)
        ((w.mode.rd (w.val32 false f.a L)).div (w.mode.rd (w.val32 f.bu f.b L)))
  | fexp2 (f : FLong) : LongWord w (.fexp2 f) f.la f.g f.d false fun L => fexp2 (w.val32 false f.a L) w.mode.daz w.mode.ftz
  | flog2 (f : FLong) : LongWord w (.flog2 f) f.la f.g f.d false fun L => flog2 (w.val32 false f.a L) w.mode.daz w.mode.ftz
  | fsin (f : FLong) : LongWord w (.fsin f) f.la f.g f.d false fun L => fsin (w.val32 false f.a L) w.mode.daz w.mode.ftz
  | fcos (f : FLong) : LongWord w (.fcos f) f.la f.g f.d false fun L => fcos (w.val32 false f.a L) w.mode.daz w.mode.ftz
  | ftanh (f : FLong) : LongWord w (.ftanh f) f.la f.g f.d false fun L => ftanh (w.val32 false f.a L) w.mode.daz w.mode.ftz

/-! ### Matrix words -/

/-- A core after a group has written n bytes of a pad: those among the A rows of a posted operation are unpredictable to it (22
R382). -/
def rowsHit (team a n : Nat) (c : Core) : Core :=
  { c with fifo := c.fifo.map fun e => e.rewrite team a n, pass := c.pass.map fun e => e.rewrite team a n }

/-- A matrix word has posted an operation: its entry ends the FIFO of the core, PEND of its barrier object has grown by one, its
slot has moved on with the registers `r`, and the memory outside scratchpad is as it was (10 R201, R209). -/
def PostsEntry (i : Instr) (s : State) (w : Site) (op : ArrayOp) (bar : Nat) (r : GroupRegs) : Prop :=
  let o := s.object w.team bar
  ∃ t g, Gives i s t ∧ t = { s with cores := t.cores, teams := t.teams } ∧
    (let c := rowsHit w.team bar 8 (s.core w.core)
     t.core w.core = { c with fifo := c.fifo ++
      [⟨w.team, w.grp, w.tm.nest, w.ctx, w.pc, op, bar, w.g.r.fpm.getLsbD 7, none, w.spanOf s op, [], []⟩] }) ∧
    (∀ c, c ≠ w.core → t.core c = rowsHit w.team bar 8 (s.core c)) ∧
    t.padRead w.team bar 8 = natToBytes 8 ({ o with pend := o.pend + 1 } : BarObj).word.toNat ∧
    (∀ k a, k ≠ w.team ∨ a < bar ∨ bar + 8 ≤ a → t.padRead k a 1 = s.padRead k a 1) ∧
    t.group? w.team w.grp = some g ∧ g.r = r.advance w.slot

/-- A word or step has changed one Sluice context of a core to `c`, and nothing else. -/
def ChangesSl (i : Instr) (s : State) (core n : Nat) (c : SlCtx) : Prop :=
  ∃ t, Gives i s t ∧ t = { s with cores := t.cores } ∧ t.core core = (s.core core).setSl n c ∧
    ∀ k, k ≠ core → t.core k = s.core k

/-! ### Engine words -/

/-- Translated pieces that a step may write: none is replicated or collapses, and none lies in the host window. -/
abbrev Writable (s : State) (l : List (Phys × Nat)) : Prop :=
  (∀ x ∈ l, x.1.repl = false ∧ x.1.host = false ∧ ∀ c ∈ s.m.collapses, c.holds x.1.pa = false) ∧
  l.Pairwise fun x y => x.1.pa + x.2 ≤ y.1.pa ∨ y.1.pa + y.2 ≤ x.1.pa

/-- An engine word need not wait for room in the ingress buffers of its path, nor for an aged request (08 R154). -/
abbrev Roomy (s : State) (e : EngineWord) : Prop := s.ingressFull e.kind.path = false ∧ s.agedFirst e.kind.path.code = false

/-- An engine has made the writes of a word: the stamp is what it does next, and no byte has changed at its home yet. -/
def Made (s : State) (id : Nat) (e : EngineWord) (ok : Bool) (amax : W32) (t : State) : Prop :=
  Gives (.engineComplete id) s t ∧ t.engines.find? id = some { e with stage := .written ok, amax := amax } ∧
    ∀ key pa, t.homeByte key pa = s.homeByte key pa

/-- Word k of bytes. -/
def wordAt (b : List Byte) (k : Nat) : W32 := BitVec.ofNat 32 (bytesToNat ((b.drop (4 * k)).take 4))

/-- GATHER: each position holds the bytes of its row, or zeros for an index outside the table (12 R239, R240). -/
def GatherMakes (s : State) (id : Nat) (e : EngineWord) : Prop :=
  ∀ row : Nat → List (Phys × Nat), e.stage = .counted → e.indices.length = positions e.desc →
    (∀ r ∈ e.indices, r < tableRows e.desc →
      s.engineRange e (s.resolveNear (s.engineBasin e (dword e.desc 2)) e.core e.ctx) (e.rowAt r) (rowBytes e.desc) =
        .ok (row r)) →
    (let n := positions e.desc
     let want := fun (i : Nat) => let r := e.indices.getD i 0
       if r < tableRows e.desc then s.readPieces .cistern (row r) else List.replicate (rowBytes e.desc) 0
     (∀ tm, dataPad e.desc = true → s.teams.find? e.team = some tm → rowBytes e.desc ≤ dpitch e.desc →
       e.posAt n ≤ tm.padBytes → e.posAt n ≤ 0x80000 → ∃ t, Made s id e true 0 t ∧
         (∀ i, i < n → t.padRead e.team (e.posAt i) (rowBytes e.desc) = want i) ∧
         ∀ k a, k ≠ e.team ∨ a < e.posAt 0 ∨ e.posAt n ≤ a → t.padRead k a 1 = s.padRead k a 1) ∧
     (∀ at_ : Nat → List (Phys × Nat), dataPad e.desc = false → Roomy s e →
       (∀ i, i < n → s.engineDst e (e.posAt i) (rowBytes e.desc) = .ok (at_ i)) →
       Writable s ((List.range n).flatMap at_) → ∃ t, Made s id e true 0 t ∧
         ∀ i, i < n → t.readPieces .cistern (at_ i) = want i))

/-- SCATTER: STORE leaves in each row named the data of its last position, and ADD and FADD leave in each word of it the old value
combined with what its positions give together, in position order (12 R239, R241). -/
def ScatterMakes (s : State) (id : Nat) (e : EngineWord) : Prop :=
  ∀ (idx : List Nat) (data : Nat → List Byte) (at_ : Nat → List (Phys × Nat)), e.kind = .scatter → e.stage = .issued →
    Roomy s e →
    s.readIndices e = .ok (some idx) → (dword e.desc 2).toNat % 16 = 0 →
    (∀ i, i < positions e.desc → idx.getD i 0 < tableRows e.desc →
      s.engineRead .cistern (s.engineBasin e (dword e.desc 2)) e (dataPad e.desc) (e.posAt i) (rowBytes e.desc) =
        .ok (some (data i))) →
    (∀ r ∈ e.rows idx, s.engineDst e (e.rowAt r) (rowBytes e.desc) = .ok (at_ r)) →
    Writable s ((e.rows idx).flatMap at_) → (∀ x ∈ e.scatOverlaps, (common x.1 x.2).2 = 0) →
    ∃ t, Made s id e true 0 t ∧ ∀ r ∈ e.rows idx,
      (let op := scatOp e.desc
       let l := (List.range (positions e.desc)).filter fun i => idx.getD i 0 == r
       let old := s.readPieces .cistern (at_ r)
       let new := t.readPieces .cistern (at_ r)
       (op = 0 → new = data (l.getLast?.getD 0)) ∧
       (op ≠ 0 → ∀ k, k < rowBytes e.desc / 4 → wordAt new k = scatCombine op (wordAt old k)
         (l.tail.foldl (fun a i => scatCombine op a (wordAt (data i) k)) (wordAt (data (l.headD 0)) k))))

/-- ESORT: the tokens in the order of their experts, and within one of their pairs, those of no expert last; and for each expert and
for none how many tokens it has and how many stand before them (12 R243). -/
def EsortMakes (s : State) (id : Nat) (e : EngineWord) : Prop :=
  ∀ (b : List Byte) (l1 l2 l3 : List (Phys × Nat)), e.kind = .esort → e.stage = .issued → Roomy s e →
    (let n := pairCount e.desc
     let x := experts e.desc
     let base := fun (k : Nat) => (dword e.desc k).toNat
     let pairs := (List.range n).map fun p => ((wordAt b (2 * p)).toNat, min (wordAt b (2 * p + 1)).toNat x)
     let size := fun (k : Nat) => (pairs.filter fun p => p.2 == k).length
     let bytes := fun (l : List Nat) => l.flatMap (natToBytes 4)
     s.engineRead .cistern (s.engineBasin e (dword e.desc 2)) e false (base 2) (8 * n) = .ok (some b) →
     s.engineDst e (base 3) (4 * n) = .ok l1 → s.engineDst e (base 4) (4 * (x + 1)) = .ok l2 →
     s.engineDst e (base 5) (4 * (x + 1)) = .ok l3 → Writable s (l1 ++ l2 ++ l3) →
     ([(base 2, 8 * n), (base 3, 4 * n), (base 4, 4 * (x + 1)), (base 5, 4 * (x + 1))].Pairwise
       fun y z => (common y z).2 = 0) →
     ∃ t, Made s id e true 0 t ∧
       t.readPieces .cistern l1 =
         bytes ((List.range (x + 1)).flatMap fun k => (pairs.filter fun p => p.2 == k).map (·.1)) ∧
       t.readPieces .cistern l2 = bytes ((List.range (x + 1)).map size) ∧
       t.readPieces .cistern l3 =
         bytes ((List.range (x + 1)).map fun k => (pairs.filter fun p => p.2 < k).length))

/-- A collective word runs and every other rank has joined it, with a message that fits it. -/
abbrev AllJoined (s : State) (e : EngineWord) (c : Comm) (msg : Nat → CollMsg) : Prop :=
  e.stage = .issued ∧ s.commOf e = some c ∧ s.runs e = true ∧ c.spoils e = false ∧ c.rank < c.ranks ∧
    ∀ r ∈ c.others, c.msg? e r = some (msg r)

/-- A2AV: the counts that the ranks name for this one, and, if all are multiples of 4 and fit, the segments of the ranks in order;
otherwise the word ends in a collective error (12 R245, R246, log entries 32 and 119). -/
def A2avMakes (s : State) (id : Nat) (e : EngineWord) : Prop :=
  ∀ (c : Comm) (msg : Nat → CollMsg) (b : List Byte) (rc : List (Phys × Nat)), e.kind = .a2av → AllJoined s e c msg → Roomy s e →
    s.engineRead .coll (coreBasin e.core) e false (dword e.desc 3).toNat (4 * c.ranks) = .ok (some b) →
    s.engineDst e (dword e.desc 5).toNat (4 * c.ranks) = .ok rc → Writable s rc →
    (let own := (List.range c.ranks).map fun r => (wordAt b r).toNat
     let named := (List.range c.ranks).map fun r =>
       if r = c.rank then own.getD r 0 else (msg r).cmd.getD 2 0 % 2 ^ 32
     let sum := fun (l : List Nat) => l.foldl (· + ·) 0
     let bad := (∃ r ∈ c.others, (msg r).cmd.getD 3 0 ≠ 0) ∨ (∃ n ∈ named ++ own, n % 4 ≠ 0) ∨ recvCap e.desc < sum named
     let counts := named.flatMap (natToBytes 4)
     (bad → ∃ t, Made s id e false 0 t ∧ t.readPieces .coll rc = counts) ∧
     (¬ bad → ∀ (send : List Byte) (dst : List (Phys × Nat)),
       s.engineRead .coll (coreBasin e.core) e false (dword e.desc 2).toNat (sum own) = .ok (some send) →
       s.engineDst e (dword e.desc 4).toNat (sum named) = .ok dst → Writable s (dst ++ rc) →
       ∃ t, Made s id e true 0 t ∧ t.readPieces .coll rc = counts ∧
         t.readPieces .coll dst = (List.range c.ranks).flatMap fun r =>
           (List.range (named.getD r 0)).map fun i =>
             if r = c.rank then send.getD (sum (own.take r) + i) 0 else (msg r).data.getD i 0))

/-- AREDC: each element of the buffer holds the sum, in rank order, of what the ranks' blocks give, and each element of the residual
what the quantisation of this rank has left (12 R247, 20 R313, log entries 32, 103 and 119). -/
def AredcMakes (s : State) (id : Nat) (e : EngineWord) : Prop :=
  ∀ (c : Comm) (msg : Nat → CollMsg) (b r : List Byte) (l1 l2 : List (Phys × Nat)), e.kind = .aredc → AllJoined s e c msg → Roomy s e →
    (let n := elemCount e.desc
     let buf := (dword e.desc 2).toNat
     let res := (dword e.desc 3).toNat
     n % 32 = 0 →
     s.engineRead .coll (coreBasin e.core) e false buf (4 * n) = .ok (some b) →
     s.engineRead .coll (coreBasin e.core) e false res (4 * n) = .ok (some r) →
     s.engineDst e buf (4 * n) = .ok l1 → s.engineDst e res (4 * n) = .ok l2 → Writable s (l1 ++ l2) →
     (common (buf, 4 * n) (res, 4 * n)).2 = 0 →
     ∃ t amax, Made s id e true amax t ∧ ∀ k j, k < n / 32 → j < 32 →
       (let x := fun (i : Nat) => addBits (wordAt b (32 * k + i)).toNat (wordAt r (32 * k + i)).toNat
        let q := quantBlock e.fmt ((List.range 32).map fun i => fmtF32.decode (x i))
        let mine := deqBits e.fmt q.1 (q.2.getD j 0)
        let term := fun (rank : Nat) => if rank = c.rank then mine else (msgBlock e.fmt (msg rank).data k).getD j 0
        (wordAt (t.readPieces .coll l1) (32 * k + j)).toNat =
          ((List.range c.ranks).tail.foldl (fun a rank => addBits a (term rank)) (term 0)) % 2 ^ 32 ∧
        (wordAt (t.readPieces .coll l2) (32 * k + j)).toNat = addBits (x j) (mine ^^^ 2 ^ 31) % 2 ^ 32))

/-! ### Memory words -/

/-- A word that a system scope code would clip takes no trap for it: it is not clipped, or the policy does not trap (08 R171). -/
abbrev NoClipTrap (s : State) (w : Site) (c : Scope) : Prop :=
  w.clipped s c = false ∨ (s.vdNow (s.ctx w.ctx).vd).clipTrap = false

/-- Registers after a word with a scope: the slot has moved on, and SCOPE_CLIP is set when the word was clipped (08 R171). -/
def clipRegs (s : State) (w : Site) (c : Scope) (r : GroupRegs) : GroupRegs :=
  if w.clipped s c then { r with gstat := r.gstat ||| 1 } else r

/-- The byte that the lanes of a store leave at an address: that of the highest lane that stores there. -/
def lastByte (lanes : List Nat) (base : Nat → Nat) (data : Nat → List Byte) (a : Nat) : Option Byte :=
  lanes.reverse.findSome? fun L => if base L ≤ a then (data L)[a - base L]? else none

/-- L1 serves an access of n bytes of a load: not one of an ordered load of cluster scope or wider. -/
def loadHit (s : State) (w : Site) (scope : Scope) (ord : MemOrd) (n : Nat) (x : Phys) : Bool :=
  !(ord != .plain && 2 ≤ w.scopeRun s scope) && s.l1Hit w.core x n

/-- The group after an access whose slot notes what another core holds: a relaxed load or atomic notes the lines that it has read so,
for an acquire fence after it (08 R161, R164). -/
def withHeld (s : State) (w : Site) (ord : MemOrd) (phs : List Phys) (g : Group) : Group :=
  let l := (phs.map fun x => lineOf x.pa).filter fun line => s.heldLine w.core line
  if ord = .plain ∨ ord = .acq ∨ ord = .ar ∨ l = [] then g else g.setHeld w.slot ((w.g.heldBy w.slot ++ l).eraseDups)

/-- A load has posted the registers that the bytes of its lanes spell, read at the slice for an ordered load of cluster scope or
wider; an acquire leaves no clean line in the L1. Where the host's writes do not come in as well, every byte at its home is as it was,
and if L1 has room for the lines and no region commit is under way in them, nothing but the caches, the L2 counters and the group has
changed. -/
def Loads (i : Instr) (s : State) (w : Site) (la : BitVec 4) (lanes : List Nat) (uni : Bool) (d : BitVec 8) (n : Nat)
    (scope : Scope) (ord : MemOrd) (ph : Nat → Phys) : Prop :=
  let sc := w.scopeRun s scope
  let home := ord != .plain && 2 ≤ sc
  let writes := lanes.flatMap fun L => loadWrites uni d.toNat n L ((List.range n).map fun k =>
    if home then s.orderedByte w.core (ph L) k else s.coreByte w.core (ph L) k)
  ∃ t g p, Gives i s t ∧ t.group? w.team w.grp = some g ∧ g.r = clipRegs s w scope (w.g.r.advance w.slot) ∧
    g.pend.getLast? = some p ∧ p.kind = .value ∧ p.writes = writes ∧
    (ord = .acq → 2 ≤ sc → ∀ e ∈ t.m.l1Of w.core, e.2.dirty ≠ 0) ∧
    (ord ≠ .acq ∨ sc ≠ 5 →
      (∀ key pa, t.homeByte key pa = s.homeByte key pa) ∧
      (home = true ∨ (s.m.l1Of w.core).length + lanes.length ≤ s.l1Lines w.core →
        (∀ L ∈ lanes, s.rewritten (lineOf (ph L).pa) = false) →
        t = { s with m := t.m, basins := t.basins, teams := t.teams } ∧
        g = withHeld s w ord (lanes.map ph)
          { PostedGroup w la i .value writes (missLines (loadHit s w scope ord n) (lanes.map ph)).length with r := g.r }))

/-- L1 keeps the lines of a store that does not perform at device scope. -/
def storeHit (s : State) (w : Site) (scope : Scope) (ord : MemOrd) (x : Phys) : Bool :=
  !(ord != .plain && 3 ≤ w.scopeRun s scope) && (s.l1Line? w.core x).isSome

/-- What a store must write back first has left: what it releases, or the lines that it performs through. -/
def StoreReady (s : State) (w : Site) (f : StoreF) (phs : List Phys) (s1 : State) : Prop :=
  (if f.ord == .rel then w.releaseAt s (w.scopeRun s f.scope)
   else if f.ord != .plain && 3 ≤ w.scopeRun s f.scope then w.writeBack s (w.lineKeys phs) false
   else .ok s) = .ok s1

/-- Some byte of an access lies in a counted barrier object: a doubleword that an action has used as one (11 R226). -/
def InObject (s : State) (team a n : Nat) : Prop :=
  ∃ k t, k < n ∧ s.teams.find? team = some t ∧ ((t.objects.find? ((a + k) / 8)).elim false (·.used)) = true

/-- The value that a lane of an atomic finds: what the lanes below it at the same place have made of the one before. -/
def atomFinds {α : Type} [DecidableEq α] (w : Site) (f : AtomF) (place : Nat → α) (lanes : List Nat) (init : Nat) (L : Nat) :
    Nat :=
  (lanes.filter fun M => M < L && place M == place L).foldl (fun v M =>
    atomNew f.op f.sz.bytes v (w.operand f.b f.sz.bytes M) (w.operand f.d f.sz.bytes M)) init

/-- The value that all the lanes of an atomic leave at the place of a lane. -/
def atomLeaves {α : Type} [DecidableEq α] (w : Site) (f : AtomF) (place : Nat → α) (lanes : List Nat) (init : Nat) (L : Nat) :
    Nat :=
  (lanes.filter fun M => place M == place L).foldl (fun v M =>
    atomNew f.op f.sz.bytes v (w.operand f.b f.sz.bytes M) (w.operand f.d f.sz.bytes M)) init

/-- A word at a scope with a release: the state in which its own effect starts. -/
def Released (s : State) (w : Site) (rel : Bool) (sc : Nat) (s1 : State) : Prop :=
  (if rel then w.releaseAt s sc else .ok s) = .ok s1

/-! ### Queues -/

/-- Only queue `q` of its Fountainhead core has anything to process: a packet known to it at RIDX, none in flight, and no failure. -/
def OnlyLane (s : State) (q : Nat) : Prop :=
  (s.queue q).state = .active ∧ (s.queue q).enable = true ∧ (s.queue q).inflight = [] ∧ (s.queue q).failing = [] ∧
    1 ≤ idxAhead (s.queue q).ridx (s.queue q).w ∧ idxAhead (s.queue q).ridx (s.queue q).w < 2 ^ 31 ∧
    ∀ k, k ≠ q → k / 64 = q / 64 →
      (s.queue k).state = .disabled ∧ (s.queue k).inflight = [] ∧ (s.queue k).failing = []

/-- The address of the slot at RIDX. -/
def slotAddr (x : Queue) : Nat := x.base.toNat + 64 * (x.ridx % 2 ^ x.logsize)

/-- The two writes by which a queue moves on from a slot need not wait, for a collapse or for the host: of the TYPE of the slot at RIDX
and of RIDX in the header. -/
abbrev MovesOn (s : State) (q : Nat) : Prop :=
  let x := s.queue q
  s.pieceWaits x.ctx (.event (.fountainheadStep (q / 64)))
    (s.storePieces x.ctx (slotAddr x) 1 ++ s.storePieces x.ctx (x.header.toNat + 0x14) 4) = none

/-- The queue has moved on: the TYPE of the slot at RIDX is 0, and RIDX is one more, in the header too (16 R285). -/
def movedOn (s : State) (q : Nat) : State :=
  let x := s.queue q
  let r := (x.ridx + 1) % 2 ^ 32
  ((s.fwPut (s.storePieces x.ctx (slotAddr x) 1) [0]).fwPut (s.storePieces x.ctx (x.header.toNat + 0x14) 4)
    (natToBytes 4 r)).updQueue q fun y => { y with ridx := r, head := none }

/-- A step has processed the packet at RIDX: with its work under way in `a`, it is in flight, and the queue has moved on. -/
def Processed (i : Instr) (s a : State) (q id : Nat) (b : List Byte) (work : PktWork) (nest : Option Nat) (fslots : List W32)
    (block : W64) : Prop :=
  let x := s.queue q
  let p : Packet :=
    { id := id, idx := x.ridx, ctx := x.ctx, vd := x.vd, ty := pktType b, hold := recBits b 0 8 1 == 1, rel := recBits b 0 11 2
      compl := pktDword b 8, work := work, nest := nest, block := block, fslots := fslots, amax := List.replicate 8 0
      amaxst := List.replicate 8 0 }
  let a1 := a.updQueue q fun y => { y with inflight := [p] }
  MovesOn a1 q → Gives i s (movedOn a1 q)

end Sys2Proof
end

