-- ==== Sys2Proof/Certificates/Slice0/Obligations.lean ====
section
/-! DEFINITION. The statements about the model: what each word and each step of the device does, what it leaves alone, where it
faults and traps, and what every step keeps. -/

open Sys2Proof Sys2Proof.Machine

/-! ### Integer, logic and lane words -/

/-- AND, OR, XOR, their immediate forms, NOT, BREV, CLZ and POPC answer a next state in which D holds the result of each
active lane (or of lane 0, in the uniform form), and nothing else has changed but the PC (20 R311, R312, R333, R339, 22
R392, R394, R397, 23 R443, 04 R77, R99). The four shift words answer a next state with the result that 22 R405 gives: an
amount of 32 or more gives 0, or the sign, and ROT takes the amount modulo 32. Nothing else changes. -/
def Obligations.LogicAndShiftResults : Prop :=
  (∀ (s : State) (w : Site), s.site? = some w →
     (∀ f : Bin,
       Writes32 (.and f) s w f.g f.uni f.d (fun L => w.val32 f.uni f.a L &&& w.val32 (f.uni || f.bu) f.b L) ∧
       Writes32 (.or f) s w f.g f.uni f.d (fun L => w.val32 f.uni f.a L ||| w.val32 (f.uni || f.bu) f.b L) ∧
       Writes32 (.xor f) s w f.g f.uni f.d (fun L => w.val32 f.uni f.a L ^^^ w.val32 (f.uni || f.bu) f.b L)) ∧
     (∀ f : ImmB,
       Writes32 (.andi f) s w f.g f.uni f.d (fun L => w.val32 f.uni f.a L &&& f.imm.signExtend 32) ∧
       Writes32 (.ori f) s w f.g f.uni f.d (fun L => w.val32 f.uni f.a L ||| f.imm.signExtend 32) ∧
       Writes32 (.xori f) s w f.g f.uni f.d (fun L => w.val32 f.uni f.a L ^^^ f.imm.signExtend 32)) ∧
     (∀ f : Un,
       Writes32 (.not f) s w f.g f.uni f.d (fun L => ~~~(w.val32 f.uni f.a L)) ∧
       Writes32 (.brev f) s w f.g f.uni f.d (fun L => (w.val32 f.uni f.a L).reverse) ∧
       Writes32 (.clz f) s w f.g f.uni f.d (fun L => (w.val32 f.uni f.a L).clz) ∧
       Writes32 (.popc f) s w f.g f.uni f.d (fun L => (w.val32 f.uni f.a L).cpop))) ∧
  (∀ (s : State) (w : Site) (f : Shift), s.site? = some w →
     Writes32 (.shl f) s w f.g f.uni f.d (fun L => w.val32 f.uni f.a L <<< (w.amt f.uni f.amt L).toNat) ∧
     Writes32 (.shr f) s w f.g f.uni f.d (fun L => w.val32 f.uni f.a L >>> (w.amt f.uni f.amt L).toNat) ∧
     Writes32 (.sar f) s w f.g f.uni f.d (fun L => (w.val32 f.uni f.a L).sshiftRight (w.amt f.uni f.amt L).toNat) ∧
     Writes32 (.rot f) s w f.g f.uni f.d
       (fun L => (w.val32 f.uni f.a L).rotateLeft ((w.amt f.uni f.amt L).toNat % 32)))

/-- BFI takes LEN bits of B at POS over A, and BFX the field of A at POS, cut at bit 31 and extended by its sign in the I32 form;
LEN 0 stands for 32 (20 R325, R326). Nothing else changes. -/
def Obligations.BitFieldResults : Prop :=
  ∀ (s : State) (w : Site), s.site? = some w →
    (∀ f : BitIns, ∃ val, Writes32 (.bfi f) s w f.g f.uni f.d val ∧
      ∀ L i, L < 32 → i < 32 → (val L).getLsbD i =
        if f.pos.toNat ≤ i ∧ i < f.pos.toNat + (if f.len = 0 then 32 else f.len.toNat) then
          (w.val32 (f.uni || f.bu) f.b L).getLsbD (i - f.pos.toNat)
        else (w.val32 f.uni f.a L).getLsbD i) ∧
    (∀ f : BitExt, ∃ val, Writes32 (.bfx f) s w f.g f.uni f.d val ∧
      ∀ L i, L < 32 → i < 32 → (val L).getLsbD i =
        (let n := min (if f.len = 0 then 32 else f.len.toNat) (32 - f.pos.toNat)
         if i < n then (w.val32 f.uni f.a L).getLsbD (f.pos.toNat + i)
         else f.signed && (w.val32 f.uni f.a L).getLsbD (f.pos.toNat + n - 1)))

/-- The words of 21 Table 21-22 on the 32-bit types answer a next state in which D holds the wrapped result, compared as signed
for I32 and as unsigned for N32, and IMULH the high half of the exact product (21 R364). Nothing else changes. -/
def Obligations.Integer32Results : Prop :=
  ∀ (s : State) (w : Site), s.site? = some w →
    (∀ f : BinS, f.ty = .i32 ∨ f.ty = .n32 → f.sat = false →
      Writes32 (.iadd f) s w f.g f.uni f.d (fun L => w.val32 f.uni f.a L + w.val32 (f.uni || f.bu) f.b L) ∧
      Writes32 (.isub f) s w f.g f.uni f.d (fun L => w.val32 f.uni f.a L - w.val32 (f.uni || f.bu) f.b L)) ∧
    (∀ f : ImmT, f.ty = .i32 ∨ f.ty = .n32 → f.sat = false →
      Writes32 (.iaddi f) s w f.g f.uni f.d (fun L => w.val32 f.uni f.a L + f.imm.signExtend 32)) ∧
    (∀ f : TriT, f.ty = .i32 ∨ f.ty = .n32 →
      Writes32 (.imad f) s w f.g f.uni f.d
        (fun L => w.val32 f.uni f.a L * w.val32 (f.uni || f.bu) f.b L + w.val32 f.uni f.c L)) ∧
    (∀ f : UnT, f.ty = .i32 ∨ f.ty = .n32 →
      Writes32 (.ineg f) s w f.g f.uni f.d (fun L => -w.val32 f.uni f.a L) ∧
      Writes32 (.iabs f) s w f.g f.uni f.d (fun L =>
        if f.ty = .i32 ∧ (w.val32 f.uni f.a L).slt 0 then -w.val32 f.uni f.a L else w.val32 f.uni f.a L)) ∧
    (∀ f : BinT, f.ty = .i32 ∨ f.ty = .n32 →
      (let a := fun L => w.val32 f.uni f.a L
       let b := fun L => w.val32 (f.uni || f.bu) f.b L
       let less := fun L => if f.ty = .i32 then (a L).slt (b L) else (a L).ult (b L)
       Writes32 (.imul f) s w f.g f.uni f.d (fun L => a L * b L) ∧
       Writes32 (.imax f) s w f.g f.uni f.d (fun L => if less L then b L else a L) ∧
       Writes32 (.imin f) s w f.g f.uni f.d (fun L => if less L then a L else b L) ∧
       Writes32 (.imulh f) s w f.g f.uni f.d (fun L =>
         if f.ty = .i32 then hi32 ((a L).signExtend 64 * (b L).signExtend 64)
         else hi32 ((a L).setWidth 64 * (b L).setWidth 64))))

/-- The same words on the 64-bit types write the pair D, D + 1, low half first (21 R364, 00 R7), and LEA adds B, extended by its
type and shifted, to the pair A (21 R371). Nothing else changes. -/
def Obligations.Integer64Results : Prop :=
  ∀ (s : State) (w : Site), s.site? = some w →
    (∀ f : BinS, f.ty = .i64 ∨ f.ty = .n64 → f.sat = false →
      WritesReg (.iadd f) s w f.g f.uni true f.d (fun L => valPair w f.uni f.a L + valPair w (f.uni || f.bu) f.b L) ∧
      WritesReg (.isub f) s w f.g f.uni true f.d (fun L => valPair w f.uni f.a L - valPair w (f.uni || f.bu) f.b L)) ∧
    (∀ f : ImmT, f.ty = .i64 ∨ f.ty = .n64 → f.sat = false →
      WritesReg (.iaddi f) s w f.g f.uni true f.d (fun L => valPair w f.uni f.a L + f.imm.signExtend 64)) ∧
    (∀ f : TriT, f.ty = .i64 ∨ f.ty = .n64 →
      WritesReg (.imad f) s w f.g f.uni true f.d
        (fun L => valPair w f.uni f.a L * valPair w (f.uni || f.bu) f.b L + valPair w f.uni f.c L)) ∧
    (∀ f : UnT, f.ty = .i64 ∨ f.ty = .n64 →
      WritesReg (.ineg f) s w f.g f.uni true f.d (fun L => -valPair w f.uni f.a L) ∧
      WritesReg (.iabs f) s w f.g f.uni true f.d (fun L =>
        if f.ty = .i64 ∧ (valPair w f.uni f.a L).slt 0 then -valPair w f.uni f.a L else valPair w f.uni f.a L)) ∧
    (∀ f : BinT, f.ty = .i64 ∨ f.ty = .n64 →
      (let a := fun L => valPair w f.uni f.a L
       let b := fun L => valPair w (f.uni || f.bu) f.b L
       let less := fun L => if f.ty = .i64 then (a L).slt (b L) else (a L).ult (b L)
       WritesReg (.imul f) s w f.g f.uni true f.d (fun L => a L * b L) ∧
       WritesReg (.imax f) s w f.g f.uni true f.d (fun L => if less L then b L else a L) ∧
       WritesReg (.imin f) s w f.g f.uni true f.d (fun L => if less L then a L else b L))) ∧
    (∀ f : LeaF,
      WritesReg (.lea f) s w f.g f.uni true f.d (fun L => valPair w f.uni f.a L +
        ((if f.signed then (w.val32 (f.uni || f.bu) f.b L).signExtend 64
          else (w.val32 (f.uni || f.bu) f.b L).setWidth 64) <<< f.sh.toNat)))

/-- With SAT the exact sum or difference is clamped: to −2^31 and 2^31 − 1 for I32, and to 0 and 2^32 − 1 for N32, and likewise
at 64 bits (21 R364). -/
def Obligations.SaturatedResults : Prop :=
  ∀ (s : State) (w : Site), s.site? = some w →
    (∀ f : BinS, f.sat = true →
      (f.ty = .i32 →
        Writes32 (.iadd f) s w f.g f.uni f.d (fun L => BitVec.ofInt 32 (max (-2147483648) (min 2147483647
          ((w.val32 f.uni f.a L).toInt + (w.val32 (f.uni || f.bu) f.b L).toInt)))) ∧
        Writes32 (.isub f) s w f.g f.uni f.d (fun L => BitVec.ofInt 32 (max (-2147483648) (min 2147483647
          ((w.val32 f.uni f.a L).toInt - (w.val32 (f.uni || f.bu) f.b L).toInt))))) ∧
      (f.ty = .n32 →
        Writes32 (.iadd f) s w f.g f.uni f.d (fun L => BitVec.ofNat 32 (min 4294967295
          ((w.val32 f.uni f.a L).toNat + (w.val32 (f.uni || f.bu) f.b L).toNat))) ∧
        Writes32 (.isub f) s w f.g f.uni f.d (fun L => BitVec.ofNat 32
          ((w.val32 f.uni f.a L).toNat - (w.val32 (f.uni || f.bu) f.b L).toNat))) ∧
      (f.ty = .i64 →
        WritesReg (.iadd f) s w f.g f.uni true f.d (fun L => BitVec.ofInt 64 (max (-9223372036854775808)
          (min 9223372036854775807 ((valPair w f.uni f.a L).toInt + (valPair w (f.uni || f.bu) f.b L).toInt)))) ∧
        WritesReg (.isub f) s w f.g f.uni true f.d (fun L => BitVec.ofInt 64 (max (-9223372036854775808)
          (min 9223372036854775807 ((valPair w f.uni f.a L).toInt - (valPair w (f.uni || f.bu) f.b L).toInt))))) ∧
      (f.ty = .n64 →
        WritesReg (.iadd f) s w f.g f.uni true f.d (fun L => BitVec.ofNat 64 (min 18446744073709551615
          ((valPair w f.uni f.a L).toNat + (valPair w (f.uni || f.bu) f.b L).toNat))) ∧
        WritesReg (.isub f) s w f.g f.uni true f.d (fun L => BitVec.ofNat 64
          ((valPair w f.uni f.a L).toNat - (valPair w (f.uni || f.bu) f.b L).toNat)))) ∧
    (∀ f : ImmT, f.sat = true →
      (f.ty = .i32 → Writes32 (.iaddi f) s w f.g f.uni f.d (fun L => BitVec.ofInt 32 (max (-2147483648) (min 2147483647
        ((w.val32 f.uni f.a L).toInt + f.imm.toInt))))) ∧
      (f.ty = .n32 → Writes32 (.iaddi f) s w f.g f.uni f.d (fun L => BitVec.ofInt 32 (max 0 (min 4294967295
        (Int.ofNat (w.val32 f.uni f.a L).toNat + f.imm.toInt))))) ∧
      (f.ty = .i64 → WritesReg (.iaddi f) s w f.g f.uni true f.d (fun L => BitVec.ofInt 64 (max (-9223372036854775808)
        (min 9223372036854775807 ((valPair w f.uni f.a L).toInt + f.imm.toInt))))) ∧
      (f.ty = .n64 → WritesReg (.iaddi f) s w f.g f.uni true f.d (fun L => BitVec.ofInt 64 (max 0
        (min 18446744073709551615 (Int.ofNat (valPair w f.uni f.a L).toNat + f.imm.toInt))))))

/-- ISETP, PLOP, FSETP and the ALL and ANY forms of VOTE write their predicate in the active lanes and keep it in the
others, and a destination p7 stays true (21 R360, R365, 22 R396, 23 R441, 03 R54). Nothing else changes. MOV, MOVI, SEL,
SHFL, the BALLOT form of VOTE, BCAST and LTILE (22 R375, R376, R408, R409, 23 R441, 20 R324, 21 R373): SHFL reads the source
lane that its mode names inside the tile. Nothing else changes. -/
def Obligations.PredicateAndMoveResults : Prop :=
  (∀ (s : State) (w : Site), s.site? = some w →
     (∀ f : SetpI, f.ty = .i32 ∨ f.ty = .n32 →
       WritesPred (.isetp f) s w f.g f.p fun L =>
         let a := w.val32 false f.a L
         let b := w.val32 f.bu f.b L
         let less := fun (x y : W32) => if f.ty = .i32 then x.slt y else x.ult y
         match f.cmp with
         | .eq => a == b
         | .ne => a != b
         | .lt => less a b
         | .le => !less b a
         | .gt => less b a
         | .ge => !less a b) ∧
     (∀ f : SetpI, f.ty = .i64 ∨ f.ty = .n64 →
       WritesPred (.isetp f) s w f.g f.p fun L =>
         let a := valPair w false f.a L
         let b := valPair w f.bu f.b L
         let less := fun (x y : W64) => if f.ty = .i64 then x.slt y else x.ult y
         match f.cmp with
         | .eq => a == b
         | .ne => a != b
         | .lt => less a b
         | .le => !less b a
         | .gt => less b a
         | .ge => !less a b) ∧
     (∀ f : PlopF, WritesPred (.plop f) s w f.g f.p fun L =>
       f.lut.getLsbD (2 * ((w.g.r.rdP f.a.toNat).getLsbD L).toNat + ((w.g.r.rdP f.b.toNat).getLsbD L).toNat)) ∧
     (∀ f : SetpF, WritesPred (.fsetp f) s w f.g f.p fun L =>
       fcompare f.cmp (w.mode.rd (w.val32 false f.a L)) (w.mode.rd (w.val32 f.bu f.b L))) ∧
     (∀ f : VoteF, f.kind = .all →
       WritesPred (.vote f) s w f.g (f.d.setWidth 3) fun L => (List.range 32).all fun i =>
         !(i / w.width == L / w.width && (w.active f.g).getLsbD i) || (w.g.r.rdP f.a.toNat).getLsbD i) ∧
     (∀ f : VoteF, f.kind = .any →
       WritesPred (.vote f) s w f.g (f.d.setWidth 3) fun L => (List.range 32).any fun i =>
         i / w.width == L / w.width && (w.active f.g).getLsbD i && (w.g.r.rdP f.a.toNat).getLsbD i)) ∧
  (∀ (s : State) (w : Site), s.site? = some w →
     (∀ f : MovF, Writes32 (.mov f) s w f.g (f.kind == .ss) f.d fun L =>
       if f.kind = .vv then w.g.r.rdV f.src.toNat L else w.g.r.rdS f.src.toNat) ∧
     (∀ f : MovImm, Writes32 (.movi f) s w f.g f.uni f.d fun _ => f.imm) ∧
     (∀ f : SelF, Writes32 (.sel f) s w f.g false f.d fun L =>
       if (w.g.r.rdP f.pc.toNat).getLsbD L then w.g.r.rdV f.a.toNat L else w.g.r.rd f.bu f.b.toNat L) ∧
     (∀ f : ShflF, Writes32 (.shfl f) s w f.g false f.d fun L =>
       (let b := (w.amt false f.amt L).toNat
        let t := L / w.width * w.width
        let src := match f.mode with
          | .idx => t + b % w.width
          | .up => if w.width ≤ b ∨ L < t + b then L else L - b
          | .down => if w.width ≤ b ∨ t + w.width ≤ L + b then L else L + b
          | .xor => t + ((L - t) ^^^ (b % w.width))
        w.g.r.rdV f.a.toNat src)) ∧
     (∀ f : VoteF, f.kind = .ballot → ∃ val, Writes32 (.vote f) s w f.g false f.d val ∧
       ∀ L i, L < 32 → i < 32 → (val L).getLsbD i =
         (decide (i / w.width * w.width = L / w.width * w.width) && (w.active f.g).getLsbD i &&
           (w.g.r.rdP f.a.toNat).getLsbD i)) ∧
     (∀ f : BcastF, ∃ t r, Gives (.bcast f) s t ∧ Committed w s t r ∧
       r = w.g.r.wrS f.d.toNat (w.g.r.rdV f.a.toNat f.lane.toNat)) ∧
     (∀ f : LtileF, ∃ t, Gives (.ltile f) s t ∧ Committed w s t { w.g.r with ltile := f.w.setWidth 32 }))


/-- The rounding words answer a next state while no NaN trap is due: D holds the result of each active lane, NAN_SEEN is set
exactly when a lane produced or read a NaN that the word reports, and the LFSR of a lane moves on by the draws of the word
only under SR and only where the word computed (05 R109, R122, R123, 21 R348 to R350, R355, R359, R362, 20 R341). FABS and
FNEG clear and invert sign bits, on two halves in the packed types, and FCLASS gives the class bits (21 R347, R351). None
reports a NaN, and nothing else changes. -/
def Obligations.FloatWordResults : Prop :=
  (∀ (s : State) (w : Site), s.site? = some w → NoNanTrap w →
     (∀ f : FBin,
       let rm := w.mode.sel f.rm
       let a := fun L => w.mode.rd (w.val32 f.uni f.a L)
       let b := fun L => w.mode.rd (w.val32 (f.uni || f.bu) f.b L)
       WritesFloat (.fadd f) s w f.g f.uni f.d (rm == .sr) 1
         (fun L => fmtF32.round rm w.mode.ftz (w.g.r.draw L) ((a L).add (rm == .rdn) (b L))) ∧
       WritesFloat (.fsub f) s w f.g f.uni f.d (rm == .sr) 1
         (fun L => fmtF32.round rm w.mode.ftz (w.g.r.draw L) ((a L).add (rm == .rdn) (b L).neg)) ∧
       WritesFloat (.fmul f) s w f.g f.uni f.d (rm == .sr) 1
         (fun L => fmtF32.round rm w.mode.ftz (w.g.r.draw L) ((a L).mul (b L)))) ∧
     (∀ f : FFmaF,
       let rm := w.mode.sel f.rm
       WritesFloat (.ffma f) s w f.g f.uni f.d (rm == .sr) 1
         (fun L => fmtF32.round rm w.mode.ftz (w.g.r.draw L)
           (((w.mode.rd (w.val32 f.uni f.a L)).mul (w.mode.rd (w.val32 (f.uni || f.bu) f.b L))).add (rm == .rdn)
             (w.mode.rd (w.val32 f.uni f.c L))))) ∧
     (∀ f : Bin,
       WritesFloat (.fmin f) s w f.g f.uni f.d false 0
         (fun L => aluFminmax w.mode false (w.val32 f.uni f.a L) (w.val32 (f.uni || f.bu) f.b L)) ∧
       WritesFloat (.fmax f) s w f.g f.uni f.d false 0
         (fun L => aluFminmax w.mode true (w.val32 f.uni f.a L) (w.val32 (f.uni || f.bu) f.b L))) ∧
     (∀ f : FTri, WritesFloat (.fdot2 f) s w f.g false f.d (w.mode.sel f.rm == .sr) 1 fun L =>
       aluFdot2 w.mode (w.mode.sel f.rm) (w.g.r.draw L) (w.val32 false f.a L) (w.val32 f.bu f.b L) (w.val32 false f.c L)) ∧
     (∀ f : HTri, WritesFloat (.hfma2 f) s w f.g false f.d (w.mode.sel f.rm == .sr) 2 fun L =>
       aluHfma2 f.f16 w.mode (w.mode.sel f.rm) (w.g.r.draw L) (w.val32 false f.a L) (w.val32 f.bu f.b L)
         (w.val32 false f.c L)) ∧
     (∀ f : FRndF, WritesFloat (.frnd f) s w f.g f.uni f.d (w.mode.sel f.rm == .sr) 1 fun L =>
       roundIntegral (w.mode.sel f.rm) (w.g.r.draw L) (w.mode.rd (w.val32 f.uni f.a L))) ∧
     (∀ f : CvtF, WritesFloat (.cvt f) s w f.g f.uni f.d (w.mode.sel f.rm == .sr) 1 fun L =>
       cvtValue f.dst f.sat (w.mode.sel f.rm) w.mode.ftz (w.g.r.draw L)
         (f.src.value w.mode.daz (w.val32 f.uni f.a L)))) ∧
  (∀ (s : State) (w : Site), s.site? = some w →
     (∀ f : UnT,
       Writes32 (.fabs f) s w f.g f.uni f.d (fun L =>
         w.val32 f.uni f.a L &&& (if f.ty = .f32 then 0x7FFFFFFF else 0x7FFF7FFF)) ∧
       Writes32 (.fneg f) s w f.g f.uni f.d (fun L =>
         w.val32 f.uni f.a L ^^^ (if f.ty = .f32 then 0x80000000 else 0x80008000))) ∧
     (∀ f : UnV, Writes32 (.fclass f) s w f.g false f.d (fun L => fclass (w.val32 false f.a L))))

/-- The long-latency float words post their results: each is outstanding with the writes that it will make to the active lanes,
rounded once from the exact value, and the slot goes on (04 R79, R80, 21 R352, R353). The transcendental words post the value
that fexp2, flog2, fsin, fcos and ftanh give, whose accuracy log entry 9 says. -/
def Obligations.FloatLongResults : Prop :=
  ∀ (s : State) (w : Site), s.site? = some w → NoNanTrap w →
    (∀ f : FLongR,
      let rm := w.mode.sel f.rm
      let a := fun L => w.mode.rd (w.val32 false f.a L)
      PostsFloat (.frcp f) s w f.la f.g f.d (rm == .sr)
        (fun L => fmtF32.round rm w.mode.ftz (w.g.r.draw L) (a L).rcp) ∧
      PostsFloat (.frsq f) s w f.la f.g f.d (rm == .sr)
        (fun L => fmtF32.round rm w.mode.ftz (w.g.r.draw L) (a L).rsq) ∧
      PostsFloat (.fsqrt f) s w f.la f.g f.d (rm == .sr)
        (fun L => fmtF32.round rm w.mode.ftz (w.g.r.draw L) (a L).sqrt)) ∧
    (∀ f : FDivF,
      let rm := w.mode.sel f.rm
      PostsFloat (.fdiv f) s w f.la f.g f.d (rm == .sr) (fun L => fmtF32.round rm w.mode.ftz (w.g.r.draw L)
        ((w.mode.rd (w.val32 false f.a L)).div (w.mode.rd (w.val32 f.bu f.b L))))) ∧
    (∀ f : FLong,
      PostsFloat (.fexp2 f) s w f.la f.g f.d false (fun L => fexp2 (w.val32 false f.a L) w.mode.daz w.mode.ftz) ∧
      PostsFloat (.flog2 f) s w f.la f.g f.d false (fun L => flog2 (w.val32 false f.a L) w.mode.daz w.mode.ftz) ∧
      PostsFloat (.fsin f) s w f.la f.g f.d false (fun L => fsin (w.val32 false f.a L) w.mode.daz w.mode.ftz) ∧
      PostsFloat (.fcos f) s w f.la f.g f.d false (fun L => fcos (w.val32 false f.a L) w.mode.daz w.mode.ftz) ∧
      PostsFloat (.ftanh f) s w f.la f.g f.d false (fun L => ftanh (w.val32 false f.a L) w.mode.daz w.mode.ftz))

/-- The first NaN that a word produces under NANTRAP, with NAN_SEEN clear, outside a handler and with no result outstanding, traps
after the word has committed: its results and its draws stand, NAN_SEEN is set, and the slot enters the handler with TPC at what comes
after the word, TCAUSE 0x22 and INH set (05 R122, R123, 14 R254). So it is for every rounding word of a lane in its vector and its
uniform form, for REDUX and SCAN, for CVTD, CVTQ and PACK and for the pair words; a long-latency word posts its results, and its trap
waits until they are written. A FENCE that the clip policy cuts back to tenant scope, with the policy's trap, commits and sets
SCOPE_CLIP, and then traps likewise with TCAUSE 0x24 (08 R171). -/
def Obligations.NanTraps : Prop :=
  (∀ (s s1 : State) (w : Site) (f : FenceF), s.site? = some w → w.unperformed = false → w.blocked = false →
    w.g.t.inh = false → w.g.pend = [] → (w.slot = true → w.g.t.pend0 = none) → w.fenceWaits s 4 = false → w.ps.repc = 0 → f.spec = false → w.clipped s f.scope = true →
    (s.vdNow (s.ctx w.ctx).vd).clipTrap = true → Released s w true 4 s1 →
    (s.m.l1Of w.core).sorted = true → s1.ctxs = s.ctxs →
    (s.ctx w.ctx).handler ≠ 0 → s1.fetchError w.core w.ctx (s.ctx w.ctx).handler = none →
    ∃ t g, Gives (.fence f) s t ∧ t.m.l1Of w.core = [] ∧ t.group? w.team w.grp = some g ∧
      (g.r.slot w.slot).pc = (s.ctx w.ctx).handler ∧ g.t.tpc = w.pc + 8 ∧ g.t.tcause = 0x24 ∧ g.t.inh = true ∧
      g.r.gstat = w.g.r.gstat ||| 1) ∧
  (∀ (s : State) (w : Site), s.site? = some w → NanTrapDue s w →
    (∀ i g uni d sr n res, RoundedWord s w i g uni d sr n res → (∃ L ∈ w.doing g uni, (res L).nanOut = true) →
      TrapsFloat i s w g uni d sr n res) ∧
    (∀ i la g d sr res, LongWord w i la g d sr res → (∃ L ∈ w.lanes g, (res L).nanOut = true) →
      PostsTrap i s w la g d sr res)) ∧
  ∀ (s : State) (w : Site), s.site? = some w → NanTrapDue s w →
    (∀ f : CvtdF, blockAccepts (w.fslot s f.slot).fmt = true →
      (∃ L ∈ w.lanes f.g, (dequant (w.fslot s f.slot) w.mode.ftz (w.g.r.draw L) ((w.val32 f.bu f.b 0).toNat % 256)
        ((w.val32 false f.a L).toNat % 2 ^ fmtWidth (w.fslot s f.slot).fmt)).nanOut = true) →
      ∃ t r, Gives (.cvtd f) s t ∧ NanEntered (countsBad s w f) t w r ∧ CvtdIs s w f r) ∧
    (∀ f : CvtqF, blockAccepts (w.fslot s f.slot).fmt = true → ((List.range 32).map (cvtqIn w f)).any FVal.isNan = true →
      ∃ t r, Gives (.cvtq f) s t ∧ NanEntered (foldsAmax s w f.slot ((List.range 32).map (cvtqIn w f))) t w r ∧
        CvtqIs s w f r) ∧
    (∀ f : PackF, narrowAccepts (w.fslot s f.slot).fmt = true → f.pos.toNat < 16 / fmtWidth (w.fslot s f.slot).fmt →
      (∃ L ∈ w.lanes f.g, ((packRes s w f L).1.nanOut || (packRes s w f L).2.nanOut) = true) →
      ∃ t r, Gives (.pack f) s t ∧ NanEntered (foldsAmax s w f.slot (packIn w f)) t w r ∧ PackIs s w f r) ∧
    (∀ (op : HOp) (f : PairF),
      ((w.lanes f.h1.g).any fun L => (pairOne w op f L).nanOut) || ((w.lanes f.h2.g).any fun L => (pairTwo w op f L).nanOut) →
      ∃ t r, Gives (op.mk1 f) s t ∧ NanEntered s t w r ∧ PairIs w op f r)

/-- A pair word of any first operation, and any second, reads the registers of both halves before either writes, and writes the D
of each half in the half's own active lanes; a lane of both steps its LFSR for the first half and then for the second (04 R82,
R83, 05 R109). The constructor op.mk1 f is one of halfIadd, halfIsub, halfAnd, halfOr, halfXor, halfShl, halfShr, halfSar, halfImin,
halfImax, halfMov, halfImul, halfFadd, halfFsub, halfFmul, halfFmin and halfFmax: the seventeen half words, each on every form. -/
def Obligations.PairWordResults : Prop :=
  ∀ (s : State) (w : Site) (op : HOp) (f : PairF), s.site? = some w → NoNanTrap w →
    ∃ t r, Gives (op.mk1 f) s t ∧ Committed w s t r ∧ PairIs w op f r ∧
      r.gstat = gstatAfter w (((w.lanes f.h1.g).any fun L => (pairOne w op f L).nanOut) ||
        (w.lanes f.h2.g).any fun L => (pairTwo w op f L).nanOut)

/-- REDUX gives every active lane of a tile the root of the tree of 22 R401 over the tile's active lanes, and SCAN gives it the
combination of the active lanes of its tile up to and including it, or with .EXCL the start value combined with those below it, for
every operation of 22 Table 22-22: ADD, FADD, MIN, MAX, AND, OR and XOR. The words complete, with every other lane and register as it
was. NAN_SEEN is set when an active lane's combination produced a NaN, and the integer and logic operations set no flag. -/
def Obligations.ReduceWordResults : Prop :=
  (∀ (s : State) (w : Site), s.site? = some w → NoNanTrap w →
    (∀ f : LaneOp, WritesFloat (.redux f) s w f.g false f.d false 0 (reduxRes w f)) ∧
    (∀ f : ScanF, WritesFloat (.scan f) s w f.g false f.d false 0 (scanRes w f))) ∧
  ∀ (s : State) (w : Site), s.site? = some w →
    (∀ f : LaneOp, f.ty ≠ .f32 → f.op ≠ .fadd → ∃ t r, Gives (.redux f) s t ∧ Committed w s t r ∧ r.gstat = w.g.r.gstat ∧
      ∀ L, L < 32 → (w.active f.g).getLsbD L = true → r.rdV f.d.toNat L = BitVec.ofNat 32 (reduxRes w f L).bits) ∧
    (∀ f : ScanF, f.ty ≠ .f32 → f.op ≠ .fadd → ∃ t r, Gives (.scan f) s t ∧ Committed w s t r ∧ r.gstat = w.g.r.gstat ∧
      ∀ L, L < 32 → (w.active f.g).getLsbD L = true → r.rdV f.d.toNat L = BitVec.ofNat 32 (scanRes w f L).bits)

/-! ### Conversion words -/

/-- CVTD and UNPK, on the formats that they accept, write the value of each active lane's element, and CVTD counts the bad
ternary codes of its active lanes in AMAXST of the slot (20 R342, 23 R440, 05 R107). CVTQ writes the block scale to lane 0 of C and the
quantised element of each active lane to D, and PACK puts two converted elements at POS of each active lane's D and keeps its other
bits; both fold the magnitudes that they read into AMAX of a slot with AMAXEN (05 R116, R117, 20 R343, 22 R395). Under SR of the slot an
active lane's LFSR makes one step, for PACK two, and none in E8M0; NAN_SEEN follows what was produced, and for PACK also what was read
(05 R109, R122). -/
def Obligations.PackedFormatResults : Prop :=
  (∀ (s : State) (w : Site), s.site? = some w → NoNanTrap w →
     (∀ f : UnpkF, narrowAccepts (w.fslot s f.slot).fmt = true → f.idx.toNat < 32 / fmtWidth (w.fslot s f.slot).fmt →
       WritesFloat (.unpk f) s w f.g false f.d false 0 fun L =>
         let n := fmtWidth (w.fslot s f.slot).fmt
         fmtF32.round .rne w.mode.ftz 0 (elemValue (w.fslot s f.slot).fmt w.mode.daz
           ((w.val32 false f.a L).toNat / 2 ^ (n * f.idx.toNat) % 2 ^ n))) ∧
     (∀ f : CvtdF, blockAccepts (w.fslot s f.slot).fmt = true → w.g.spec = none →
       ∃ t r, Gives (.cvtd f) s t ∧ Committed w (countsBad s w f) t r ∧ CvtdIs s w f r ∧
         r.gstat = gstatAfter w ((w.lanes f.g).any fun L =>
           (dequant (w.fslot s f.slot) w.mode.ftz (w.g.r.draw L) ((w.val32 f.bu f.b 0).toNat % 256)
             ((w.val32 false f.a L).toNat % 2 ^ fmtWidth (w.fslot s f.slot).fmt)).nanOut))) ∧
  (∀ (s : State) (w : Site), s.site? = some w → NoNanTrap w → w.g.spec = none →
     (∀ f : CvtqF, blockAccepts (w.fslot s f.slot).fmt = true →
       let xs := (List.range 32).map (cvtqIn w f)
       ∃ t r, Gives (.cvtq f) s t ∧ Committed w (foldsAmax s w f.slot xs) t r ∧ CvtqIs s w f r ∧
         r.gstat = gstatAfter w (xs.any FVal.isNan)) ∧
     (∀ f : PackF, narrowAccepts (w.fslot s f.slot).fmt = true →
       f.pos.toNat < 16 / fmtWidth (w.fslot s f.slot).fmt →
       ∃ t r, Gives (.pack f) s t ∧ Committed w (foldsAmax s w f.slot (packIn w f)) t r ∧ PackIs s w f r ∧
         r.gstat = gstatAfter w (((w.lanes f.g).any fun L => (packRes s w f L).1.nanOut || (packRes s w f L).2.nanOut) ||
           (w.lanes f.g).any fun L => (packRes s w f L).1.nanIn || (packRes s w f L).2.nanIn)))

/-- CVTD, CVTQ, UNPK and PACK through a format slot that they do not accept, or at an element that a register does not hold, raise
ILLEGAL and write nothing (20 R342, R343, 22 R395, 23 R440, 14 R250). -/
def Obligations.ConversionFaults : Prop :=
  ∀ (s : State) (w : Site), s.site? = some w → w.blocked = false →
    (∀ f : CvtdF, blockAccepts (w.fslot s f.slot).fmt = false → ∃ t, Gives (.cvtd f) s t ∧ Faulted w s t .illegal 0) ∧
    (∀ f : CvtqF, blockAccepts (w.fslot s f.slot).fmt = false → ∃ t, Gives (.cvtq f) s t ∧ Faulted w s t .illegal 0) ∧
    (∀ f : UnpkF, narrowAccepts (w.fslot s f.slot).fmt = false ∨ 32 / fmtWidth (w.fslot s f.slot).fmt ≤ f.idx.toNat →
      ∃ t, Gives (.unpk f) s t ∧ Faulted w s t .illegal 0) ∧
    (∀ f : PackF, narrowAccepts (w.fslot s f.slot).fmt = false ∨ 16 / fmtWidth (w.fslot s f.slot).fmt ≤ f.pos.toNat →
      ∃ t, Gives (.pack f) s t ∧ Faulted w s t .illegal 0)

/-- AMAXRD reads both registers of a slot, with the updates that its own speculative window holds, where the window notes what it found
in the nest (log entry 23), and, with CLR, sets them to zero in the nest; FMODE writes a legal FPM and raises
ILLEGAL on any other; SEED writes the LFSRs of its active lanes, and a zero seed gives 32 × group + lane + 1 (20 R310, 21 R357,
22 R407, 03 Table 3-3). -/
def Obligations.ModeAndSeedResults : Prop :=
  ∀ (s : State) (w : Site), s.site? = some w →
    (∀ (f : AmaxrdF) (x : Nest), s.nests.find? w.tm.nest = some x →
      ∃ t, ∃ r : GroupRegs, Gives (.amaxrd f) s t ∧
        (let s1 := if f.clr then s.updNest w.tm.nest fun x =>
          { x with amax := listUpd (fun _ => 0) f.slot.toNat x.amax,
                   amaxst := listUpd (fun _ => 0) f.slot.toNat x.amaxst } else s
         let y := w.g.count w.slot false w.skid
         OnlyGroup s1 t w.team w.grp w.tm { y with
           r := r.advance w.slot
           spec := y.spec.map fun win => { win with amaxRead := win.amaxRead ++
             [(f.slot.toNat, x.amax.getD f.slot.toNat 0, x.amaxst.getD f.slot.toNat 0)] } }) ∧
        (let held := (w.g.spec.elim [] (·.amax)).filter fun u => u.slotNo == f.slot.toNat
         let seen := held.foldl (fun r u => amaxMerge r.1 r.2 u.mag u.inf u.bad)
           (x.amax.getD f.slot.toNat 0, x.amaxst.getD f.slot.toNat 0)
         r.rdS f.d.toNat = seen.1 ∧ r.rdS (f.d.toNat + 1) = seen.2) ∧
        (∀ n, n ≠ f.d.toNat → n ≠ f.d.toNat + 1 → r.rdS n = w.g.r.rdS n) ∧ r = { w.g.r with s := r.s }) ∧
    (∀ f : FmodeF,
      (let m : W32 := match f with
         | .imm m => m.setWidth 32
         | .reg a => w.g.r.rdS a.toNat
       (fpmOk m = true → ∃ t, Gives (.fmode f) s t ∧ Committed w s t { w.g.r with fpm := m }) ∧
       (fpmOk m = false → w.blocked = false → ∃ t, Gives (.fmode f) s t ∧ Faulted w s t .illegal 0))) ∧
    (∀ f : GA, ∃ t r, Gives (.seed f) s t ∧ Committed w s t r ∧ r = { w.g.r with lfsr := r.lfsr } ∧
      ∀ L, L < 32 → r.draw L =
        if (w.active f.g).getLsbD L then
          (if w.g.r.rdV f.a.toNat L = 0 then BitVec.ofNat 32 (32 * w.grp + L + 1) else w.g.r.rdV f.a.toNat L)
        else w.g.r.draw L)

/-! ### Results that land, rendezvous slots -/

/-- LONG_LATENCY_RESULT writes the registers of an outstanding word whose value is known, makes it no longer outstanding,
and changes no other group and no memory (04 R80). RENDEZVOUS_SERVE serves the waiter whose turn has come: the first
receiver of a full slot has its data and the slot is empty; the first sender of an empty slot fills it and goes on (02 R45,
23 R445). ITEMQ_PUSH_SERVED appends the first waiting push of a team once there is room, and its slot goes on (02 R42, 21
R366). -/
def Obligations.ResultsAndQueuesServed : Prop :=
  (∀ (s : State) (team grp id : Nat) (tm : Team) (g : Group) (p : Pending),
     s.teams.find? team = some tm → tm.groups[grp]? = some g → g.pending? id = some p → p.kind = .value →
     g.w0 ≠ some .atEnd → g.w1 ≠ some .atEnd →
     ∃ t x, Gives (.longLatencyResult team grp id) s t ∧ OnlyGroup s t team grp tm x ∧
       x.r = g.r.applyWrites p.writes ∧ (∀ q ∈ x.pend, q.id = id → q.out = false) ∧
       x = { g with r := x.r, pend := x.pend }) ∧
  ((∀ (s : State) (team slotNo : Nat) (tm : Team), s.teams.find? team = some tm → tm.phase = .running →
      (∀ grp id g p d, (tm.rdvSlot slotNo).turn? = some (.recv grp id) → tm.groups[grp]? = some g →
        g.pending? id = some p → p.kind = .recv slotNo d →
        ∃ t tm', Gives (.rendezvousServe team slotNo) s t ∧ t.teams.find? team = some tm' ∧
          (tm'.rdvSlot slotNo).full = false ∧
          ∃ g', tm'.groups[grp]? = some g' ∧ ∃ p', g'.pending? id = some p' ∧ p'.kind = .value ∧
            p'.writes = (List.range 32).map fun L => .v d L ((tm.rdvSlot slotNo).data.getD L 0)) ∧
      (∀ grp b a w, (tm.rdvSlot slotNo).turn? = some (.send grp b a) → s.siteAt team grp b = some w →
        ∃ t tm', Gives (.rendezvousServe team slotNo) s t ∧ t.teams.find? team = some tm' ∧
          (tm'.rdvSlot slotNo).full = true ∧
          (tm'.rdvSlot slotNo).data = ((List.range 32).map fun L => w.g.r.rdV a L) ∧
          ∃ g', tm'.groups[grp]? = some g' ∧ g'.r = w.g.r.advance b ∧ g'.wait b = none)) ∧
   (∀ (s : State) (team : Nat) (tm : Team) (p : ItemPush) (rest : List ItemPush) (w : Site),
      s.teams.find? team = some tm → tm.phase = .running → tm.itemWait = p :: rest →
      s.siteAt team p.grp p.slot = some w → tm.itemq.length + p.items.length ≤ 1024 →
      ∃ t tm' g, Gives (.itemqPushServed team) s t ∧ t.teams.find? team = some tm' ∧
        tm'.itemq = tm.itemq ++ p.items ∧ tm'.itemWait = rest ∧ tm'.groups[p.grp]? = some g ∧
        g.r = w.g.r.advance p.slot ∧ g.wait p.slot = none ∧ t.m = s.m))

/-! ### Control words -/

/-- BRA moves the whole slot when every lane passes the guard, falls through when none does, and otherwise splits: the lanes
that do not pass go on in the slot, and those that pass take the other slot when it is empty, else become a path on top of
the join stack (20 R330, R331, 02 R37). BRAU tests its s register (20 R332). CALL pushes the address of the next word and
goes to its target, RET goes to the address on top of the call stack and removes it, NOP moves on, REP sets the slot's REPC
from its fields, MJOIN puts a mark on the join stack, and YIELD records the depth of the join stack when its slot is alone
(20 R335, 22 R374, R391, R402, R403, 23 R446, 02 R47). -/
def Obligations.ControlWords : Prop :=
  (∀ (s : State) (w : Site), s.site? = some w →
     (∀ f : BraF,
       (let t := w.active f.g
        let dest := w.pc + 8 + (f.off.signExtend 64 <<< 3)
        (t = w.mask → ∃ u, Gives (.bra f) s u ∧ CommittedCtl w s u (w.g.r.setSlot w.slot { w.ps with pc := dest })) ∧
        (t = 0 → ∃ u, Gives (.bra f) s u ∧ CommittedCtl w s u (w.g.r.advance w.slot)) ∧
        (t ≠ 0 → t ≠ w.mask → (w.g.r.slot (!w.slot)).live = false → ∃ u, Gives (.bra f) s u ∧
          CommittedCtl w s u ((w.g.r.setSlot w.slot ⟨w.pc + 8, w.mask &&& ~~~t, 0⟩).setSlot (!w.slot) ⟨dest, t, 0⟩)) ∧
        (t ≠ 0 → t ≠ w.mask → (w.g.r.slot (!w.slot)).live = true → w.g.r.join.length < 256 → ∃ u, Gives (.bra f) s u ∧
          CommittedCtl w s u { w.g.r.setSlot w.slot ⟨w.pc + 8, w.mask &&& ~~~t, 0⟩ with
            join := .path dest t :: w.g.r.join }) ∧
        (t ≠ 0 → t ≠ w.mask → (w.g.r.slot (!w.slot)).live = true → 256 ≤ w.g.r.join.length → w.blocked = false →
          ∃ u, Gives (.bra f) s u ∧ Faulted w s u .illegal 0))) ∧
     (∀ f : BrauF,
       (let dest := w.pc + 8 + (f.off.signExtend 64 <<< 3)
        ∃ u, Gives (.brau f) s u ∧ CommittedCtl w s u
          (if (w.g.r.rdS f.a.toNat = 0 ↔ f.eq = true) then w.g.r.setSlot w.slot { w.ps with pc := dest }
           else w.g.r.advance w.slot)))) ∧
  (∀ (s : State) (w : Site), s.site? = some w →
     (∀ f : Off, w.otherLive = false → w.g.r.calls.length < 256 → ∃ u, Gives (.call f) s u ∧
       CommittedCtl w s u { w.g.r.setSlot w.slot { w.ps with pc := w.pc + 8 + (f.off.signExtend 64 <<< 3) } with
         calls := (w.pc + 8) :: w.g.r.calls }) ∧
     (∀ pc rest, w.otherLive = false → w.g.r.calls = pc :: rest → ∃ u, Gives .ret s u ∧
       CommittedCtl w s u { w.g.r.setSlot w.slot { w.ps with pc := pc } with calls := rest }) ∧
     (∀ g, ∃ u, Gives (.nop g) s u ∧ CommittedCtl w s u (w.g.r.advance w.slot)) ∧
     (∀ f : RepF, ∃ u x, Gives (.rep f) s u ∧
       CommittedCtl w s u (w.g.r.setSlot w.slot { w.ps with pc := w.pc + 8, repc := x }) ∧
       repcLeft x = f.n.toNat + 1 ∧ repcDone x = 0 ∧ repcStrides x = f.sd ++ f.sa ++ f.sb ++ f.sc) ∧
     (∀ f : Off, w.g.r.join.length < 256 → ∃ u, Gives (.mjoin f) s u ∧
       CommittedCtl w s u { w.g.r.advance w.slot with
         join := .mark (w.pc + 8 + (f.off.signExtend 64 <<< 3)) w.mask 0 w.slot :: w.g.r.join }) ∧
     (w.g.t.inh = false → (w.g.r.slot (!w.slot)).live = false → ∃ u, Gives .yieldw s u ∧
       CommittedCtl w s u { w.g.r.advance w.slot with yieldDepth := w.g.r.join.length }) ∧
     (w.g.t.inh = true ∨ (w.g.r.slot (!w.slot)).live = true → ∃ u, Gives .yieldw s u ∧
       CommittedCtl w s u (w.g.r.advance w.slot)))

/-- A full call stack, an empty one, and a full join stack raise ILLEGAL at CALL, RET and MJOIN (20 R335, 22 R374, R403); CALL and
RET in a slot beside a live one wait. JOIN raises ILLEGAL when no mark shares a lane with the slot, and when the topmost mark that
does has another rejoin address (21 R367). -/
def Obligations.ControlFaults : Prop :=
  (∀ (s : State) (w : Site), s.site? = some w →
     (∀ f : Off, w.otherLive = false → 256 ≤ w.g.r.calls.length → w.blocked = false →
       ∃ u, Gives (.call f) s u ∧ Faulted w s u .illegal 0) ∧
     (w.otherLive = false → w.g.r.calls = [] → w.blocked = false → ∃ u, Gives .ret s u ∧ Faulted w s u .illegal 0) ∧
     (∀ f : Off, 256 ≤ w.g.r.join.length → w.blocked = false → ∃ u, Gives (.mjoin f) s u ∧ Faulted w s u .illegal 0) ∧
     (∀ f : Off, w.otherLive = true → Gives (.call f) s s) ∧ (w.otherLive = true → Gives .ret s s)) ∧
  (∀ (s : State) (w : Site), s.site? = some w → w.blocked = false →
     ((∀ x ∈ w.g.r.join, ∀ pc e a b, x = .mark pc e a b → e &&& w.mask = 0) →
       ∃ t, Gives .joinw s t ∧ Faulted w s t .illegal 0) ∧
     (∀ pc e a b rest, w.g.r.join = .mark pc e a b :: rest → (e &&& w.mask) ≠ 0 → pc ≠ w.pc →
       ∃ t, Gives .joinw s t ∧ Faulted w s t .illegal 0))

/-- JOIN at the rejoin address of the topmost mark that shares a lane with the slot adds the slot's lanes to the mark's arrived
lanes and empties the slot; when they are all the lanes that the mark expects, the mark goes and the lanes go on after the JOIN
in the slot (02 R37, 21 R367), and what either slot had accessed before its arrival and has not performed comes before the words of
both (02 R38). -/
def Obligations.JoinWord : Prop :=
  ∀ (s : State) (w : Site) (e a : W32) (b : Bool) (rest : List JoinEntry), s.site? = some w →
    w.g.w0 ≠ some .atEnd → w.g.w1 ≠ some .atEnd →
    w.g.r.join = .mark w.pc e a b :: rest → (e &&& w.mask) ≠ 0 →
    (e = a ||| w.mask → rest.all (fun x => !x.complete) = true →
      ((w.g.r.slot (!w.slot)).live = true ∨ ∀ p m l, rest ≠ .path p m :: l) →
      ∃ t g, Gives .joinw s t ∧ OnlyGroup s t w.team w.grp w.tm g ∧
        g.r.join = rest ∧ g.r.slot w.slot = ⟨w.pc + 8, a ||| w.mask, 0⟩ ∧
        g.r.v = w.g.r.v ∧ g.r.s = w.g.r.s ∧ g.r.p = w.g.r.p ∧ g.r.exited = w.g.r.exited ∧
        ∀ p ∈ w.g.pend, p.unperformed = true → (p.slot = w.slot ∧ p.joined = none) ∨ p.joined = some w.pc →
          ∃ q ∈ g.pend, q.id = p.id ∧ q.kind = p.kind ∧ q.both = true) ∧
    (e ≠ a ||| w.mask → rest.all (fun x => !x.complete) = true →
      ∃ t g, Gives .joinw s t ∧ OnlyGroup s t w.team w.grp w.tm g ∧
        g.r.join = .mark w.pc e (a ||| w.mask) w.slot :: rest ∧ (g.r.slot w.slot).mask = 0 ∧
        g.r.slot (!w.slot) = w.g.r.slot (!w.slot) ∧
        g.r.v = w.g.r.v ∧ g.r.s = w.g.r.s ∧ g.r.p = w.g.r.p ∧ g.r.exited = w.g.r.exited)

/-- EXIT with no active lane moves on; with some, its lanes leave the slot, every mark's expected lanes and join the exited lanes,
and the slot goes on with the others (21 R346, 02 R37). An EXIT that leaves the group no lane resumes it at its loop head, where
LOOPH gives the exited lanes the items of the queue, or with an empty queue takes its label with all of them (02 R43, R44). END
with every result written ends the group when its slot is alone or the other slot waits at END, and waits for the other slot
otherwise; in a handler it raises ILLEGAL (21 R344). -/
def Obligations.ExitAndEndWords : Prop :=
  (∀ (s : State) (w : Site) (g : Guard), s.site? = some w →
     (w.active g = 0 → ∃ t, Gives (.exitw g) s t ∧ CommittedCtl w s t (w.g.r.advance w.slot)) ∧
     (w.active g ≠ 0 → w.active g ≠ w.mask → w.g.r.join = [] → w.g.w0 ≠ some .atEnd → w.g.w1 ≠ some .atEnd →
       ∃ t, Gives (.exitw g) s t ∧ CommittedCtl w s t
         { w.g.r.setSlot w.slot ⟨w.pc + 8, w.mask &&& ~~~(w.active g), w.ps.repc⟩ with
           exited := w.g.r.exited ||| w.active g }) ∧
     (w.active g = w.mask → w.g.t.inh = false → w.g.pend = [] → w.g.r.join = [] → w.g.r.loopHead = none →
       (w.g.r.slot (!w.slot)).live = false → ∃ t x, Gives (.exitw g) s t ∧ OnlyGroup s t w.team w.grp w.tm x ∧
         x.st.ended = true ∧ x.st.endPc = w.pc ∧ x.r.exited = w.g.r.exited ||| w.mask ∧
         (x.r.slot false).mask = 0 ∧ (x.r.slot true).mask = 0) ∧
     (∀ head word f, w.active g = w.mask → w.g.pend = [] → w.g.r.join = [] → w.g.r.loopHead = some head →
       (w.g.r.slot (!w.slot)).live = false → s.fetch w.core w.ctx head = .ok word →
       decodeFor w.tm.shape.vregs word = .ok (.looph f) →
       (let out := w.g.r.exited ||| w.mask
        let ls := ((List.range 32).filter fun L => out.getLsbD L).take w.tm.itemq.length
        ∃ t tm x, Gives (.exitw g) s t ∧ t.teams.find? w.team = some tm ∧ tm.itemq = w.tm.itemq.drop ls.length ∧
          tm.groups[w.grp]? = some x ∧ x.r.loopHead = some head ∧
          (w.tm.itemq = [] → x.r.slot w.slot = ⟨head + 8 + (f.off.signExtend 64 <<< 3), out, 0⟩ ∧ x.r.exited = 0) ∧
          (w.tm.itemq ≠ [] → (x.r.slot w.slot).pc = head + 8 ∧
            (∀ L, L < 32 → (x.r.slot w.slot).mask.getLsbD L = ls.contains L) ∧
            (∀ L, L < 32 → x.r.exited.getLsbD L = (out.getLsbD L && !ls.contains L)) ∧
            ∀ (k L : Nat) (v : W32), ls[k]? = some L → w.tm.itemq[k]? = some v → x.r.rdV f.d.toNat L = v)))) ∧
  (∀ (s : State) (w : Site), s.site? = some w → w.g.pend = [] →
     (w.g.t.inh = false → (w.g.r.slot (!w.slot)).live = false ∨ w.g.wait (!w.slot) = some .atEnd →
       ∃ t x, Gives .endw s t ∧ OnlyGroup s t w.team w.grp w.tm x ∧ x.st.ended = true ∧ x.st.endPc = w.pc ∧
         x.r.join = [] ∧ x.r.calls = [] ∧ (x.r.slot false).mask = 0 ∧ (x.r.slot true).mask = 0 ∧
         x.r.v = w.g.r.v ∧ x.r.s = w.g.r.s ∧ x.r.p = w.g.r.p) ∧
     (w.g.t.inh = false → (w.g.r.slot (!w.slot)).live = true → w.g.wait (!w.slot) ≠ some .atEnd →
       ∃ t x, Gives .endw s t ∧ OnlyGroup s t w.team w.grp w.tm x ∧ x = { w.g.setWait w.slot (some .atEnd) with
           st := if w.skid then { w.g.st with skid := w.g.st.skid + 1 } else w.g.st }) ∧
     (w.g.t.inh = true → w.blocked = false → ∃ t, Gives .endw s t ∧ Faulted w s t .illegal 0))

/-- ITEMQ appends the items of its active lanes, lowest lane first, when there is room and no push waits, and otherwise
waits in order (02 R42, 21 R366). LOOPH gives items to exited lanes, lowest lane first, and its slot goes on with them (02 R43, 21
R372). XSEND into an empty slot that no sender waits for fills it with vA at once, and into a full one
waits in order; XRECV of a full slot that no receiver waits for empties it and has vD's 32 lanes outstanding, and of an
empty one waits in order (02 R45, 23 R445). ITEMQ and XSEND, which release, wait while an earlier access of their slot has not
performed (08 R159); that XRECV, which only acquires, waits likewise is log entry 70. -/
def Obligations.QueueWords : Prop :=
  (∀ (s : State) (w : Site), s.site? = some w → w.unperformed = true →
     (∀ f : GA, Gives (.itemq f) s s) ∧ (∀ f : XsendF, Gives (.xsend f) s s) ∧ (∀ f : XrecvF, Gives (.xrecv f) s s)) ∧
  (∀ (s : State) (w : Site), s.site? = some w →
     (∀ f : GA, w.unperformed = false →
       (let items := (w.lanes f.g).map fun L => w.g.r.rdV f.a.toNat L
        (items = [] → ∃ t, Gives (.itemq f) s t ∧ CommittedCtl w s t (w.g.r.advance w.slot)) ∧
        (items ≠ [] → w.tm.itemWait = [] → w.tm.itemq.length + items.length ≤ 1024 → ∃ t tm, Gives (.itemq f) s t ∧
          t.teams.find? w.team = some tm ∧ tm.itemq = w.tm.itemq ++ items ∧
          ∃ g, tm.groups[w.grp]? = some g ∧ g.r = w.g.r.advance w.slot) ∧
        (items ≠ [] → w.tm.itemWait ≠ [] ∨ 1024 < w.tm.itemq.length + items.length → ∃ t tm, Gives (.itemq f) s t ∧
          t.teams.find? w.team = some tm ∧ tm.itemq = w.tm.itemq ∧
          tm.itemWait = w.tm.itemWait ++ [⟨w.grp, w.slot, items⟩] ∧
          ∃ g, tm.groups[w.grp]? = some g ∧ g.r = w.g.r ∧ g.wait w.slot = some .itemq))) ∧
     (∀ f : LoophF,
       (let ls := ((List.range 32).filter fun L => w.g.r.exited.getLsbD L).take w.tm.itemq.length
        ∃ t tm g, Gives (.looph f) s t ∧ t.teams.find? w.team = some tm ∧ tm.itemq = w.tm.itemq.drop ls.length ∧
          tm.groups[w.grp]? = some g ∧ g.r.loopHead = some w.pc ∧
          (∀ (k L : Nat) (x : W32), ls[k]? = some L → w.tm.itemq[k]? = some x → g.r.rdV f.d.toNat L = x) ∧
          (∀ n L, L < 32 → n ≠ f.d.toNat ∨ L ∉ ls → g.r.rdV n L = w.g.r.rdV n L) ∧
          (g.r.slot w.slot).pc = w.pc + 8 ∧ (g.r.slot w.slot).repc = 0 ∧
          (∀ L, L < 32 → (g.r.slot w.slot).mask.getLsbD L = (w.mask.getLsbD L || ls.contains L)) ∧
          (∀ L, L < 32 → g.r.exited.getLsbD L = (w.g.r.exited.getLsbD L && !ls.contains L)) ∧
          g.r.s = w.g.r.s ∧ g.r.p = w.g.r.p))) ∧
  (∀ (s : State) (w : Site), s.site? = some w → w.unperformed = false →
     (∀ f : XsendF,
       (let x := w.tm.rdvSlot f.slot.toNat
        (x.full = false → (∀ y ∈ x.waiters, y.isSend = false) → ∃ t, Gives (.xsend f) s t ∧
          t.m = s.m ∧ ∃ tm, t.teams.find? w.team = some tm ∧
            tm.rdvSlot f.slot.toNat = ⟨true, (List.range 32).map fun L => w.g.r.rdV f.a.toNat L, x.waiters⟩ ∧
            ∃ g, tm.groups[w.grp]? = some g ∧ g.r = w.g.r.advance w.slot) ∧
        (x.full = true ∨ (∃ y ∈ x.waiters, y.isSend = true) → ∃ t, Gives (.xsend f) s t ∧
          t.m = s.m ∧ ∃ tm, t.teams.find? w.team = some tm ∧
            tm.rdvSlot f.slot.toNat = { x with waiters := x.waiters ++ [.send w.grp w.slot f.a.toNat] } ∧
            ∃ g, tm.groups[w.grp]? = some g ∧ g.r = w.g.r ∧ g.wait w.slot = some (.xsend f.slot.toNat f.a.toNat)))) ∧
     (∀ f : XrecvF,
       (let x := w.tm.rdvSlot f.slot.toNat
        (x.full = true → (∀ y ∈ x.waiters, y.isSend = true) → ∃ t, Gives (.xrecv f) s t ∧
          t.m = s.m ∧ ∃ tm, t.teams.find? w.team = some tm ∧ (tm.rdvSlot f.slot.toNat).full = false ∧
            ∃ g, tm.groups[w.grp]? = some g ∧ g = PostedGroup w f.la (.xrecv f) .value
              ((List.range 32).map fun L => .v f.d.toNat L (x.data.getD L 0)) 0) ∧
        (x.full = false ∨ (∃ y ∈ x.waiters, y.isSend = false) → ∃ t, Gives (.xrecv f) s t ∧
          t.m = s.m ∧ ∃ tm, t.teams.find? w.team = some tm ∧
            tm.rdvSlot f.slot.toNat = { x with waiters := x.waiters ++ [.recv w.grp w.g.nextId] } ∧
            ∃ g, tm.groups[w.grp]? = some g ∧
              g = PostedGroup w f.la (.xrecv f) (.recv f.slot.toNat f.d.toNat) [] 0))))


/-! ### Memory -/

/-- A write of bytes of a line at its home is what a read under the same key id then gives in those bytes, and every other byte,
in that line and in every other, reads as before (15 R276, R277, 00 R4). -/
def Obligations.HomeWriteReads : Prop :=
  ∀ (s : State) (line key : Nat) (mask : BitVec 128) (data : BitVec 1024),
    (∀ pa, lineOf pa = line → (s.writeHome line key mask data).homeByte key pa =
      if mask.getLsbD (pa % 128) then lineByte data (pa % 128) else s.homeByte key pa) ∧
    (∀ pa k, lineOf pa ≠ line → (s.writeHome line key mask data).homeByte k pa = s.homeByte k pa)

/-- LD and LDU outside a speculative window, with every active lane aligned and translated, post for each active lane the registers
that the bytes it reads spell, low address first: those that its core reads, or the slice for an ordered load of cluster scope or
wider. The registers of a load of n bytes are one register, zero-extended, below 4 bytes, and n ÷ 4 from 4 on, low word first (21 R368
to R370, 04 R73, R80, 08 R149, R159). That the bytes are those of the moment at which the word issues is the model's choice: log
entries 5 and 7. -/
def Obligations.LoadWords : Prop :=
  (∀ (s : State) (w : Site) (ph : Nat → Phys), s.site? = some w → w.unperformed = false → w.g.spec = none →
     (∀ f : LoadF, NoClipTrap s w f.scope →
       (let hit := loadHit s w f.scope f.ord f.sz.bytes
        (∀ L ∈ w.lanes f.g, w.devPhysIf s .read hit f.sz.bytes (w.devAddr f.as f.a f.off L) = .ok (ph L)) →
        w.rejects s (missLines hit ((w.lanes f.g).map ph)).length = false →
        (f.ord = .acq → 3 ≤ w.scopeRun s f.scope → s.heldElsewhere w.core ((w.lanes f.g).map ph) = false) →
        Loads (.ld f) s w f.la (w.lanes f.g) false f.d f.sz.bytes f.scope f.ord ph)) ∧
     (∀ f : LduF, NoClipTrap s w f.scope →
       (let hit := loadHit s w f.scope f.ord f.sz.bytes
        w.devPhysIf s .read hit f.sz.bytes (w.devAddr true f.a f.off 0) = .ok (ph 0) →
        w.rejects s (missLines hit [ph 0]).length = false →
        (f.ord = .acq → 3 ≤ w.scopeRun s f.scope → s.heldElsewhere w.core [ph 0] = false) →
        Loads (.ldu f) s w f.la [0] true f.d f.sz.bytes f.scope f.ord ph))) ∧
  (∀ (r : GroupRegs) (d L : Nat) (b : List Byte), L < 32 →
     (b.length = 1 ∨ b.length = 2 ∨ b.length = 4 →
       ∀ n, (r.applyWrites (loadWrites false d b.length L b)).rdV n L =
         if n = d then BitVec.ofNat 32 (bytesToNat b) else r.rdV n L) ∧
     (b.length = 8 ∨ b.length = 16 →
       ∀ n, (r.applyWrites (loadWrites false d b.length L b)).rdV n L =
         if d ≤ n ∧ n < d + b.length / 4 then BitVec.ofNat 32 (bytesToNat b / 2 ^ (32 * (n - d))) else r.rdV n L) ∧
     (∀ n M, M < 32 → M ≠ L → (r.applyWrites (loadWrites false d b.length L b)).rdV n M = r.rdV n M))

/-- An access whose address is not a multiple of its size raises MISALIGN with that address, and one that does not translate the
cause of its failure, for the lowest lane that fails; nothing is loaded or stored (04 R73, R99, R100, 14 Table 14-1). -/
def Obligations.AccessFaults : Prop :=
  (∀ (s : State) (w : Site) (c : Cause) (x : W64), s.site? = some w → w.unperformed = false → w.blocked = false →
    (∀ (f : LoadF) (n L : Nat) (low rest : List Nat), w.lanes f.g = low ++ L :: rest → f.sz.bytes = n →
      (let check := fun M => w.devPhysIf s .read (loadHit s w f.scope f.ord n) n (w.devAddr f.as f.a f.off M)
       (∀ M ∈ low, ∃ y, check M = .ok y) → check L = .error (c, x) → ∃ t, Gives (.ld f) s t ∧ Faulted w s t c x)) ∧
    (∀ (f : StoreF) (n L : Nat) (low rest : List Nat), w.lanes f.g = low ++ L :: rest → f.sz.bytes = n →
      (let check := fun M => w.devPhysIf s .write (storeHit s w f.scope f.ord) n (w.devAddr f.as f.a f.off M)
       (∀ M ∈ low, ∃ y, check M = .ok y) → check L = .error (c, x) → ∃ t, Gives (.st f) s t ∧ Faulted w s t c x)) ∧
    (∀ (f : AtomF) (n L : Nat) (low rest : List Nat), w.lanes f.g = low ++ L :: rest → f.sz.bytes = n →
      (∀ M ∈ low, ∃ y, w.devPhys s .write n (w.devAddr f.as f.a f.off M) = .ok y ∧ y.host = false) →
      w.devPhys s .write n (w.devAddr f.as f.a f.off L) = .error (c, x) →
      ∃ t, Gives (.atom f) s t ∧ Faulted w s t c x) ∧
    (∀ (f : StoreF) (n L : Nat) (low rest : List Nat), w.lanes f.g = low ++ L :: rest → f.sz.bytes = n →
      (∀ M ∈ low, ∃ y, w.padPhys s n (w.padAddr f.as f.a f.off M) = .ok y) →
      w.padPhys s n (w.padAddr f.as f.a f.off L) = .error (c, x) →
      ∃ t, Gives (.sts f) s t ∧ Faulted w s t c x)) ∧
  ∀ (s : State) (w : Site) (mode : Mode) (hit : Phys → Bool) (n : Nat) (va : W64),
    (va.toNat % n ≠ 0 → w.devPhysIf s mode hit n va = .error (.misalign, va)) ∧
    (va.toNat % n = 0 → 2 ^ 48 ≤ va.toNat → w.devPhysIf s mode hit n va = .error (.xlateNp, va))

/-- ST outside a speculative window, once what it releases or performs through has left: to package memory, with its lanes under
one cache policy and room in L1 for their lines, its core then reads in every byte what the highest lane stored there, every other
byte as before, and no byte has changed at its home yet; in the host window the bytes stand at their home at once. No register
changes (23 R433 to R435, 08 R149, R150, R159, R164, R167). That a store performs at its issue, the room of an L1, and the host
window are log entries 5, 10 and 16. -/
def Obligations.StoreWord : Prop :=
  ∀ (s s1 : State) (w : Site) (f : StoreF) (ph : Nat → Phys), s.site? = some w → w.unperformed = false →
    w.g.spec = none → NoClipTrap s w f.scope → StoreReady s w f ((w.lanes f.g).map ph) s1 →
    (∀ L ∈ w.lanes f.g, w.devPhysIf s .write (storeHit s w f.scope f.ord) f.sz.bytes (w.devAddr f.as f.a f.off L) = .ok (ph L) ∧
      (ph L).repl = false ∧ ∀ c ∈ s.m.collapses, c.holds (ph L).pa = false) →
    (let n := f.sz.bytes
     let lanes := w.lanes f.g
     let sc := w.scopeRun s f.scope
     (holderScope (w.relScope f.ord sc) = true →
       s.heldElsewhere w.core ((lanes.map ph).filter fun x => x.cp == 0) = false) →
     (∀ cp, (∀ L ∈ lanes, (ph L).host = false ∧ (ph L).cp = cp ∧ (ph L).key < 256 ∧
         s1.rewritten (lineOf (ph L).pa) = false) →
       w.rejects s (missLines (fun x => (s.l1Line? w.core x).isSome) (if cp = 0 then lanes.map ph else [])).length = false →
       (cp = 0 → (s1.m.l1Of w.core).length + lanes.length ≤ s1.l1Lines w.core) →
       (f.ord ≠ .plain → 3 ≤ sc → (s1.m.l1Of w.core).sorted = true ∧ ∀ L ∈ lanes, ∀ l,
         (s1.m.l1Of w.core).find? (l1Key (lineOf (ph L).pa) (ph L).key) = some l → l.unwritable = false ∧ l.dirty = 0 ∧ l.key = (ph L).key) →
       ∃ t g, Gives (.st f) s t ∧ t = { s1 with m := t.m, basins := t.basins, teams := t.teams } ∧
         (∀ key pa, t.homeByte key pa = s1.homeByte key pa) ∧
         (∀ x : Phys, x.cp = cp → x.host = false → x.repl = false → x.key < 256 → t.coreByte w.core x 0 =
           (lastByte (lanes.filter fun L => (ph L).key == x.key) (fun L => (ph L).pa)
             (fun L => w.storeData f.b n L) x.pa).getD (s1.coreByte w.core x 0)) ∧
         t.group? w.team w.grp = some g ∧ g.r = clipRegs s w f.scope (w.g.r.advance w.slot) ∧
         ((∀ p ∈ w.g.pend, p.unperformed = false) → g = { w.g.count w.slot false w.skid with r := g.r })) ∧
     ((∀ L ∈ lanes, (ph L).host = true) → ∃ t g, Gives (.st f) s t ∧
       (∀ key pa, t.homeByte key pa =
         (lastByte lanes (fun L => (ph L).pa) (fun L => w.storeData f.b n L) pa).getD (s1.homeByte key pa)) ∧
       t.group? w.team w.grp = some g ∧ g.r = clipRegs s w f.scope (w.g.r.advance w.slot)))

/-- LDS, with every active lane aligned, inside an allocation and present, posts the registers that the bytes of scratchpad
spell; STS writes there, in every byte, what the highest lane stores, and no other byte of any scratchpad or of memory; the lanes
of ATOMS act one after another, each posts the value that it finds, and their last value stays (20 R319, 21 R368, 23 R433, 08
R148, 03 R62). Where a line of one of them is absent, the word waits for it and does nothing else (08 R148). What LDS finds in a counted barrier object that an STS or ATOMS has written is a free value, and what ATOMS leaves in an
object is not said here (11 R226, log entry 25). That the value of LDS and ATOMS is that of the issue is log entry 7. -/
def Obligations.ScratchpadWords : Prop :=
  (∀ (s : State) (w : Site) (x : Nat → Nat × Nat) (i : Instr) (lanes : List Nat) (n : Nat), s.site? = some w →
     w.unperformed = false →
     ((∃ f : LoadF, i = .lds f ∧ lanes = w.lanes f.g ∧ n = f.sz.bytes ∧
         ∀ L ∈ lanes, w.padPhys s n (w.padAddr f.as f.a f.off L) = .ok (x L)) ∨
       (∃ f : StoreF, i = .sts f ∧ lanes = w.lanes f.g ∧ n = f.sz.bytes ∧
         ∀ L ∈ lanes, w.padPhys s n (w.padAddr f.as f.a f.off L) = .ok (x L)) ∨
       ∃ f : AtomF, i = .atoms f ∧ lanes = w.lanes f.g ∧ n = f.sz.bytes ∧
         ∀ L ∈ lanes, w.padPhys s n (w.padAddr f.as f.a f.off L) = .ok (x L)) →
     (∃ L ∈ lanes, s.padAbsent (x L).1 (x L).2 n = true) →
     ∃ t l, Gives i s t ∧ OnlyGroup s t w.team w.grp w.tm (w.g.setWait w.slot (some (.absent l))) ∧ l ≠ [] ∧
       ∀ y ∈ l, s.padAbsent y.1 (128 * y.2) 128 = true) ∧
  ∀ (s s1 : State) (w : Site) (x : Nat → Nat × Nat), s.site? = some w → w.unperformed = false → w.g.spec = none →
    (∀ f : LoadF,
      (∀ L ∈ w.lanes f.g, w.padPhys s f.sz.bytes (w.padAddr f.as f.a f.off L) = .ok (x L) ∧
        s.padAbsent (x L).1 (x L).2 f.sz.bytes = false) →
      (let writes := (w.lanes f.g).flatMap fun L =>
         loadWrites false f.d.toNat f.sz.bytes L ((s.padRead (x L).1 (x L).2 f.sz.bytes).mapIdx fun i b =>
           if s.spoiledAt (x L).1 ((x L).2 + i) then Config.freeByte s.tick (2 ^ 50 + (x L).2 + i) else b)
       ∃ t g p, Gives (.lds f) s t ∧ t.group? w.team w.grp = some g ∧ g.r = w.g.r.advance w.slot ∧
         g.pend.getLast? = some p ∧ p.kind = .value ∧ p.writes = writes ∧
         (f.ord ≠ .acq → Posted w s t f.la (.lds f) .value writes 0) ∧
         (f.ord = .acq → 2 ≤ f.scope.code → ∀ e ∈ t.m.l1Of w.core, e.2.dirty ≠ 0))) ∧
    (∀ f : StoreF,
      (∀ L ∈ w.lanes f.g, w.padPhys s f.sz.bytes (w.padAddr f.as f.a f.off L) = .ok (x L) ∧
        s.padAbsent (x L).1 (x L).2 f.sz.bytes = false) →
      Released s w (f.ord == .rel) f.scope.code s1 →
      ∃ t g, Gives (.sts f) s t ∧ t = { s1 with teams := t.teams, cores := t.cores } ∧
        (∀ k a, t.padRead k a 1 = [(lastByte ((w.lanes f.g).filter fun L => (x L).1 == k) (fun L => (x L).2)
          (fun L => w.storeData f.b f.sz.bytes L) a).getD ((s1.padRead k a 1).headD 0)]) ∧
        t.group? w.team w.grp = some g ∧ g.r = w.g.r.advance w.slot) ∧
    (∀ f : AtomF, f.sz = .b32 ∨ f.sz = .b64 →
      (∀ L ∈ w.lanes f.g, w.padPhys s f.sz.bytes (w.padAddr f.as f.a f.off L) = .ok (x L) ∧
        s.padAbsent (x L).1 (x L).2 f.sz.bytes = false) →
      Released s w (ordRel f.ord)
        (if (w.lanes f.g).any fun L => w.inPeer (w.padAddr f.as f.a f.off L) then max 2 f.scope.code else f.scope.code) s1 →
      (let n := f.sz.bytes
       let lanes := w.lanes f.g
       let first := fun L => bytesToNat (s1.padRead (x L).1 (x L).2 n)
       ∃ t g p, Gives (.atoms f) s t ∧
        (∀ k a, (∀ L ∈ lanes, k ≠ (x L).1 ∨ a < (x L).2 ∨ (x L).2 + n ≤ a) → t.padRead k a 1 = s1.padRead k a 1) ∧
        t.group? w.team w.grp = some g ∧ g.r = w.g.r.advance w.slot ∧ g.pend.getLast? = some p ∧ p.kind = .value ∧
        (ordAcq f.ord = false → t = { s1 with teams := t.teams, cores := t.cores }) ∧
        ((∀ L ∈ lanes, ¬InObject s (x L).1 (x L).2 n) →
          (∀ L ∈ lanes, t.padRead (x L).1 (x L).2 n = natToBytes n (atomLeaves w f x lanes (first L) L)) ∧
          p.writes = (lanes.flatMap fun L =>
            loadWrites false f.d.toNat n L (natToBytes n (atomFinds w f x lanes (first L) L))))))

/-- ATOM, once what it releases has left, on lines that no L1 line, no CORE write under way and no host holds: its lanes act at
the home one after another up to the first in the host window, which waits there for the host with the lanes after it; each posts
the value that it finds, the last value at a place stays, and every other byte reads as before (20 R314 to R318, 09 R173). A line
that the issuing core's own L1 holds is settled first: its dirty bytes perform at the home, the lane acts on them, and the line is gone
from the L1 (20 R316). The new
value of an atomic on words of n bytes: sums wrap, minima and maxima compare as signed or unsigned numbers, EXCH stores its
operand, FADD and BFADD round the sum by RNE with subnormals kept, and CAS stores its operand where the old value equals the
compare value (20 R315). That a lane performs at the issue of its word and how lanes go on behind the host are log entries 5 and
89. -/
def Obligations.AtomicWord : Prop :=
  (∀ (s s1 : State) (w : Site) (f : AtomF) (ph : Nat → Phys), s.site? = some w → w.unperformed = false →
     f.sz = .b32 ∨ f.sz = .b64 → NoClipTrap s w f.scope →
     (let n := f.sz.bytes
      let all := w.lanes f.g
      let addr := fun L => w.devAddr f.as f.a f.off L
      let sc := w.scopeRun s f.scope
      let lanes := all.takeWhile fun L => !(ph L).host
      (∀ L ∈ all, w.devPhys s .write n (addr L) = .ok (ph L) ∧ (ph L).repl = false ∧
        (∀ c ∈ s.m.collapses, c.holds (ph L).pa = false) ∧
        ((ph L).host = true ↔ placeOf (ph L).pa = .host) ∧
        ((ph L).host = true → f.op = .add ∨ f.op = .exch ∨ f.op = .cas) ∧
        ((ph L).host = false → s.hostHolds (lineOf (ph L).pa) = false ∧
          (s1.m.l1Of w.core).find? (l1Key (lineOf (ph L).pa) (ph L).key) = none ∧
          (∀ b < 4, ∀ e ∈ s1.m.buffer b .core, e.line ≠ lineOf (ph L).pa))) →
      (∀ L ∈ lanes, ∀ M ∈ lanes, lineOf (ph L).pa = lineOf (ph M).pa → (ph L).key = (ph M).key) →
      w.rejects s (missLines (fun _ => false) (all.map ph)).length = false →
      (ordAcq f.ord = true → 3 ≤ sc → s.heldElsewhere w.core (all.map ph) = false) →
      (holderScope (w.relScope f.ord sc) = true →
        s.heldElsewhere w.core ((all.map ph).filter fun x => x.cp == 0) = false) →
      (ordRel f.ord = true → ∀ x ∈ s.releaseLines w.core sc, s.hostHolds x = false) →
      Released s w (ordRel f.ord) sc s1 →
      (let place := fun L => (ph L).pa
       let first := fun L => bytesToNat (readBytes (s1.homeByte (ph L).key) (ph L).pa n)
       let lane := fun L => (⟨L, addr L, (ph L).pa, (ph L).key, (ph L).cp, w.operand f.b n L, w.operand f.d n L⟩ : AtomLane)
       ∃ t g p, Gives (.atom f) s t ∧ t.group? w.team w.grp = some g ∧
         g.r = clipRegs s w f.scope (w.g.r.advance w.slot) ∧ g.pend.getLast? = some p ∧
         p.writes = (lanes.flatMap fun L =>
           loadWrites false f.d.toNat n L (natToBytes n (atomFinds w f place lanes (first L) L))) ∧
         (lanes = all → p.kind = .value) ∧
         (∀ L rest, all = lanes ++ L :: rest → p.kind = .host ⟨f.op, n, f.d.toNat, lane L, rest.map lane,
           if ordAcq f.ord then some sc else none, w.pc⟩) ∧
         (lanes ≠ all ∨ ordAcq f.ord = false ∨ sc ≠ 5 →
           (∀ L ∈ lanes, readBytes (t.homeByte (ph L).key) (ph L).pa n =
             natToBytes n (atomLeaves w f place lanes (first L) L)) ∧
           (∀ L ∈ lanes, ∀ pa, lineOf pa = lineOf (ph L).pa →
             (∀ M ∈ lanes, pa < (ph M).pa ∨ (ph M).pa + n ≤ pa) →
             t.homeByte (ph L).key pa = s1.homeByte (ph L).key pa) ∧
           ∀ key pa, (∀ L ∈ lanes, lineOf pa ≠ lineOf (ph L).pa) → t.homeByte key pa = s1.homeByte key pa)))) ∧
  (∀ (s s1 : State) (w : Site) (f : AtomF) (L : Nat) (ph : Phys) (l : L1Line), s.site? = some w → w.unperformed = false →
     f.sz = .b32 ∨ f.sz = .b64 → NoClipTrap s w f.scope → w.lanes f.g = [L] →
     (let n := f.sz.bytes
      let sc := w.scopeRun s f.scope
      let line := lineOf ph.pa
      let k := l1Key line ph.key
      w.devPhys s .write n (w.devAddr f.as f.a f.off L) = .ok ph → ph.repl = false → ph.host = false → placeOf ph.pa ≠ .host →
      (∀ c ∈ s.m.collapses, c.holds ph.pa = false) → s.hostHolds line = false →
      w.rejects s (missLines (fun _ => false) [ph]).length = false →
      s.heldElsewhere w.core [ph] = false →
      (ordRel f.ord = true → ∀ x ∈ s.releaseLines w.core sc, s.hostHolds x = false) →
      Released s w (ordRel f.ord) sc s1 → (ordAcq f.ord = false ∨ sc ≠ 5) →
      (s1.m.l1Of w.core).sorted = true → (s1.m.l1Of w.core).find? k = some l → l.key = ph.key →
      s1.refusal w.core k l = none → (∀ b < 4, ∀ e ∈ s1.m.buffer b .core, e.line ≠ line) →
      (let left := fun (pa : Nat) =>
         if l.dirty.getLsbD (pa % 128) then lineByte l.data (pa % 128) else s1.homeByte ph.key pa
       let old := bytesToNat (readBytes left ph.pa n)
       ∃ t g p, Gives (.atom f) s t ∧ t.group? w.team w.grp = some g ∧ g.r = clipRegs s w f.scope (w.g.r.advance w.slot) ∧
         g.pend.getLast? = some p ∧ p.kind = .value ∧ p.writes = loadWrites false f.d.toNat n L (natToBytes n old) ∧
         (t.m.l1Of w.core).find? k = none ∧
         readBytes (t.homeByte ph.key) ph.pa n = natToBytes n (atomNew f.op n old (w.operand f.b n L) (w.operand f.d n L)) ∧
         ∀ pa, lineOf pa = line → pa < ph.pa ∨ ph.pa + n ≤ pa → t.homeByte ph.key pa = left pa))) ∧
  (∀ (old b cmp : W32),
     atomNew .add 4 old.toNat b.toNat cmp.toNat = (old + b).toNat ∧
     atomNew .mins 4 old.toNat b.toNat cmp.toNat = (if b.slt old then b else old).toNat ∧
     atomNew .maxs 4 old.toNat b.toNat cmp.toNat = (if old.slt b then b else old).toNat ∧
     atomNew .minu 4 old.toNat b.toNat cmp.toNat = (if b.ult old then b else old).toNat ∧
     atomNew .maxu 4 old.toNat b.toNat cmp.toNat = (if old.ult b then b else old).toNat ∧
     atomNew .and 4 old.toNat b.toNat cmp.toNat = (old &&& b).toNat ∧
     atomNew .or 4 old.toNat b.toNat cmp.toNat = (old ||| b).toNat ∧
     atomNew .xor 4 old.toNat b.toNat cmp.toNat = (old ^^^ b).toNat ∧
     atomNew .exch 4 old.toNat b.toNat cmp.toNat = b.toNat ∧
     atomNew .cas 4 old.toNat b.toNat cmp.toNat = (if old = cmp then b else old).toNat ∧
     atomNew .fadd 4 old.toNat b.toNat cmp.toNat =
       (fmtF32.round .rne false 0 ((fmtF32.decode old.toNat).add false (fmtF32.decode b.toNat))).bits ∧
     (let half := fun x y : BitVec 16 =>
        (fmtBF16.round .rne false 0 ((fmtBF16.decode x.toNat).add false (fmtBF16.decode y.toNat))).bits
      atomNew .bfadd 4 old.toNat b.toNat cmp.toNat =
        half (old.extractLsb' 16 16) (b.extractLsb' 16 16) * 65536 + half (old.setWidth 16) (b.setWidth 16))) ∧
  (∀ (old b cmp : W64),
     atomNew .add 8 old.toNat b.toNat cmp.toNat = (old + b).toNat ∧
     atomNew .mins 8 old.toNat b.toNat cmp.toNat = (if b.slt old then b else old).toNat ∧
     atomNew .maxs 8 old.toNat b.toNat cmp.toNat = (if old.slt b then b else old).toNat ∧
     atomNew .minu 8 old.toNat b.toNat cmp.toNat = (if b.ult old then b else old).toNat ∧
     atomNew .maxu 8 old.toNat b.toNat cmp.toNat = (if old.ult b then b else old).toNat ∧
     atomNew .and 8 old.toNat b.toNat cmp.toNat = (old &&& b).toNat ∧
     atomNew .or 8 old.toNat b.toNat cmp.toNat = (old ||| b).toNat ∧
     atomNew .xor 8 old.toNat b.toNat cmp.toNat = (old ^^^ b).toNat ∧
     atomNew .exch 8 old.toNat b.toNat cmp.toNat = b.toNat ∧
     atomNew .cas 8 old.toNat b.toNat cmp.toNat = (if old = cmp then b else old).toNat)

/-- CCTL.INV drops the lines that its lanes name from the L1 of its core, bytes not written back included; CCTL.WB leaves no dirty
byte of them in the L1 and CCTL.WBINV no line, and the bytes that were dirty there stand at their home; no other line of the L1
changes, and no byte of memory outside the named lines (20 R337, R338). PREF changes no byte of memory and no register (22 R398). Every word only moves its slot on. -/
def Obligations.CacheWords : Prop :=
  ∀ (s : State) (w : Site), s.site? = some w → w.unperformed = false →
    (∀ (f : CctlF) (ph : Nat → Phys),
      (let named := (w.lanes f.g).flatMap (w.cctlLines f)
       (∀ va ∈ named, s.resolve w.core w.ctx .read va = .ok (ph va) ∧
         ((ph va).host = false → s.hostHolds (lineOf (ph va).pa) = false)) →
       (∀ e ∈ s.m.l1Of w.core, e.2.unwritable = false) →
       ∃ t g, Gives (.cctl f) s t ∧ t.group? w.team w.grp = some g ∧ g.r = w.g.r.advance w.slot ∧
         (∀ va ∈ named, (ph va).host = false →
           (f.op ≠ .wb → (t.m.l1Of w.core).find? (l1Key (lineOf (ph va).pa) (ph va).key) = none) ∧
           (∀ l, f.op = .wb → (t.m.l1Of w.core).find? (l1Key (lineOf (ph va).pa) (ph va).key) = some l → l.dirty = 0)) ∧
         (∀ k, (∀ va ∈ named, (ph va).host = false → k ≠ l1Key (lineOf (ph va).pa) (ph va).key) →
           (t.m.l1Of w.core).find? k = (s.m.l1Of w.core).find? k) ∧
         (∀ key pa, (∀ va ∈ named, (ph va).host = false → lineOf pa ≠ lineOf (ph va).pa) →
           t.homeByte key pa = s.homeByte key pa) ∧
         (f.op ≠ .inv → (s.m.l1Of w.core).sorted = true →
           (∀ va ∈ named, ∀ vb ∈ named, lineOf (ph va).pa = lineOf (ph vb).pa → (ph va).key = (ph vb).key) →
           ∀ va ∈ named, (ph va).host = false → (∀ b < 4, ∀ e ∈ s.m.buffer b .core, e.line ≠ lineOf (ph va).pa) →
             ∀ l, (s.m.l1Of w.core).find? (l1Key (lineOf (ph va).pa) (ph va).key) = some l → l.key = (ph va).key →
               ∀ pa, lineOf pa = lineOf (ph va).pa → t.homeByte (ph va).key pa =
                 if l.dirty.getLsbD (pa % 128) then lineByte l.data (pa % 128) else s.homeByte (ph va).key pa))) ∧
    (∀ f : PrefF,
      (let phs := (w.lanes f.g).filterMap fun L =>
         match s.resolve w.core w.ctx .read (w.devAddr f.as f.a f.off L).toNat with
         | .ok ph => if ph.host then none else some ph
         | .error _ => none
       w.rejects s (missLines (fun x => s.l1Hit w.core x 1) phs).length = false →
       ∃ t g, Gives (.pref f) s t ∧ (∀ key pa, t.homeByte key pa = s.homeByte key pa) ∧
         t.group? w.team w.grp = some g ∧ g.r = w.g.r.advance w.slot ∧
         (f.cls ≠ 0 ∨ (s.m.l1Of w.core).length + phs.length ≤ s.l1Lines w.core →
           (∀ x ∈ phs, s.rewritten (lineOf x.pa) = false) →
           t = { s with m := t.m, basins := t.basins, teams := t.teams })))

/-- MWAIT reads its location once at the slice, after the dirty bytes of its core in the line have left, as a number of its type: when
the condition holds then it posts the value and a clear predicate and acquires; when it does not hold and the limit is 0, the value and
a set predicate; otherwise its monitor is armed with the limit and nothing is written (22 R377, R378). A wait on a location whose
condition holds, or whose limit is reached, ends with the value and its report: at MWAIT_WAKE once a write has fired its monitor, at
MWAIT_TIMEOUT once the limit is reached, and at MWAIT_HOST_POLL in the host window, 1,024 cycles after the last read; no other core may
hold the line, and the translation is that of the moment (22 R378, R379, 01 R26, 08 R164). -/
def Obligations.MonitorWord : Prop :=
  (∀ (s : State) (w : Site) (f : MwaitF) (ph : Phys), s.site? = some w → w.unperformed = false →
     (let n := if f.ty.is64 then 8 else 4
      let va := w.g.r.rdS64 f.a.toNat + BitVec.ofNat 64 (8 * f.off.toNat)
      w.devPhys s .read n va = .ok ph →
      s.heldElsewhere w.core [ph] = false →
      (let v := bytesToNat ((s.pushOut w.core [ph]).readPath .core ph n)
       let b := if f.ty.is64 then (w.g.r.rdS64 f.b.toNat).toNat else (w.g.r.rdS f.b.toNat).toNat
       let holds := f.cmp.holds (f.ty.value v) (f.ty.value b)
       let limit := w.g.r.rdS f.c.toNat
       (holds = true ∨ limit = 0 → ∃ t g p, Gives (.mwait f) s t ∧ t.group? w.team w.grp = some g ∧
          g.r = w.g.r.advance w.slot ∧ g.pend.getLast? = some p ∧ p.kind = .value ∧
          p.writes = (if f.ty.is64 then [.s f.d.toNat (BitVec.ofNat 32 v), .s (f.d.toNat + 1) (BitVec.ofNat 32 (v / 2 ^ 32))]
            else [.s f.d.toNat (BitVec.ofNat 32 v)]) ++ [.p f.p.toNat w.mask (if holds then 0 else 0xFFFFFFFF)] ∧
          (∀ e ∈ t.m.l1Of w.core, e.2.dirty ≠ 0) ∧ ∀ key pa, t.homeByte key pa = s.homeByte key pa) ∧
       (holds = false → limit ≠ 0 → ∃ t g p m, Gives (.mwait f) s t ∧
          (∀ key pa, t.homeByte key pa = s.homeByte key pa) ∧
          t.group? w.team w.grp = some g ∧ g.r = w.g.r.advance w.slot ∧ g.pend.getLast? = some p ∧
          p.kind = .monitor m ∧ p.writes = [] ∧ m.phys = ph.pa ∧ m.addr = va ∧ m.fired = false ∧ m.limit = limit ∧
          m.b.toNat = b ∧ m.t0 = s.clk)))) ∧
  (∀ (s : State) (team grp : Nat) (b : Bool) (w : Site) (p : Pending) (m : Monitor) (ph : Phys) (late : Bool),
     s.monitor? team grp b = some (w, p, m) →
     s.resolve w.core w.ctx .read m.addr.toNat = .ok ph → s.heldElsewhere w.core [ph] = false →
     (let v := bytesToNat ((s.pushOut w.core [ph]).readPath .core ph (if m.ty.is64 then 8 else 4))
      m.ends s.clk v = some late →
      (let ended := fun (t : State) => ∃ g q, t.group? team grp = some g ∧ g.pending? p.id = some q ∧ q.kind = .value ∧
          q.writes = m.writes v late
       (m.fired = true → ∃ t, Gives (.mwaitWake team grp b) s t ∧ ended t) ∧
       (m.limit ≠ 0xFFFFFFFF → m.limit.toNat ≤ s.clk - m.t0 → ∃ t, Gives (.mwaitTimeout team grp b) s t ∧ ended t) ∧
       (m.host = true → 1024 ≤ s.clk - m.lastPoll → ∃ t, Gives (.mwaitHostPoll team grp b) s t ∧ ended t))))

/-! ### Barriers, counted barrier objects, fences and signals -/

/-- BAR, CBAR, and NBAR in a persistent nest, release what the core has written at the barrier's scope and wait; in a
handler they raise ILLEGAL, and NBAR elsewhere NBAR_NONPERSIST (02 R46, 09 R174, 20 R320, R336, 22 R388). BARRIER_COMPLETE of a team
with a group at a barrier: once every group that takes part, of the team for BAR, of the cluster for CBAR and of the nest for NBAR, has
ended or has every live slot, be it S0, S1 or both, at that barrier with what it accessed before performed, and no line of their
context would be refused (14 R259), each of these slots goes on past its word with its registers as they were; the cores keep no clean line but for BAR, and no byte of memory has changed (02 R46, 09
R174, 17 R295). -/
def Obligations.BarrierWords : Prop :=
  (∀ (s : State) (w : Site), s.site? = some w → w.unperformed = false →
     (let waits := fun (t : State) (k : BarKind) => ∃ g, t.group? w.team w.grp = some g ∧ g.r = w.g.r ∧
        g.wait w.slot = some (.barrier k) ∧ g.wait (!w.slot) = w.g.wait (!w.slot)
      (w.g.t.inh = false →
       (∃ t, Gives .bar s t ∧ OnlyGroup s t w.team w.grp w.tm { w.g.setWait w.slot (some (.barrier .bar)) with
         st := if w.skid then { w.g.st with skid := w.g.st.skid + 1 } else w.g.st }) ∧
       (∀ s1, w.releaseAt s 2 = .ok s1 → ∃ t, Gives .cbar s t ∧ t = { s1 with teams := t.teams } ∧ waits t .cbar) ∧
       (∀ s1 x, s.nests.find? w.tm.nest = some x → x.launch.persist = true → w.releaseAt s 3 = .ok s1 →
         ∃ t, Gives .nbar s t ∧ t = { s1 with teams := t.teams } ∧ waits t .nbar) ∧
       (∀ x, s.nests.find? w.tm.nest = some x → x.launch.persist = false → w.blocked = false →
         ∃ t, Gives .nbar s t ∧ Faulted w s t .nbarNonpersist 0)) ∧
      (w.g.t.inh = true → w.blocked = false →
       ∀ i ∈ [Instr.bar, .cbar, .nbar], ∃ t, Gives i s t ∧ Faulted w s t .illegal 0))) ∧
  (∀ (s : State) (team : Nat) (tm : Team) (k : BarKind), s.teams.find? team = some tm → tm.waitsAt k = true →
     (let parts := match k with
        | .bar => [team]
        | .cbar => if tm.peers = [] then [team] else tm.peers.vals
        | .nbar => (s.teams.filter fun (e : Nat × Team) => e.2.nest == tm.nest).map fun (e : Nat × Team) => e.1
      team ∈ parts →
      (∀ p ∈ parts, ∀ x, s.teams.find? p = some x → x.phase ≠ .saved ∧ ∀ g ∈ x.groups,
        (g.st.ended = true ∧ g.w0 = none ∧ g.w1 = none) ∨
        (g.st.ended = false ∧ (∀ q ∈ g.pend, q.unperformed = false) ∧
          ((g.r.slot false).live || (g.r.slot true).live) = true ∧
          ∀ b, g.wait b = if (g.r.slot b).live then some (.barrier k) else none)) →
      (k ≠ .bar → ∀ p ∈ parts, ∀ x, s.teams.find? p = some x → ∀ e ∈ s.m.l1Of x.core, e.2.ctx = tm.ctx →
        s.refusal x.core e.1 e.2 = none) →
      ∃ t, Gives (.barrierComplete team) s t ∧ (k = .bar → t.m = s.m) ∧
        (∀ key pa, t.homeByte key pa = s.homeByte key pa) ∧
        ∀ p ∈ parts, ∀ x, s.teams.find? p = some x →
          (k ≠ .bar → ∀ e ∈ t.m.l1Of x.core, e.2.dirty ≠ 0) ∧
          ∀ n g, x.groups[n]? = some g → ∃ g', t.group? p n = some g' ∧ g'.r.v = g.r.v ∧ g'.r.s = g.r.s ∧ g'.r.p = g.r.p ∧
            ∀ b, g'.wait b = none ∧
              g'.r.slot b = if g.st.ended = false ∧ (g.r.slot b).live = true then (g.r.slot b).advance else g.r.slot b))

/-- An arrival adds to ARRIVED, and each time that ARRIVED reaches EXPECT the phase flips and ARRIVED starts over; EXPECT 0
never completes (11 R227). On a present object in the team's own pad that no other word has spoiled: BINIT with no waiter, PEND 0
and a nonzero EXPECT sets the object up and pD, with a waiter or PEND other than 0 it clears pD and changes nothing, and with EXPECT 0
it raises ILLEGAL; BARV on a valid object without waiters stores the object after the arrival; BINV
sets INV; and BWAIT on an object of the other phase, or an invalid one, returns at once with pD the complement of INV (20 R323,
R327, R328, R334). -/
def Obligations.ObjectWords : Prop :=
  (∀ (o : BarObj) (n : Nat),
     ((o.arrive n).1.expect = o.expect ∧ (o.arrive n).1.inv = o.inv ∧ (o.arrive n).1.pend = o.pend) ∧
     (o.expect ≠ 0 → o.arrived + n < o.expect →
       (o.arrive n).1.arrived = o.arrived + n ∧ (o.arrive n).1.phase = o.phase ∧ (o.arrive n).2 = false) ∧
     (o.expect ≠ 0 → o.expect ≤ o.arrived + n → o.arrived + n < 2 * o.expect →
       (o.arrive n).1.arrived = o.arrived + n - o.expect ∧ (o.arrive n).1.phase = !o.phase ∧ (o.arrive n).2 = true) ∧
     (o.expect = 0 → (o.arrive n).2 = false ∧ (o.arrive n).1.phase = o.phase)) ∧
  (∀ (s : State) (w : Site) (off : Nat), s.site? = some w → w.unperformed = false → w.g.spec = none →
     s.padAbsent w.team off 8 = false → ((w.tm.objects.find? (off / 8)).elim false (·.spoiled)) = false → off % 8 = 0 →
     (let o := BarObj.ofWord (BitVec.ofNat 64 (bytesToNat (s.padRead w.team off 8)))
      let reads := fun (t : State) (x : BarObj) => t.padRead w.team off 8 = natToBytes 8 x.word.toNat
      let moved := fun (t : State) => ∃ g, t.group? w.team w.grp = some g ∧ (g.r.slot w.slot) = (w.ps).advance
      (∀ f : BinitF, w.objAt s f.a = .ok off → s.hasWaiters w.team off = false → o.pend = 0 →
        (w.g.r.rdS f.b.toNat).toNat % 65536 ≠ 0 →
        ∃ t g, Gives (.binit f) s t ∧ reads t ⟨false, false, 0, false, (w.g.r.rdS f.b.toNat).toNat % 65536, 0⟩ ∧
          t.group? w.team w.grp = some g ∧ g.r = (w.wrPred f.p true).advance w.slot) ∧
      (∀ f : BinitF, w.objAt s f.a = .ok off → s.hasWaiters w.team off = true ∨ o.pend ≠ 0 →
        ∃ t, Gives (.binit f) s t ∧ Committed w s t (w.wrPred f.p false)) ∧
      (∀ f : BinitF, w.objAt s f.a = .ok off → s.hasWaiters w.team off = false → o.pend = 0 →
        (w.g.r.rdS f.b.toNat).toNat % 65536 = 0 → w.blocked = false → ∃ t, Gives (.binit f) s t ∧ Faulted w s t .illegal 0) ∧
      (∀ f : BarvF, w.objAt s f.a = .ok off → o.inv = false → s.hasWaiters w.team off = false →
        ∃ t, Gives (.barv f) s t ∧ reads t (o.arrive f.n.toNat).1 ∧ moved t) ∧
      (∀ f : SReg, w.objAt s f.a = .ok off → o.inv = false → s.hasWaiters w.team off = false →
        ∃ t, Gives (.binv f) s t ∧ reads t { o with inv := true } ∧ moved t) ∧
      (∀ f : BwaitF, w.objAt s f.a = .ok off → o.inv = true ∨ o.phase ≠ f.ph →
        ∃ t g, Gives (.bwait f) s t ∧ t.group? w.team w.grp = some g ∧
          g.r = (w.wrPred f.p (!o.inv)).advance w.slot) ∧
      (∀ f : BwaitF, w.objAt s f.a = .ok off → o.inv = false → o.phase = f.ph →
        ∃ t g, Gives (.bwait f) s t ∧ t.group? w.team w.grp = some g ∧ g.r = w.g.r ∧
          g.wait w.slot = some (.bwait off f.ph f.p.toNat))))

/-- FENCE, once what it releases has left, only moves on below cluster scope, where a later ordered write of its slot releases at
its scope (08 R161), and leaves no line in the L1 of its core from there on; FENCE.SPEC opens a window of 16 words that remembers
the registers after the fence (21 R356, 08 R159, R160, R165). A fence of device scope or wider waits while another core holds a line
that an earlier relaxed load or atomic of its slot has read (08 R161, R164). XFENCE leaves no write of its source paths in an ingress buffer, and
with CORE as a destination no clean line in the L1 (08 R168, 23 R442). SIGOP on package memory, once what it releases has left,
with no CORE write to its line under way and no host that holds it, leaves the new value of the signal at the home and moves on;
in the host window it waits for the host (23 R410, R411). That SIGOP performs at its issue, and what waits behind an access that
has not performed, are log entries 5 and 70. -/
def Obligations.FenceAndSignalWords : Prop :=
  (∀ (s s1 : State) (w : Site), s.site? = some w → w.unperformed = false →
     (∀ f : FenceF, w.fenceWaits s (w.scopeRun s f.scope) = true → Gives (.fence f) s s) ∧
     (∀ f : FenceF, f.spec = false → NoClipTrap s w f.scope → w.fenceWaits s (w.scopeRun s f.scope) = false → Released s w true (w.scopeRun s f.scope) s1 →
       (f.scope.code < 2 → ∃ t, Gives (.fence f) s t ∧ OnlyGroup s t w.team w.grp w.tm
         { w.g.count w.slot false w.skid with
           r := w.g.r.advance w.slot
           fence0 := if w.slot then w.g.fence0 else f.scope.code
           fence1 := if w.slot then f.scope.code else w.g.fence1 }) ∧
       (2 ≤ f.scope.code → (s.m.l1Of w.core).sorted = true → ∃ t g, Gives (.fence f) s t ∧ t.m.l1Of w.core = [] ∧
         (w.scopeRun s f.scope ≠ 5 → ∀ key pa, t.homeByte key pa = s1.homeByte key pa) ∧
         t.group? w.team w.grp = some g ∧ g.r = clipRegs s w f.scope (w.g.r.advance w.slot) ∧
         (3 ≤ w.scopeRun s f.scope → g.heldBy w.slot = []))) ∧
     (∀ f : FenceF, f.spec = true → w.g.spec = none → w.fenceWaits s (w.scopeRun s f.scope) = false → Released s w true (w.scopeRun s f.scope) s1 →
       ∃ t g win, Gives (.fence f) s t ∧ t = { s1 with teams := t.teams } ∧ t.group? w.team w.grp = some g ∧
       g.r = clipRegs s w f.scope (w.g.r.advance w.slot) ∧ g.spec = some win ∧ win.slot = w.slot ∧ win.scope = f.scope ∧
       win.left = 16 ∧ win.saved = g.r ∧ win.stores = [] ∧ win.conflict = false) ∧
     (∀ f : XfenceF, s.m.hostHeld = [] →
       (f.src.getLsbD 0 = true → ∀ e ∈ s.m.l1Of w.core, e.2.unwritable = false ∧
         s.portAllows (corePort w.core) (128 * keyLine e.1) = true) →
       ∃ t g, Gives (.xfence f) s t ∧ t.group? w.team w.grp = some g ∧ g.r = w.g.r.advance w.slot ∧
         (f.dst.getLsbD 0 = true → ∀ e ∈ t.m.l1Of w.core, e.2.dirty ≠ 0) ∧
         ∀ b < 4, ∀ p ∈ allPaths, f.src.getLsbD p.code = true → t.m.buffer b p = [])) ∧
  (∀ (s s1 : State) (w : Site) (f : SigopF) (ph : Phys), s.site? = some w → w.unperformed = false →
     w.devPhys s .write 8 (w.g.r.rdS64 f.a.toNat) = .ok ph → ph.repl = false → (∀ c ∈ s.m.collapses, c.holds ph.pa = false) →
     (let scope : Scope := if f.sys then .sys else .dev
      (s.m.l1Of w.core).sorted = true → (∀ x ∈ s.releaseLines w.core (w.scopeRun s scope), s.hostHolds x = false) →
      Released s w true (w.scopeRun s scope) s1 → NoClipTrap s w scope →
      (ph.host = false → s.hostHolds (lineOf ph.pa) = false →
        (∀ b < 4, ∀ e ∈ s1.m.buffer b .core, e.line ≠ lineOf ph.pa) →
        (let old : W64 := BitVec.ofNat 64 (bytesToNat (readBytes (s1.homeByte ph.key) ph.pa 8))
         let b := w.g.r.rdS64 f.b.toNat
         let new := match f.op with
           | .add => old + b
           | .sub => old - b
           | .set => b
         ∃ t g, Gives (.sigop f) s t ∧
           (∀ i, i < 8 → t.homeByte ph.key (ph.pa + i) = (natToBytes 8 new.toNat).getD i 0) ∧
           (∀ key pa, lineOf pa ≠ lineOf ph.pa → t.homeByte key pa = s1.homeByte key pa) ∧
           t.group? w.team w.grp = some g ∧ g.r = clipRegs s w scope (w.g.r.advance w.slot))) ∧
      (ph.host = true → ∃ t g, Gives (.sigop f) s t ∧ t.group? w.team w.grp = some g ∧ g.r = w.g.r ∧
        g.wait w.slot = some (.hostSignal f.op (w.g.r.rdS64 f.a.toNat) ph.pa (w.g.r.rdS64 f.b.toNat) f.sys) ∧
        ∀ key pa, t.homeByte key pa = s1.homeByte key pa)))


/-! ### Special registers and traps -/

/-- SRD gives every lane, or the s register, the value of its special register: LANE its own index, and each other selector
one value (23 R431, R432, 03 Table 3-2). SWR writes FPM and LTILE with a value that they accept and raises ILLEGAL with any
other, clears the bits of GSTAT that its operand names, writes the trap registers in a handler and raises ILLEGAL outside
one; TSTAT keeps its value (23 R436, 03 R58, 02 R40). -/
def Obligations.SpecialRegisterWords : Prop :=
  (∀ (s : State) (w : Site) (f : SrdF), s.site? = some w →
     (let reads := fun (wide : Bool) (val : Nat → W64) => ∃ t r, Gives (.srd f) s t ∧
        CommittedCtl w s t (r.advance w.slot) ∧ DestIs w.g.r r f.uni wide f.d.toNat (w.active f.g) val
      (f.sel.toNat = 0x000 → reads false fun L => BitVec.ofNat 64 (if f.uni then 0 else L)) ∧
      (∀ v : W32, (f.sel.toNat, v) ∈
          [(0x001, BitVec.ofNat 32 w.grp), (0x002, BitVec.ofNat 32 w.tm.teamIdx), (0x003, BitVec.ofNat 32 w.tm.clus),
           (0x004, BitVec.ofNat 32 w.tm.nest), (0x020, w.g.r.fpm), (0x021, w.g.r.ltile), (0x022, w.ps.repc),
           (0x042, w.g.t.tcause), (0x044, w.g.t.tinfo), (0x050, w.g.r.gstat), (0x070, BitVec.ofNat 32 w.core),
           (0x071, BitVec.ofNat 32 (coreBasin w.core))] → reads false fun _ => v.setWidth 64) ∧
      (∀ (k : Nat) (v : W32), k < 4 → w.tm.ix[k]? = some v → f.sel.toNat = 0x010 + k → reads false fun _ => v.setWidth 64) ∧
      (f.sel.toNat = 0x040 → reads false fun _ => ((w.g.t.hidden != 0).toNat * 8 + w.g.t.held.toNat * 4 +
        w.g.t.slot.toNat * 2 + w.g.t.inh.toNat : Nat)) ∧
      (∀ (n : Nat) (x : Nest) (v : W32), s.nests.find? w.tm.nest = some x → n < 8 →
        (x.amax[n]? = some v → f.sel.toNat = 0x060 + n → reads false fun _ => v.setWidth 64) ∧
        (x.amaxst[n]? = some v → f.sel.toNat = 0x068 + n → reads false fun _ => v.setWidth 64)) ∧
      (∀ v : W64, (f.sel.toNat, v) ∈
          [(0x030, BitVec.ofNat 64 s.clk), (0x031, BitVec.ofNat 64 s.time), (0x041, w.g.t.tpc), (0x043, w.g.t.taddr)] →
        reads true fun _ => v))) ∧
  (∀ (s : State) (w : Site) (f : SwrF), s.site? = some w →
     (let x := w.g.r.rdS f.a.toNat
      let x64 := w.g.r.rdS64 f.a.toNat
      let next := w.g.r.advance w.slot
      let writes := fun (r : GroupRegs) => ∃ t, Gives (.swr f) s t ∧ CommittedCtl w s t r
      let illegal := ∃ t, Gives (.swr f) s t ∧ Faulted w s t .illegal 0
      let trapRegs := fun (y : TrapRegs) => ∃ t, Gives (.swr f) s t ∧ OnlyGroup s t w.team w.grp w.tm
        { w.g.count w.slot true w.skid with r := next, t := y }
      (f.sel.toNat = 0x020 → x &&& 0xFFFFFF18 = 0 → (x &&& 7).toNat < 5 → writes { next with fpm := x }) ∧
      (f.sel.toNat = 0x020 → (x &&& 0xFFFFFF18 ≠ 0 ∨ 5 ≤ (x &&& 7).toNat) → w.blocked = false → illegal) ∧
      (f.sel.toNat = 0x021 → x.toNat ∈ [2, 4, 8, 16, 32] → writes { next with ltile := x }) ∧
      (f.sel.toNat = 0x021 → x.toNat ∉ [2, 4, 8, 16, 32] → w.blocked = false → illegal) ∧
      (f.sel.toNat = 0x050 → writes { next with gstat := w.g.r.gstat &&& ~~~(x &&& 3) }) ∧
      (w.g.t.inh = true → f.sel.toNat = 0x040 → trapRegs w.g.t) ∧
      (w.g.t.inh = true → f.sel.toNat = 0x041 → x64 &&& 7 = 0 → trapRegs { w.g.t with tpc := x64 }) ∧
      (w.g.t.inh = true → f.sel.toNat = 0x041 → x64 &&& 7 ≠ 0 → w.blocked = false → illegal) ∧
      (w.g.t.inh = true → f.sel.toNat = 0x042 → trapRegs { w.g.t with tcause := x }) ∧
      (w.g.t.inh = true → f.sel.toNat = 0x043 → trapRegs { w.g.t with taddr := x64 }) ∧
      (w.g.t.inh = true → f.sel.toNat = 0x044 → trapRegs { w.g.t with tinfo := x &&& 0xFF03FF3F }) ∧
      (w.g.t.inh = false → 0x040 ≤ f.sel.toNat → f.sel.toNat ≤ 0x044 → w.blocked = false → illegal)))

/-- TRAP commits and enters the handler with TPC past it; BKPT has no effect and enters with TPC at it. With no active lane both
only move on; with results of the group outstanding the trap waits, and one of S1 behind one of S0 that waits, and TRAP_ENTRY takes
them once the results are written, that of S0 first; in a handler the cause aborts the nest; a context without a handler raises HANDLER_FETCH. TRET goes back to TPC with the
hidden REPC, where it is legal, and raises ILLEGAL elsewhere (14 R254, R255, R257, 20 R329, 23 R437, R438). -/
def Obligations.TrapWords : Prop :=
  (∀ (s : State) (w : Site) (f : TrapF), s.site? = some w →
    (let handler := (s.ctx w.ctx).handler
     let sw : TrapReq := ⟨.trapSw, w.pc, f.imm, w.pc + 8, 0, 0⟩
     let bk : TrapReq := ⟨.bkpt, w.pc, f.imm, w.pc, 0, 0⟩
     (w.active f.g = 0 → (∃ t, Gives (.trapw f) s t ∧ CommittedCtl w s t (w.g.r.advance w.slot)) ∧
       ∃ t, Gives (.bkpt f) s t ∧ CommittedCtl w s t (w.g.r.advance w.slot)) ∧
     (w.active f.g ≠ 0 → w.blocked = false → w.g.t.inh = false → w.g.noneOut = true →
       (w.slot = true → w.g.t.pend0 = none) → handler ≠ 0 → s.fetchError w.core w.ctx handler = none →
       (∃ t g, Gives (.trapw f) s t ∧ OnlyGroup s t w.team w.grp w.tm g ∧
         Entered w g sw ((w.g.r.advance w.slot).slot w.slot).repc handler) ∧
       ∃ t g, Gives (.bkpt f) s t ∧ OnlyGroup s t w.team w.grp w.tm g ∧ Entered w g bk w.ps.repc handler) ∧
     (w.active f.g ≠ 0 → w.blocked = false → w.g.t.inh = false →
       w.g.noneOut = false ∨ (w.slot = true ∧ w.g.t.pend0 ≠ none) →
       (∃ t g, Gives (.trapw f) s t ∧ OnlyGroup s t w.team w.grp w.tm g ∧ g.t.inh = false ∧
         g.t.pend? w.slot = some sw ∧ g.r = w.g.r.advance w.slot) ∧
       ∃ t g, Gives (.bkpt f) s t ∧ OnlyGroup s t w.team w.grp w.tm g ∧ g.t.inh = false ∧
         g.t.pend? w.slot = some bk ∧ g.r = w.g.r) ∧
     (w.active f.g ≠ 0 → w.blocked = false → w.g.t.inh = true →
       (∃ t, Gives (.trapw f) s t ∧ Faulted w s t .trapSw 0) ∧ ∃ t, Gives (.bkpt f) s t ∧ Faulted w s t .bkpt 0) ∧
     (w.active f.g ≠ 0 → w.blocked = false → w.g.t.inh = false → w.g.noneOut = true →
       (w.slot = true → w.g.t.pend0 = none) → handler = 0 →
       ∃ t, Gives (.bkpt f) s t ∧ Faulted w s t .handlerFetch 0))) ∧
  (∀ (s : State) (team grp : Nat) (b : Bool) (w : Site) (req : TrapReq), s.siteAt team grp b = some w →
    w.g.t.pend? b = some req → (b = true → w.g.t.pend0 = none) → w.g.spec = none → w.g.noneOut = true → w.g.t.inh = false → w.tm.issues = true →
    (s.ctx w.ctx).handler ≠ 0 → s.fetchError w.core w.ctx (s.ctx w.ctx).handler = none →
    ∃ t g, Gives (.trapEntry team grp b) s t ∧ OnlyGroup s t team grp w.tm g ∧
      Entered w g req w.ps.repc (s.ctx w.ctx).handler ∧ g.t.pend? b = none) ∧
  (∀ (s : State) (w : Site), s.site? = some w →
    (w.g.t.inh = true → (w.g.t.held = true ∨ (w.g.r.slot (!w.slot)).live = false) → w.g.r.join.length = w.g.t.depth →
      ∃ t g, Gives .tret s t ∧ OnlyGroup s t w.team w.grp w.tm g ∧ g.t = { w.g.t with inh := false } ∧
        g.r = w.g.r.setSlot w.slot ⟨w.g.t.tpc, w.mask, w.g.t.hidden⟩) ∧
    ((w.g.t.inh = false ∨ (w.g.t.held = false ∧ (w.g.r.slot (!w.slot)).live = true) ∨
       w.g.r.join.length ≠ w.g.t.depth) → w.blocked = false → ∃ t, Gives .tret s t ∧ Faulted w s t .illegal 0))

/-! ### Nest words -/

/-- NQRY posts the counts of its nest, its bound UB0, or its flags. NBND of dimension 0 leaves its proposal with the walker and
waits, and of another dimension raises ILLEGAL. NLAUNCH, released at system scope, of a queue that is not ACTIVE or belongs to
another context writes a clear pD and nothing else; with room in the ring it writes WIDX and the packet at their homes, rings the
doorbell, and sets pD (22 R389, R390, R393, 06 R137). The release of NLAUNCH is log entry 58, that its writes perform at its issue
log entry 5, and what a proposal awaits log entry 27. -/
def Obligations.NestWords : Prop :=
  ∀ (s : State) (w : Site), s.site? = some w →
    (∀ (f : NqryF) (x : Nest), s.nests.find? w.tm.nest = some x →
      (let d := f.d.toNat
       let posts := fun (ws : List RegWrite) => ∃ t, Gives (.nqry f) s t ∧ Posted w s t f.la (.nqry f) .value ws 0
       (f.what.toNat = 0 → posts [.s d (lo32 x.released), .s (d + 1) (hi32 x.released)]) ∧
       (f.what.toNat = 1 → posts [.s d (lo32 x.retired), .s (d + 1) (hi32 x.retired)]) ∧
       (f.what.toNat = 2 → posts [.s d (BitVec.ofInt 32 x.ub0)]) ∧
       (f.what.toNat = 3 → posts [.s d ((if x.done then 1 else 0) ||| (if x.launch.persist then 2 else 0) |||
         (if x.launch.gang then 4 else 0))]))) ∧
    (∀ f : NbndF, f.dim = 0 → ∃ t g, Gives (.nbnd f) s t ∧ t = { s with teams := t.teams, nests := t.nests } ∧
      t.group? w.team w.grp = some g ∧ g = { w.g.setWait w.slot (some (.nbnd f.p.toNat)) with
        st := if w.skid then { w.g.st with skid := w.g.st.skid + 1 } else w.g.st } ∧
      t.nests = s.nests.upd w.tm.nest fun x => { x with proposals := x.proposals ++
        [⟨w.team, w.grp, w.slot, (w.g.r.rdS f.a.toNat).toInt, x.readyPoints⟩] }) ∧
    (∀ f : NbndF, f.dim ≠ 0 → w.blocked = false → ∃ t, Gives (.nbnd f) s t ∧ Faulted w s t .illegal 0) ∧
    (∀ (f : NlaunchF) (s1 : State), w.unperformed = false → w.releaseAt s 5 = .ok s1 →
      (let q := (w.g.r.rdS f.b.toNat).toNat
       let x := s.queue q
       (255 < q ∨ x.state ≠ .active ∨ x.ctx ≠ w.ctx → ∃ t g, Gives (.nlaunch f) s t ∧ t = { s1 with teams := t.teams } ∧
         t.group? w.team w.grp = some g ∧ g.r = (w.wrPred f.p false).advance w.slot) ∧
       (∀ (hd slot : Phys) (i r : Nat), q ≤ 255 → x.state = .active → x.ctx = w.ctx →
         w.devPhys s .write 8 (x.header + 0x10) = .ok hd → hd.host = false → w.admission s1 [hd.page] true = none → s1.headerIdx w.core hd = (i, r) → i < 2 ^ 32 → r < 2 ^ 32 →
         (i + 2 ^ 32 - r) % 2 ^ 32 < 2 ^ x.logsize →
         w.devPhys s .write 64 (BitVec.ofNat 64 (x.base.toNat + 64 * (i % 2 ^ x.logsize))) = .ok slot → slot.host = false →
         w.admission s1 [slot.page] true = none → s1.pieceWaits w.ctx w.act [(hd, 8), (slot, 64)] = none → lineOf hd.pa ≠ lineOf slot.pa →
         ∃ t g, Gives (.nlaunch f) s t ∧ t.group? w.team w.grp = some g ∧
           g.r = (w.wrPred f.p true).advance w.slot ∧
           (∀ k, k < 4 → t.homeByte hd.key (hd.pa + k) = (natToBytes 4 ((i + 1) % 2 ^ 32)).getD k 0) ∧
           (∀ k, k < 64 → t.homeByte slot.key (slot.pa + k) = (natToBytes 8 (1 + 256 * f.hdr.toNat) ++
             natToBytes 8 (w.g.r.rdS64 f.c.toNat).toNat ++ natToBytes 8 (w.g.r.rdS64 f.a.toNat).toNat ++
             List.replicate 40 0).getD k 0) ∧
           (∀ key pa, lineOf pa ≠ lineOf hd.pa → lineOf pa ≠ lineOf slot.pa → t.homeByte key pa = s1.homeByte key pa) ∧
           t.queue q = (s1.queue q).ring ((x.s + 1) % 2 ^ 16) ((i + 1) % 2 ^ 32))))


/-! ### Matrix words and the array -/

/-- MX.RUN and MX.DIST post one entry for each active quarter, in order. For one active quarter that is the operation that its
registers spell, where their fields are legal, their rows aligned and inside an allocation, and their residency not STALE; it uses
what the last posted operation of its residency there will leave, or else, and where a newer load has arrived since (10 R186), the
residency as it stands (log entry 29). A STALE
one traps with the handle in TADDR; a handle that is not live, or a field out of range, raises ILLEGAL (10 R198 to R201, 22 R380,
R381). -/
def Obligations.MatrixRunWords : Prop :=
  (∀ (s : State) (w : Site) (f : MxRunF) (dist : Bool) (x : Nat → RunOp × Nat), s.site? = some w → w.unperformed = false →
    (∀ L ∈ w.quarters f.g, (w.runTiles f L).1 + (w.runTiles f L).2 ≤ w.tm.shape.tiles) →
    (∀ L ∈ w.quarters f.g, w.quarter s dist f L = .ok ((x L).1, (x L).2, none)) →
    w.canPost s ((w.quarters f.g).map fun L => (x L).2) = true →
    ∃ t g, Gives (if dist then .mxDist f else .mxRun f) s t ∧ t = { s with cores := t.cores, teams := t.teams } ∧
      (t.core w.core).fifo =
        ((w.quarters f.g).foldl (fun c L => rowsHit w.team (x L).2 8 c) (s.core w.core)).fifo ++
          ((w.quarters f.g).map fun L => w.entry (.run (x L).1) (x L).2 (w.spanOf s (.run (x L).1))) ∧
      t.group? w.team w.grp = some g ∧ g.r = w.g.r.advance w.slot) ∧
  ∀ (s : State) (w : Site) (f : MxRunF) (L : Nat), s.site? = some w → w.unperformed = false → w.quarters f.g = [L] →
    (let run := w.g.r.rdV f.a.toNat L
     let rows := w.g.r.rdV f.b.toNat L
     let shape := w.g.r.rdV64 f.c.toNat L
     let h : BitVec 16 := run.extractLsb' 0 16
     let fmt := s.fslotWord w.tm.nest f.slot.toNat
     let m := (shape.extractLsb' 0 5).toNat + 1
     let row0 := (shape.extractLsb' 5 5).toNat
     let koff := (shape.extractLsb' 10 6).toNat
     let klen := (shape.extractLsb' 16 6).toNat + 1
     let noff := (shape.extractLsb' 22 7).toNat
     let nlen := (shape.extractLsb' 32 7).toNat + 1
     let tile := (run.extractLsb' 16 6).toNat
     let bar := 8 * (shape.extractLsb' 40 21).toNat
     let zeros := run.extractLsb' 22 10 = 0 ∧ shape.extractLsb' 61 3 = 0 ∧ shape.extractLsb' 39 1 = 0 ∧
       shape.extractLsb' 29 3 = 0
     (∀ (i : Nat) (r : Residency), s.live? w.ctx h = some (i, r) →
       (let op := fun (dist : Bool) => (⟨dist, (s.core w.core).useFor w.ctx i r, tile, rows.toNat, row0, m, koff, klen, noff, nlen, fmt⟩ : RunOp)
        let fits := fun (dist : Bool) => koff + klen ≤ r.k32 ∧ noff + nlen ≤ r.n16 ∧ row0 + m ≤ 32 ∧
          tile + (nlen + 1) / 2 ≤ w.tm.shape.tiles ∧ (fmt &&& 0xF).toNat ∈ [8, 9, 10] ∧
          (dist = true → ¬ ((fmt &&& 0xF).toNat = 10 ∧ (r.fmt &&& 0xF).toNat = 11))
        let placed := rows.toNat % 16 = 0 ∧ (∃ x, s.padAt w.team w.tm rows.toNat (op false).bytes = .ok x) ∧
          w.barAt s (BitVec.ofNat 32 bar) = .ok bar
        (zeros → fits false → placed → s.resState w.core w.ctx i r ≠ 4 → w.canPost s [bar] = true →
          PostsEntry (.mxRun f) s w (.run (op false)) bar w.g.r) ∧
        (zeros → fits true → placed → s.resState w.core w.ctx i r ≠ 4 → w.canPost s [bar] = true →
          PostsEntry (.mxDist f) s w (.run (op true)) bar w.g.r) ∧
        (zeros → fits false → placed → s.resState w.core w.ctx i r = 4 → w.blocked = false → w.g.t.inh = false →
          w.g.noneOut = true → (w.slot = true → w.g.t.pend0 = none) → (s.ctx w.ctx).handler ≠ 0 → s.fetchError w.core w.ctx (s.ctx w.ctx).handler = none →
          ∃ t g, Gives (.mxRun f) s t ∧ OnlyGroup s t w.team w.grp w.tm g ∧
            Entered w g ⟨.staleRes, w.pc, 0, w.pc, h.setWidth 64, 0⟩ w.ps.repc (s.ctx w.ctx).handler) ∧
        (zeros → ¬ fits false → w.blocked = false → ∃ t, Gives (.mxRun f) s t ∧ Faulted w s t .illegal 0) ∧
        (zeros → ¬ fits true → w.blocked = false → ∃ t, Gives (.mxDist f) s t ∧ Faulted w s t .illegal 0) ∧
        (zeros → fits false → rows.toNat % 16 ≠ 0 → w.blocked = false →
          ∃ t, Gives (.mxRun f) s t ∧ Faulted w s t .misalign (rows.setWidth 64)))) ∧
     ((¬ zeros ∨ s.live? w.ctx h = none) → w.blocked = false →
       (∃ t, Gives (.mxRun f) s t ∧ Faulted w s t .illegal 0) ∧ ∃ t, Gives (.mxDist f) s t ∧ Faulted w s t .illegal 0))

/-- MX.ZERO, MX.DRAIN and MX.TOPK with legal fields, their bytes inside an allocation and room post the operation that their
operand spells; a drain through a slot with SR moves the LFSR of lane 0 on by one step an element (10 R205, R206, R208, 22 R383). -/
def Obligations.EpilogueWords : Prop :=
  ∀ (s : State) (w : Site) (f : SPairReg) (bar : Nat), s.site? = some w → w.unperformed = false →
    (let x := w.g.r.rdS64 f.a.toNat
     let tile := (x.extractLsb' 0 6).toNat
     let m := (x.extractLsb' 6 5).toNat + 1
     let n := (x.extractLsb' 14 7).toNat + 1
     let dst := (x.extractLsb' 24 24).toNat
     let inside := fun (a len : Nat) => ∃ y, s.padAt w.team w.tm a len = .ok y
     (x.extractLsb' 6 8 = 0 → x.extractLsb' 21 43 = 0 → n ≤ 64 → tile + n ≤ w.tm.shape.tiles →
       w.barAt s (w.g.r.rdS f.b.toNat) = .ok bar → w.canPost s [bar] = true →
       PostsEntry (.mxZero f) s w (.zero tile n) bar w.g.r) ∧
     (x.extractLsb' 6 8 ≠ 0 ∨ x.extractLsb' 21 43 ≠ 0 ∨ 64 < n ∨ w.tm.shape.tiles < tile + n → w.blocked = false →
       ∃ t, Gives (.mxZero f) s t ∧ Faulted w s t .illegal 0) ∧
     (let slotNo := (x.extractLsb' 21 3).toNat
      let pitch := (x.extractLsb' 48 16).toNat
      let slot := s.fslotWord w.tm.nest slotNo
      let fmt := (slot &&& 0xF).toNat
      let bits := n * fmtWidth fmt
      (x.extractLsb' 11 3 = 0 → n ≤ 32 → tile < w.tm.shape.tiles → fmt ≤ 7 → bits % 8 = 0 → bits / 8 ≤ pitch →
        (∀ r, r < m → inside (dst + r * pitch) (bits / 8)) → w.barAt s (w.g.r.rdS f.b.toNat) = .ok bar →
        w.canPost s [bar] = true →
        PostsEntry (.mxDrain f) s w (.drain dst pitch n m tile slot slotNo (w.g.r.draw 0)) bar
          (if (FmtSlot.ofWord slot).rm = .sr then w.g.r.stepLfsr (m * n) [0] else w.g.r)) ∧
      (x.extractLsb' 11 3 ≠ 0 ∨ 32 < n ∨ w.tm.shape.tiles ≤ tile ∨ 7 < fmt ∨ bits % 8 ≠ 0 ∨ pitch < bits / 8 →
        w.blocked = false → ∃ t, Gives (.mxDrain f) s t ∧ Faulted w s t .illegal 0)) ∧
     (let k := (x.extractLsb' 11 3).toNat + 1
      (x.extractLsb' 21 3 = 0 → x.extractLsb' 48 16 = 0 → k ≤ n → tile + (n + 31) / 32 ≤ w.tm.shape.tiles → dst % 16 = 0 →
        (∀ r, r < m → inside (dst + 16 * r) (2 * k) ∧ inside (dst + 512 + 32 * r) (4 * k)) →
        w.barAt s (w.g.r.rdS f.b.toNat) = .ok bar → w.canPost s [bar] = true →
        PostsEntry (.mxTopk f) s w (.topk dst k n m tile) bar w.g.r) ∧
      (x.extractLsb' 21 3 ≠ 0 ∨ x.extractLsb' 48 16 ≠ 0 ∨ n < k ∨ w.tm.shape.tiles < tile + (n + 31) / 32 →
        w.blocked = false → ∃ t, Gives (.mxTopk f) s t ∧ Faulted w s t .illegal 0)))

/-- MX.RALLOC with a legal shape takes the lowest free handle and posts it, with a fresh residency and an instance of it on its
core, when macros, quota and a handle are free; otherwise it posts 0 and RCAUSE says which is lacking.
MX.RLOAD makes the residency loaded, of the next load generation, and posts its load. MX.RPIN sets or clears the pin. MX.REVOKE of
an idle residency frees its handle under the next generation and drops its instances, and of a dead handle only moves on. MX.RQRY
posts the query word, 0 for a dead handle: its format and source are those of the load that is queued there, of the older instance
that operations still use, or else of the residency, and never a mixture (10 R179 to R191, 22 R384 to R387). -/
def Obligations.ResidencyWords : Prop :=
  ∀ (s : State) (w : Site), s.site? = some w → w.unperformed = false →
    (∀ f : LaDA,
      (let x := w.g.r.rdS f.a.toNat
       let k32 := (x.extractLsb' 0 6).toNat + 1
       let n16 := (x.extractLsb' 8 7).toNat + 1
       let n := (32 * k32 + 127) / 128 * ((16 * n16 + 127) / 128)
       let ten := s.tenantOf w.ctx
       let legal := x.extractLsb' 15 17 = 0 ∧ x.extractLsb' 6 2 = 0 ∧ k32 ≤ 48 ∧ n16 ≤ 96 ∧ n ≤ 12
       let fails := fun (c : Nat) => ∃ t g p, Gives (.mxRalloc f) s t ∧ OnlyGroup s t w.team w.grp w.tm g ∧
         g.r.gstat.extractLsb' 8 2 = BitVec.ofNat 2 c ∧ g.pend.getLast? = some p ∧ p.kind = .value ∧
         p.writes = [.s f.d.toNat 0]
       (legal → n ≤ (s.core w.core).freeMacros → s.macrosUsed ten + n ≤ s.quota ten →
         (∀ i, i < 256 → ((s.ctx w.ctx).handle i).res.isNone = true →
           (∀ j, j < i → ((s.ctx w.ctx).handle j).res.isSome = true) →
           (let gen := ((s.ctx w.ctx).handle i).gen
            ∃ t g p, Gives (.mxRalloc f) s t ∧ t.m = s.m ∧ t.group? w.team w.grp = some g ∧
              g.r = w.g.r.advance w.slot ∧ g.pend.getLast? = some p ∧ p.kind = .value ∧
              p.writes = [.s f.d.toNat (BitVec.ofNat 32 (256 * gen + i))] ∧
              (t.ctx w.ctx).handle i = ⟨gen, some ⟨k32, n16, 8, false, false, none, 0, 0, 0, [], 0, [], []⟩⟩ ∧
              (t.core w.core).copies = (s.core w.core).copies ++ [⟨w.ctx, i, n, 0, 8, [], [], s.tick, false⟩]))) ∧
       (legal → (s.core w.core).freeMacros < n → s.victim w.core w.ctx 256 = none → fails 1) ∧
       (legal → n ≤ (s.core w.core).freeMacros → s.quota ten < s.macrosUsed ten + n → fails 2) ∧
       (legal → n ≤ (s.core w.core).freeMacros → s.macrosUsed ten + n ≤ s.quota ten →
         (∀ i, i < 256 → ((s.ctx w.ctx).handle i).res.isSome = true) → fails 3) ∧
       (¬ legal → w.blocked = false → ∃ t, Gives (.mxRalloc f) s t ∧ Faulted w s t .illegal 0))) ∧
    (∀ (f : MxRloadF) (off i bar : Nat) (r : Residency) (d0 d1 d2 : W64) (pad : Bool),
      w.padPhys s 8 (w.g.r.rdS f.b.toNat) = .ok (w.team, off) → off + 32 ≤ w.tm.padBytes →
      (w.g.r.rdS f.b.toNat).toNat < 0x80000 → s.padAbsent w.team off 32 = false →
      s.padRead w.team off 32 = natToBytes 8 d0.toNat ++ natToBytes 8 d1.toNat ++ natToBytes 8 d2.toNat ++
        natToBytes 8 pad.toNat →
      d0.toNat % 8 = 0 → d1.toNat % 8 = 0 → d2.toNat % 8 = 0 → d2.toNat / 2 ^ 32 % 8 = 0 →
      (w.g.r.rdS f.a.toNat).extractLsb' 16 16 = 0 →
      s.live? w.ctx ((w.g.r.rdS f.a.toNat).extractLsb' 0 16) = some (i, r) →
      (s.fslotWord w.tm.nest f.slot.toNat &&& 0xF).toNat ∈ [8, 9, 10, 11] →
      w.barAt s (w.g.r.rdS f.c.toNat) = .ok bar → w.canPost s [bar] = true →
      (let slot := s.fslotWord w.tm.nest f.slot.toNat
       let src : ResSource := ⟨d0, d1, (lo32 d2).toNat, (hi32 d2).toNat, slot⟩
       let kept : Option ResSource := if pad then none else some src
       ∃ t g r', Gives (.mxRload f) s t ∧ t.m = s.m ∧ t.group? w.team w.grp = some g ∧
         g.r = w.g.r.advance w.slot ∧ (t.ctx w.ctx).handle i = ⟨((s.ctx w.ctx).handle i).gen, some r'⟩ ∧
         r' = { r with fmt := slot, loaded := true, source := kept, loadGen := r.loadGen + 1,
                       seen := r.seen.put w.core r.marks, pads := r.pads + pad.toNat,
                       padSeen := r.padSeen.put w.core (r.pads + pad.toNat), overflow := r'.overflow } ∧
         (t.core w.core).fifo = (rowsHit w.team bar 8 (s.core w.core)).fifo ++ [⟨w.team, w.grp, w.tm.nest, w.ctx, w.pc,
           .rload ⟨i, r.k32, r.n16, r.loadGen + 1, slot, kept⟩ src pad f.slot.toNat, bar, w.g.r.fpm.getLsbD 7, none,
           (0, 0, 0), [], []⟩])) ∧
    (∀ (a : BitVec 8) (h : BitVec 16) (i : Nat) (r : Residency), w.g.r.rdS a.toNat = h.setWidth 32 →
      s.live? w.ctx h = some (i, r) →
      (∀ pin, ∃ t g, Gives (.mxRpin ⟨a, pin⟩) s t ∧ t = { s with teams := t.teams, ctxs := t.ctxs } ∧
        t.live? w.ctx h = some (i, { r with pinned := pin }) ∧ t.group? w.team w.grp = some g ∧
        g.r = w.g.r.advance w.slot) ∧
      ((∀ e ∈ s.cores, e.2.busy w.ctx i = false) →
        ∃ t g, Gives (.mxRevoke ⟨a⟩) s t ∧ t.m = s.m ∧ (t.ctx w.ctx).handle i =
            ⟨if ((s.ctx w.ctx).handle i).gen = 255 then 1 else ((s.ctx w.ctx).handle i).gen + 1, none⟩ ∧
          (∀ c, (t.core c).copies = (s.core c).copies.filter fun m => !(m.ctx == w.ctx && m.index == i)) ∧
          t.group? w.team w.grp = some g ∧ g.r = w.g.r.advance w.slot) ∧
      (∀ (la : BitVec 4) (d : BitVec 8),
        (let c := s.core w.core
         let posts := fun (fmt : W32) (source : Option ResSource) => ∃ t, Gives (.mxRqry ⟨la, d, a⟩) s t ∧
           Posted w s t la (.mxRqry ⟨la, d, a⟩) .value
             [.s d.toNat (BitVec.ofNat 32 ((r.n16 - 1) * 2 ^ 23 + (r.k32 - 1) * 2 ^ 17 +
               (32 * r.k32 + 127) / 128 * ((16 * r.n16 + 127) / 128) * 2 ^ 13 + (fmt &&& 0xF).toNat * 2 ^ 9 +
               source.isSome.toNat * 2 ^ 5 + r.pinned.toNat * 2 ^ 4 + s.resState w.core w.ctx i r))] 0
         (c.lastLoad w.ctx i = none → (∀ m, c.copy? w.ctx i = some m → r.loadGen ≤ m.loadGen) → posts r.fmt r.source) ∧
         (r.seen.getD w.core 0 < r.marks → posts r.fmt r.source) ∧
         (∀ u, r.marks ≤ r.seen.getD w.core 0 → c.lastLoad w.ctx i = some u → posts u.fmt u.source) ∧
         (∀ m u, r.marks ≤ r.seen.getD w.core 0 → c.lastLoad w.ctx i = none → c.copy? w.ctx i = some m → m.loadGen < r.loadGen →
           c.lastUpTo w.ctx i m.loadGen = some u → posts u.fmt u.source)))) ∧
    (∀ (a : BitVec 8) (h : BitVec 16), w.g.r.rdS a.toNat = h.setWidth 32 → s.live? w.ctx h = none →
      (∃ t, Gives (.mxRevoke ⟨a⟩) s t ∧ Committed w s t w.g.r) ∧
      (∀ (la : BitVec 4) (d : BitVec 8), ∃ t, Gives (.mxRqry ⟨la, d, a⟩) s t ∧
        Posted w s t la (.mxRqry ⟨la, d, a⟩) .value [.s d.toNat 0] 0) ∧
      (∀ pin, w.blocked = false → ∃ t, Gives (.mxRpin ⟨a, pin⟩) s t ∧ Faulted w s t .illegal 0))

/-- RESIDENCY_FIRST_USE of the head of an idle array gives its core an instance, blank when no device source fills it, when macros
and quota allow; an instance that a device source has filled is LOADING until the next such step (log entry 29).
ARRAY_ENTRY_START moves the head into the pass, a quarter operation with the bytes of its rows. ARRAY_OP_COMPLETE
ends the first operation of the pass, whose barrier object takes its arrival: after MX.ZERO its tiles read 0 and no other tile has
changed; after MX.RUN or MX.DIST, of whose rows no group has rewritten a byte, each of its tile elements holds its result and no other
has changed. INSTANCE_DISCARD drops an idle
instance of an older load generation (05 R120, R121, 10 R182, R186, R200 to R209). -/
def Obligations.ArraySteps : Prop :=
  ∀ (s : State) (core : Nat),
    (let c := s.core core
     (∀ (e : ArrayEntry) (rest : List ArrayEntry) (u : ResUse), c.pass = [] → c.fifo = e :: rest → e.served c = false →
       e.firstUse? = some (u, none) → (∀ m ∈ c.copies, m.is e.ctx u.handle = false) →
       resMacros u.k32 u.n16 ≤ c.freeMacros →
       s.macrosUsed (s.tenantOf e.ctx) + resMacros u.k32 u.n16 ≤ s.quota (s.tenantOf e.ctx) → s.cores.sorted = true →
       ∃ t, Gives (.residencyFirstUse core) s t ∧ t = { s with cores := t.cores } ∧
         t.core core = { c with copies := c.copies ++
           [⟨e.ctx, u.handle, resMacros u.k32 u.n16, u.loadGen, u.fmt, [], [], s.tick, false⟩] } ∧
         ∀ k, k ≠ core → t.core k = s.core k) ∧
     (∀ (e : ArrayEntry) (rest : List ArrayEntry) (u : ResUse) (src : Option ResSource) (m : MacroCopy), c.pass = [] →
       c.fifo = e :: rest → e.served c = false → e.firstUse? = some (u, src) → c.copies = [m] →
       m.is e.ctx u.handle = true → m.loading = true →
       ∃ t, Gives (.residencyFirstUse core) s t ∧ t = { s with cores := t.cores } ∧
         t.core core = { c with copies := [{ m with loading := false }] } ∧ ∀ k, k ≠ core → t.core k = s.core k) ∧
     (∀ (e : ArrayEntry) (rest : List ArrayEntry), c.pass = [] → c.fifo = e :: rest →
       (∀ tile n, e.op = .zero tile n → ∃ t, Gives (.arrayEntryStart core) s t ∧ t = { s with cores := t.cores } ∧
         t.core core = { c with fifo := rest, pass := [e] } ∧ ∀ k, k ≠ core → t.core k = s.core k) ∧
       (∀ op b, e.op = .run op → e.served c = true → s.rowsOf e op = some b → rest = [] →
         ∃ t, Gives (.arrayEntryStart core) s t ∧ t = { s with cores := t.cores } ∧
           (∃ x, t.core core = { c with fifo := [], pass := [{ e with rows := b, nan := x }] }) ∧
           ∀ k, k ≠ core → t.core k = s.core k)) ∧
     (∀ (e : ArrayEntry) (rest : List ArrayEntry) (tm : Team), c.pass = e :: rest → s.teams.find? e.team = some tm →
       (s.object e.team e.bar).inv = false → s.hasWaiters e.team e.bar = false →
       (∀ tile n, e.op = .zero tile n → ∃ t tm', Gives (.arrayOpComplete core) s t ∧ t.m = s.m ∧
         (t.core core).pass = rest ∧ t.teams.find? e.team = some tm' ∧
         (∀ x r k, r < 32 → k < 32 → tm'.tiles.getD (tileKey x r k) 0 =
           if tile ≤ x ∧ x < tile + n then 0 else tm.tiles.getD (tileKey x r k) 0) ∧
         (let o := (s.object e.team e.bar).arrive 1
          t.padRead e.team e.bar 8 =
            natToBytes 8 ({ o.1 with pend := (s.object e.team e.bar).pend - 1 } : BarObj).word.toNat)) ∧
       (∀ op m, e.op = .run op → e.spoiled = [] → c.copy? e.ctx op.use.handle = some m → op.row0 + op.m ≤ 32 →
         ∃ t tm', Gives (.arrayOpComplete core) s t ∧ t.m = s.m ∧ (t.core core).pass = rest ∧
         t.teams.find? e.team = some tm' ∧
         (∀ r k, r < op.m → k < 16 * op.nlen →
           tm'.tiles.getD (tileKey (op.tile + k / 32) (op.row0 + r) (k % 32)) 0 =
             (if op.dist then distElem (op.pairs m e.rows r (16 * op.noff + k))
              else runElem (tm.tiles.getD (tileKey (op.tile + k / 32) (op.row0 + r) (k % 32)) 0)
                (op.pairs m e.rows r (16 * op.noff + k))).1) ∧
         (∀ x r k, r < 32 → k < 32 → (32 * x + k < 32 * op.tile ∨ 32 * op.tile + 16 * op.nlen ≤ 32 * x + k ∨ r < op.row0 ∨
             op.row0 + op.m ≤ r) →
           tm'.tiles.getD (tileKey x r k) 0 = tm.tiles.getD (tileKey x r k) 0))) ∧
     (∀ (ctx h : Nat) (m : MacroCopy) (r : Residency), c.copy? ctx h = some m → ((s.ctx ctx).handle h).res = some r →
       m.loadGen < r.loadGen → c.lastUpTo ctx h m.loadGen = none → ∃ t, Gives (.instanceDiscard core ctx h) s t ∧
         t = { s with cores := t.cores } ∧
         t.core core = { c with copies := c.copies.filter fun m => !(m.ctx == ctx && m.index == h) } ∧
         ∀ k, k ≠ core → t.core k = s.core k))


/-! ### FORK, RDV and the Sluice processor -/

/-- FORK by the producer group starts the lowest FREE Sluice context of its core under the next serial and posts the ticket; with
none FREE it waits, by another group it raises COPY_RIGHTS, and a misaligned program MISALIGN. RDV of a running context waits; of
an ENDED one it makes the context FREE, keeps its serial, and writes whether its status is 0; with a ticket that names no context
of the team it raises ILLEGAL (11 R211 to R214, 21 R358, 22 R399). -/
def Obligations.ForkWords : Prop :=
  ∀ (s : State) (w : Site), s.site? = some w → w.unperformed = false →
    (∀ f : ForkF,
      (let prog := w.g.r.rdS64 f.a.toNat
       let args := w.g.r.rdS64 f.b.toNat
       (∀ n, w.grp = w.tm.shape.producer → prog.toNat % 8 = 0 → n < 4 → ((s.core w.core).sl n).state = .free →
         (∀ k, k < n → ((s.core w.core).sl k).state ≠ .free) →
         (let serial := ((s.core w.core).sl n).serial + 1
          ∃ t g, Gives (.fork f) s t ∧ t = { s with cores := t.cores, teams := t.teams } ∧
            t.core w.core = (s.core w.core).setSl n { SlCtx.reset with
              state := .running, serial := serial, w := if args = 0 then [] else [(0, args)], pc := prog,
              owner := .team w.team w.tm.nest, ctx := w.ctx, wait := some (.ticket w.grp w.g.nextId) } ∧
            (∀ k, k ≠ w.core → t.core k = s.core k) ∧ t.group? w.team w.grp = some g ∧
            g = PostedGroup w f.la (.fork f) .value [.s f.d.toNat (BitVec.ofNat 32 (256 * serial.toNat + n))] 0)) ∧
       (w.grp = w.tm.shape.producer → prog.toNat % 8 = 0 → (∀ k, k < 4 → ((s.core w.core).sl k).state ≠ .free) →
         Gives (.fork f) s s) ∧
       (w.grp ≠ w.tm.shape.producer → w.blocked = false → ∃ t, Gives (.fork f) s t ∧ Faulted w s t .copyRights 0) ∧
       (w.grp = w.tm.shape.producer → prog.toNat % 8 ≠ 0 → w.blocked = false →
         ∃ t, Gives (.fork f) s t ∧ Faulted w s t .misalign prog))) ∧
    (∀ f : RdvF,
      (let x := w.g.r.rdS f.a.toNat
       let n := (x.extractLsb' 0 2).toNat
       let c := (s.core w.core).sl n
       let named := x.extractLsb' 2 6 = 0 ∧ c.state ≠ .free ∧ c.serial = x.extractLsb' 8 24 ∧
         ∃ k, c.owner = .team w.team k
       (named → c.state = .running → Gives (.rdv f) s s) ∧
       (named → c.state = .ended → ∃ t g, Gives (.rdv f) s t ∧ t = { s with cores := t.cores, teams := t.teams } ∧
         t.core w.core = (s.core w.core).setSl n { SlCtx.reset with serial := c.serial } ∧
         t.group? w.team w.grp = some g ∧ g.r = (w.wrPred f.p (c.status == 0)).advance w.slot) ∧
       (¬ named → w.blocked = false → ∃ t, Gives (.rdv f) s t ∧ Faulted w s t .illegal 0)))

/-- The register words of a Sluice context change their register, flag, descriptor or PC and nothing else; SL.SETD raises
SL_ILLEGAL for a field or value that it does not take; the words that post work, SL.STAMP and SL.SIGNAL, append it; SL.END waits
for it; and SL.WAIT goes on, waits, or raises BARRIER_INVALID as its object says, and leaves the object as it found it (11 R216 to R218,
R226, 23 R414 to R429). SL.IDX and
SL.SEGNEXT, whose pages a TLB holds, read their words through the SLUICE path and wait for the data, which SLUICE_INDEX_LOAD_DATA
writes; SL.XFER of a legal pair of descriptors, each of device memory or of scratchpad, cuts its elements into transfers of at most
4,096 destination bytes and issues one at each run that finds a slot free, and the context goes on after the last; SL.BMEXP issues the
elements that its bitmap spreads; both clear the presence bits of every scratchpad line of their destination as they start, and no
other (08 R148); SL.CBLOAD fills the codebook store of its core (11 R219, R220, R223, R225, 23 R416, R418, R421, R425, R430). The
order in which posted work performs is log entry 30, and that SL.BMEXP reads its bitmap at once log entry 64. -/
def Obligations.SluiceWords : Prop :=
  (∀ (s : State) (core n : Nat) (c : SlCtx), s.slSite? = some ⟨core, n, c⟩ →
     (let b := fun (x : SlB) => match x with
        | .reg r => c.rd r.toNat
        | .imm v => v.signExtend 64
      let next : SlCtx := { c with pc := c.pc + 8 }
      let dest := fun (off : BitVec 32) => c.pc + 8 + (off.signExtend 64 <<< 3)
      (∀ f : SlAluF, ChangesSl (.slAdd f) s core n (next.wr f.d.toNat (c.rd f.a.toNat + b f.b))) ∧
      (∀ f : SlMadF, ChangesSl (.slMad f) s core n
        (next.wr f.d.toNat (c.rd f.a.toNat * c.rd f.b.toNat + c.rd f.c.toNat))) ∧
      (∀ f : SlMovF, ChangesSl (.slMov f) s core n (next.wr f.d.toNat (b f.src))) ∧
      (∀ f : SlCmpF, ChangesSl (.slCmp f) s core n { next with flag :=
        match f.cmp with
        | .eq => decide (c.rd f.a.toNat = b f.b)
        | .ne => decide (c.rd f.a.toNat ≠ b f.b)
        | .lt => decide ((c.rd f.a.toNat).toInt < (b f.b).toInt)
        | .le => decide ((c.rd f.a.toNat).toInt ≤ (b f.b).toInt)
        | .gt => decide ((b f.b).toInt < (c.rd f.a.toNat).toInt)
        | .ge => decide ((b f.b).toInt ≤ (c.rd f.a.toNat).toInt) }) ∧
      (∀ f : SlBrF, ChangesSl (.slBr f) s core n
        (if f.cond = .al ∨ (f.cond = .t ∧ c.flag = true) ∨ (f.cond = .f ∧ c.flag = false) then { c with pc := dest f.off }
         else next)) ∧
      (∀ f : SlLoopF, ChangesSl (.slLoop f) s core n
        (if c.rd f.a.toNat = 1 then next.wr f.a.toNat 0
         else { c.wr f.a.toNat (c.rd f.a.toNat - 1) with pc := dest f.off })) ∧
      (∀ f : SlSetdF,
        (let d := c.descr f.desc
         let x := c.rd f.a.toNat
         let sets := fun (y : SlDescr) =>
           ChangesSl (.slSetd f) s core n { next with desc := listUpd (fun _ => y) f.desc.toNat c.desc }
         let k := f.field.toNat
         (k = 0 → sets { d with base := x }) ∧
         (1 ≤ k → k ≤ 5 → x.toNat < 2 ^ 32 → sets { d with sizes := listUpd (fun _ => lo32 x) (k - 1) d.sizes }) ∧
         (6 ≤ k → k ≤ 10 → sets { d with strides := listUpd (fun _ => x) (k - 6) d.strides }) ∧
         (k = 11 → x.toNat < 128 → sets { d with ctrl := x.setWidth 8 }) ∧
         ((1 ≤ k ∧ k ≤ 5 ∧ 2 ^ 32 ≤ x.toNat) ∨ (k = 11 ∧ 128 ≤ x.toNat) ∨ 12 ≤ k →
           ∃ t, Gives (.slSetd f) s t ∧ ((t.core core).sl n).faulted = some (.illegal, c.pc, 0, s.time)))) ∧
      (∀ f : SlAB, (c.rd f.a.toNat).toNat % 8 = 0 → ChangesSl (.slStamp f) s core n
        { next with work := c.work ++ [.stamp c.pc (c.rd f.a.toNat) (c.rd f.b.toNat)] }) ∧
      (∀ f : SlSignalF, (c.rd f.a.toNat).toNat % 8 = 0 → ChangesSl (.slSignal f) s core n
        { next with work := c.work ++ [.signal c.pc f.op f.sys (c.rd f.a.toNat) (c.rd f.b.toNat)] }) ∧
      (∀ f : SlEndF, ChangesSl (.slEnd f) s core n { c with status := f.status, wait := some .ending }) ∧
      (∀ (f : SlWaitF) (team off : Nat), s.slObj c (c.rd f.a.toNat) = .ok (team, off) →
        ((s.object team off).inv = true →
          ∃ t, Gives (.slWait f) s t ∧ ((t.core core).sl n).faulted = some (.barrierInvalid, c.pc, c.rd f.a.toNat, s.time)) ∧
        (let acts := fun (c' : SlCtx) => ∃ t, Gives (.slWait f) s t ∧ t = { s with cores := t.cores, teams := t.teams } ∧
           t.core core = (s.core core).setSl n c' ∧ (∀ k, k ≠ core → t.core k = s.core k) ∧
           t.padRead team off 8 = natToBytes 8 (s.object team off).word.toNat ∧
           ∀ k a, k ≠ team ∨ a < off ∨ off + 8 ≤ a → t.padRead k a 1 = s.padRead k a 1
         ((s.object team off).inv = false → (s.object team off).phase ≠ f.ph → acts next) ∧
         ((s.object team off).inv = false → (s.object team off).phase = f.ph →
           acts { c with wait := some (.barrier off f.ph) }))) ∧
      (∀ (f : SlArriveF) (team off : Nat), f.n ≠ 0 → s.slObj c (c.rd f.a.toNat) = .ok (team, off) →
        (s.object team off).pend < 8191 →
        (let o := s.object team off
         ∃ t, Gives (.slArrive f) s t ∧ t = { s with cores := t.cores, teams := t.teams } ∧
           t.core core = (s.core core).setSl n { next with work := c.work ++ [.arrive c.pc off f.n.toNat] } ∧
           t.padRead team off 8 = natToBytes 8 ({ o with pend := o.pend + 1 } : BarObj).word.toNat)))) ∧
  (∀ (s : State) (core n : Nat) (c : SlCtx), s.slSite? = some ⟨core, n, c⟩ →
     (let next : SlCtx := { c with pc := c.pc + 8 }
      let gives := fun (i : Instr) (c' : SlCtx) => ∃ t, Gives i s t ∧ (t.core core).sl n = c' ∧
        ∀ key pa, t.homeByte key pa = s.homeByte key pa
      let waits := fun (i : Instr) (l : List (Nat × W64)) => gives i { c with wait := some (.load l) }
      let held := fun (a : W64) => s.needWalk core c.ctx (a.toNat / 4096) = false
      let read := fun (ph : Phys) (k : Nat) => bytesToNat (s.readPath .sluice ph k)
      (∀ (f : SlIdxF) (ph : Phys),
        (let a := c.rd f.a.toNat + f.off.signExtend 64
         let k := 2 ^ f.size.toNat
         a.toNat % k = 0 → held a → s.resolve core c.ctx .read a.toNat = .ok ph → c.work = [] →
           waits (.slIdx f) [(f.d.toNat, BitVec.ofNat 64 (read ph k))])) ∧
      (∀ (f : SlDA) (p q : Phys), f.d ≠ f.a → (c.rd f.a.toNat).toNat % 4 = 0 → (c.rd f.a.toNat).toNat + 4 < 2 ^ 64 →
        held (c.rd f.a.toNat) → held (c.rd f.a.toNat + 4) →
        s.resolve core c.ctx .read (c.rd f.a.toNat).toNat = .ok p →
        s.resolve core c.ctx .read ((c.rd f.a.toNat).toNat + 4) = .ok q → c.work = [] →
        (read p 4 ≤ read q 4 → waits (.slSegnext f)
          [(f.d.toNat, BitVec.ofNat 64 (read p 4 + (read q 4 - read p 4) * 2 ^ 32)), (f.a.toNat, c.rd f.a.toNat + 4)]) ∧
        (read q 4 < read p 4 → ∃ t, Gives (.slSegnext f) s t ∧
          ((t.core core).sl n).faulted = some (.csrOrder, c.pc, c.rd f.a.toNat, s.time))) ∧
      (∀ f : SlXferF,
        (let a := c.descr f.src
         let b := c.descr f.dst
         let elems := fun (lo k : Nat) => (List.range k).map fun j => (some (a.addr (lo + j)), b.addr (lo + j))
         let fits := fun (l : List (List (Option W64 × W64))) => ∀ x ∈ l, x ≠ [] ∧ x.length * b.esize ≤ 4096
         let slot := (s.slSlot c b.slotNo).getD 0
         let kind : XferKind := match f.mode with
           | .copy => .copy
           | .decode => .decode
           | .convert => .convert slot b.slotNo c.lfsr
         let ready := c.inFlight < 64 ∧ (f.mode = .decode → (s.core core).book.tag = some c.owner)
         let issued := fun (lines : List (Nat × Nat)) (x : List (Option W64 × W64)) (rest : List (List (Option W64 × W64))) =>
           ({ c with
              pc := if rest = [] then c.pc + 8 else c.pc
              lfsr := if f.mode = .convert ∧ (FmtSlot.ofWord slot).rm = .sr then lfsrSteps x.length c.lfsr else c.lfsr
              work := c.work ++ [.xfer c.pc kind a.esize b.esize a.space b.space x lines]
              todo := rest } : SlCtx)
         (b.space = true → c.todo = [] → f.src ≠ f.dst → SlSite.modeOk ⟨core, n, c⟩ s f.mode a b = true →
           ∀ at_ : Nat → Nat × Nat, (∀ j, j < b.count → s.slPad c (b.addr j) b.esize = .ok (at_ j)) →
           (let k := min (4096 / b.esize) b.count
            let clears := fun (c' : SlCtx) => ∃ t, Gives (.slXfer f) s t ∧ t = { s with cores := t.cores, teams := t.teams } ∧
              t.core core = (s.core core).setSl n c' ∧ (∀ k, k ≠ core → t.core k = s.core k) ∧
              (∀ j, j < b.count → t.padAbsent (at_ j).1 (at_ j).2 b.esize = true) ∧
              (∀ team line, (∀ j, j < b.count → (team, line) ≠ ((at_ j).1, (at_ j).2 / 128)) →
                t.padAbsent team (128 * line) 128 = s.padAbsent team (128 * line) 128) ∧
              ∀ team a, t.padRead team a 1 = s.padRead team a 1
            (ready → ∃ rest lines, rest.flatten = elems k (b.count - k) ∧ fits rest ∧
              (∀ y, y ∈ lines ↔ ∃ j, j < k ∧ y = ((at_ j).1, (at_ j).2 / 128)) ∧ clears (issued lines (elems 0 k) rest)) ∧
            (64 ≤ c.inFlight → ∃ l, l.flatten = elems 0 b.count ∧ fits l ∧ clears { c with todo := l }))) ∧
         (b.space = true → ∀ (at_ : W64 → Nat × Nat) x rest, c.todo = x :: rest → ready →
           (∀ e ∈ x, s.slPad c e.2 b.esize = .ok (at_ e.2)) →
           ∃ lines, (∀ y, y ∈ lines ↔ ∃ e ∈ x, y = ((at_ e.2).1, (at_ e.2).2 / 128)) ∧
             ChangesSl (.slXfer f) s core n (issued lines x rest)) ∧
         (b.space = false →
           (c.todo = [] → f.src ≠ f.dst → SlSite.modeOk ⟨core, n, c⟩ s f.mode a b = true →
             (let k := min (4096 / b.esize) b.count
              (ready → ∃ rest, rest.flatten = elems k (b.count - k) ∧ fits rest ∧
                ChangesSl (.slXfer f) s core n (issued [] (elems 0 k) rest)) ∧
              (64 ≤ c.inFlight → ∃ l, l.flatten = elems 0 b.count ∧ fits l ∧
                ChangesSl (.slXfer f) s core n { c with todo := l }))) ∧
           (∀ x rest, c.todo = x :: rest → ready → ChangesSl (.slXfer f) s core n (issued [] x rest))) ∧
         (c.todo ≠ [] → 64 ≤ c.inFlight → Gives (.slXfer f) s s) ∧
         (c.todo = [] → f.src = f.dst ∨ SlSite.modeOk ⟨core, n, c⟩ s f.mode a b = false →
           ∃ t, Gives (.slXfer f) s t ∧ ((t.core core).sl n).faulted = some (.desc, c.pc, 0, s.time)))) ∧
      (∀ (f : SlBmexpF) (bits : Nat),
        (let a := c.descr f.src
         let b := c.descr f.dst
         let k := (c.rd f.a.toNat).toNat
         let first := roundUp (a.base + BitVec.ofNat 64 ((k + 7) / 8)) a.esize
         let srcs := bmSources bits a.esize k 0 first
         c.todo = [] → f.src ≠ f.dst → 1 ≤ k → k ≤ 4096 → k * b.esize ≤ 4096 → a.esizeCode ≤ 4 → b.usable = true → b.count = k →
           a.esizeCode = b.esizeCode → a.base.toNat % 8 = 0 → c.inFlight < 64 →
           (a.space = true ∨ ∀ j, j < (k + 7) / 8 → held (a.base + BitVec.ofNat 64 j)) →
           SlSite.bitmap ⟨core, n, c⟩ s a ((k + 7) / 8) = .ok (bits, false) →
           (let issued := fun (lines : List (Nat × Nat)) => ({ next with
              work := c.work ++ [.xfer c.pc .copy a.esize b.esize a.space b.space (srcs.mapIdx fun j x => (x, b.addr j)) lines]
              desc := listUpd (fun d => { d with
                base := roundUp (first + BitVec.ofNat 64 ((srcs.filter Option.isSome).length * a.esize)) 8 })
                f.src.toNat c.desc } : SlCtx)
            (b.space = false → gives (.slBmexp f) (issued [])) ∧
            (b.space = true → ∀ at_ : Nat → Nat × Nat, (∀ j, j < k → s.slPad c (b.addr j) b.esize = .ok (at_ j)) →
              ∃ t lines, Gives (.slBmexp f) s t ∧ (t.core core).sl n = issued lines ∧
                (∀ y, y ∈ lines ↔ ∃ j, j < k ∧ y = ((at_ j).1, (at_ j).2 / 128)) ∧
                (∀ j, j < k → t.padAbsent (at_ j).1 (at_ j).2 b.esize = true) ∧
                (∀ team a, t.padRead team a 1 = s.padRead team a 1) ∧
                ∀ key pa, t.homeByte key pa = s.homeByte key pa)))) ∧
      (∀ (f : SlDesc) (bytes : List Byte),
        (let d := c.descr f.desc
         d.usable = true → d.esizeCode = 4 → d.count ≤ 256 → (s.core core).decoding = false →
           (d.space = true ∨ ∀ k, k < d.count → held (d.addr k)) →
           s.bookBytes core c d (List.range d.count) = .ok bytes →
           ∃ t, Gives (.slCbload f) s t ∧ (∀ key pa, t.homeByte key pa = s.homeByte key pa) ∧
             (t.core core).sl n = { next with cbSource := some d } ∧
             (t.core core).book.tag = some c.owner ∧ (t.core core).book.count = d.count ∧
             ∀ k, k < bytes.length → (t.core core).book.data.getD k 0 = bytes.getD k 0))))

/-- SLUICE_INDEX_LOAD_DATA writes the registers of the load and the context goes on. TRANSFER_PERFORM of the only work item: an
element copied from device memory stands in scratchpad; an arrival reaches its object; a stamp stands at its home; a signal's new
value does (log entry 30). SLUICE_CONTEXT_ENDED ends a context whose work has performed; a packet's becomes FREE and its packet
succeeds when the status is 0 (11 R212, R217, R220, R228 to R230, 16 R288, 18 R296, 23 R420). -/
def Obligations.SluiceSteps : Prop :=
  ∀ (s : State) (core n : Nat) (c : SlCtx), s.slAt core n = some ⟨core, n, c⟩ →
    (∀ k x, c.wait = some (.load [(k, x)]) →
      ChangesSl (.sluiceIndexLoadData core n) s core n { c.wr k x with pc := c.pc + 8, wait := none }) ∧
    (∀ j x k y, c.wait = some (.load [(j, x), (k, y)]) →
      ChangesSl (.sluiceIndexLoadData core n) s core n { (c.wr j x).wr k y with pc := c.pc + 8, wait := none }) ∧
    (c.faulted = none →
      (∀ pc k a d team off ph, c.work = [.xfer pc .copy k k false true [(some a, d)] [(team, off / 128)]] →
        a.toNat % k = 0 → s.needWalk core c.ctx (a.toNat / 4096) = false → s.resolve core c.ctx .read a.toNat = .ok ph →
        s.slPad c d k = .ok (team, off) → k ≤ 16 → 1 ≤ k → (s.homeOf core c.ctx a.toNat).getD ph.pa < 2 ^ 45 → (s.teams.find? team).isSome →
        ∃ t, Gives (.transferPerform core n) s t ∧ (∀ key pa, t.homeByte key pa = s.homeByte key pa) ∧
          t.padRead team off k = s.readPath .sluice ph k ∧
          (∀ j x, j ≠ team ∨ x < off ∨ off + k ≤ x → t.padRead j x 1 = s.padRead j x 1) ∧
          ((t.core core).sl n).work = []) ∧
      (∀ pc off k team nest, c.work = [.arrive pc off k] → c.owner = .team team nest → (s.teams.find? team).isSome →
        (let o := s.object team off
         (o.inv = false → s.hasWaiters team off = false → ∃ t, Gives (.transferPerform core n) s t ∧ t.m = s.m ∧
           t.padRead team off 8 = natToBytes 8 ({ (o.arrive k).1 with pend := o.pend - 1 } : BarObj).word.toNat ∧
           ((t.core core).sl n).work = []) ∧
         (o.inv = true → ∃ t, Gives (.transferPerform core n) s t ∧
           ((t.core core).sl n).faulted = some (.barrierInvalid, pc, BitVec.ofNat 64 off, s.time)))) ∧
      (∀ pc a v ph, c.work = [.stamp pc a v] → a.toNat % 8 = 0 → s.resolve core c.ctx .write a.toNat = .ok ph →
        s.needWalk core c.ctx (a.toNat / 4096) = false → ph.repl = false → (∀ x ∈ s.m.collapses, x.holds ph.pa = false) →
        ph.host = false → s.hostHolds (lineOf ph.pa) = false →
        ∃ t, Gives (.transferPerform core n) s t ∧ ((t.core core).sl n).work = [] ∧
          (∀ i, i < 8 → t.homeByte ph.key (ph.pa + i) = (natToBytes 8 v.toNat).getD i 0) ∧
          ∀ key pa, lineOf pa ≠ lineOf ph.pa → t.homeByte key pa = s.homeByte key pa) ∧
      (∀ pc op sys a b ph, c.work = [.signal pc op sys a b] → a.toNat % 8 = 0 →
        s.resolve core c.ctx .write a.toNat = .ok ph → s.needWalk core c.ctx (a.toNat / 4096) = false → ph.repl = false →
        (∀ x ∈ s.m.collapses, x.holds ph.pa = false) → ph.host = false →
        s.hostHolds (lineOf ph.pa) = false → (∀ k < 4, s.m.buffer k .sluice = []) →
        (let old : W64 := BitVec.ofNat 64 (bytesToNat (readBytes (s.homeByte ph.key) ph.pa 8))
         let new := match op with
           | .add => old + b
           | .sub => old - b
           | .set => b
         ∃ t, Gives (.transferPerform core n) s t ∧ ((t.core core).sl n).work = [] ∧
           (∀ i, i < 8 → t.homeByte ph.key (ph.pa + i) = (natToBytes 8 new.toNat).getD i 0) ∧
           ∀ key pa, lineOf pa ≠ lineOf ph.pa → t.homeByte key pa = s.homeByte key pa))) ∧
    (c.wait = some .ending → c.work = [] → c.faulted = none →
      (∀ team nest, c.owner = .team team nest →
        ChangesSl (.sluiceContextEnded core n) s core n { c with state := .ended, wait := none }) ∧
      (∀ q idx, c.owner = .packet q idx → ∃ t, Gives (.sluiceContextEnded core n) s t ∧
        t = { s with cores := t.cores, queues := t.queues } ∧ (t.core core).sl n = { SlCtx.reset with serial := c.serial } ∧
        t.queue q = { s.queue q with inflight := (s.queue q).inflight.map fun p =>
          if p.id = idx then { p with work := .outcome (if c.status = 0 then none else some 0x15) } else p })) ∧
    (∀ sub pc addr time q idx s1, c.faulted = some (sub, pc, addr, time) → c.owner = .packet q idx →
      s.writeRecord (.event (.sluicePacketFault core n)) c.ctx 0 (packetFault sub pc addr n time) false = .ok s1 →
      ∃ t, Gives (.sluicePacketFault core n) s t ∧ t = { s1 with cores := t.cores, queues := t.queues } ∧
        (t.core core).sl n = { SlCtx.reset with serial := ((s1.core core).sl n).serial } ∧
        ∀ p ∈ (t.queue q).inflight, p.id = idx → p.work = .outcome (some 0x15))


/-! ### Basin engines -/

/-- An engine word whose descriptor passes its checks posts an engine word with a copy of the descriptor, and its slot moves on;
GATHER has its count outstanding; A2AV and AREDC of a configured communicator take its next ordinal. A descriptor that does not
translate raises its cause, one that fails raises what its check says, an unconfigured communicator raises ILLEGAL, and with 32
words of its core not stamped each of the five words waits, unchecked (12 R234, R235, R238, R244, 20 R307, R313, 21 R345, R361, 22
R406). What the engine descriptors accept: ESORT 1 to 65,536 pairs with its reserved bits 0, its stamp and pairs 8-byte and its
outputs 4-byte aligned; GATHER and SCATTER 1 to 4,096 positions, an operation in range, a pitch that is a multiple of 16 and no
smaller than a row, and aligned bases (12 R235, R239, R241, R243). -/
def Obligations.EngineWords : Prop :=
  (∀ (s : State) (w : Site) (a : BitVec 8) (ph : Phys), s.site? = some w → w.unperformed = false →
     s.engineCount w.core < 32 → w.devPhysIf s .read (fun x => s.l1Hit w.core x 64) 64 (w.g.r.rdS64 a.toNat) = .ok ph →
     w.rejects s (missLines (fun x => s.l1Hit w.core x 64) [ph]).length = false →
     (let d := dwords ((List.range 64).map fun i => s.coreByte w.core ph i)
      let slot := s.fslotWord w.tm.nest (slotField d)
      let vd := (s.ctx w.ctx).vd
      let word := fun (kind : EngineKind) (fmt : W32) (seq : Nat) (lines : List (Nat × Nat)) =>
        (⟨kind, d, w.team, w.grp, w.tm.nest, w.ctx, vd, w.core, w.pc, w.tm.ix, w.g.nextId, .issued, [], lines, fmt, 0, seq,
          s.time⟩ : EngineWord)
      let posts := fun (i : Instr) (e : EngineWord) => ∃ t g, Gives i s t ∧ t.engines.find? s.serial = some e ∧
        (∀ k, k ≠ s.serial → t.engines.find? k = s.engines.find? k) ∧ (∀ key pa, t.homeByte key pa = s.homeByte key pa) ∧
        t.group? w.team w.grp = some g ∧ g.r = w.g.r.advance w.slot
      ((checkEsort d = none → posts (.esort ⟨a⟩) (word .esort 0 0 [])) ∧
        (checkGather d 3 = none → posts (.scatter ⟨a⟩) (word .scatter 0 0 [])) ∧
        (∀ (la : BitVec 4) (dst : BitVec 8), checkGather d 1 = none →
          posts (.gather ⟨la, dst, a⟩) (word .gather 0 0 (s.gatherLines w.team w.tm d)) ∧
          ∃ t g p, Gives (.gather ⟨la, dst, a⟩) s t ∧ t.group? w.team w.grp = some g ∧ g.pend.getLast? = some p ∧
            p.kind = .count s.serial dst.toNat) ∧
        (∀ c, checkA2av d = none → s.comms.find? (256 * vd + commNo d) = some c →
          posts (.a2av ⟨a⟩) (word .a2av 0 c.seq [])) ∧
        (∀ c, checkAredc d slot = none → s.comms.find? (256 * vd + commNo d) = some c →
          posts (.aredc ⟨a⟩) (word .aredc slot c.seq []) ∧ ∃ t, Gives (.aredc ⟨a⟩) s t ∧
            t.comms.find? (256 * vd + commNo d) = some { c with seq := c.seq + 1 }) ∧
        (checkA2av d = none → s.comms.find? (256 * vd + commNo d) = none → w.blocked = false →
          ∃ t, Gives (.a2av ⟨a⟩) s t ∧ Faulted w s t .illegal 0)) ∧
      (∀ c x, w.blocked = false →
        (checkEsort d = some (c, x) → ∃ t, Gives (.esort ⟨a⟩) s t ∧ Faulted w s t c x) ∧
        (checkGather d 3 = some (c, x) → ∃ t, Gives (.scatter ⟨a⟩) s t ∧ Faulted w s t c x) ∧
        (∀ (la : BitVec 4) (dst : BitVec 8), checkGather d 1 = some (c, x) →
          ∃ t, Gives (.gather ⟨la, dst, a⟩) s t ∧ Faulted w s t c x) ∧
        (checkA2av d = some (c, x) → ∃ t, Gives (.a2av ⟨a⟩) s t ∧ Faulted w s t c x) ∧
        (checkAredc d slot = some (c, x) → ∃ t, Gives (.aredc ⟨a⟩) s t ∧ Faulted w s t c x)))) ∧
  (∀ (s : State) (w : Site) (a dst : BitVec 8) (la : BitVec 4) (i : Instr), s.site? = some w → w.unperformed = false →
     i ∈ [Instr.esort ⟨a⟩, .scatter ⟨a⟩, .gather ⟨la, dst, a⟩, .a2av ⟨a⟩, .aredc ⟨a⟩] →
     (32 ≤ s.engineCount w.core → Gives i s s) ∧
     (∀ c x, s.engineCount w.core < 32 → w.blocked = false →
       w.devPhysIf s .read (fun x => s.l1Hit w.core x 64) 64 (w.g.r.rdS64 a.toNat) = .error (c, x) →
       ∃ t, Gives i s t ∧ Faulted w s t c x)) ∧
  (∀ (x : Nat → W64) (ops : Nat),
     (let d := (List.range 8).map x
      let al := fun (k n : Nat) => (x k).toNat % n = 0
      (checkEsort d = none ↔ (x 6).toNat / 2 ^ 44 = 0 ∧ (x 6).toNat / 2 ^ 17 % 2 ^ 15 = 0 ∧ 1 ≤ (x 6).toNat % 2 ^ 17 ∧
        (x 6).toNat % 2 ^ 17 ≤ 65536 ∧ x 7 = 0 ∧ al 0 8 ∧ al 2 8 ∧ al 3 4 ∧ al 4 4 ∧ al 5 4) ∧
      (checkGather d ops = none ↔ (x 5).toNat / 2 ^ 30 % 4 = 0 ∧ (x 5).toNat / 2 ^ 13 % 8 = 0 ∧
        (x 5).toNat / 2 ^ 24 % 16 < ops ∧ 1 ≤ (x 5).toNat % 2 ^ 13 ∧ (x 5).toNat % 2 ^ 13 ≤ 4096 ∧
        (x 5).toNat / 2 ^ 32 % 16 = 0 ∧ 16 * ((x 5).toNat / 2 ^ 16 % 256 + 1) ≤ (x 5).toNat / 2 ^ 32 ∧
        (x 6).toNat / 2 ^ 32 = 0 ∧ x 7 = 0 ∧ al 0 8 ∧ al 2 16 ∧ al 3 4 ∧ al 4 16)))

/-- GATHER_COUNT_RETURN gives GATHER the number of its distinct indices in range. ENGINE_COMPLETE makes the writes of a word, which its
path then reads: the rows of a GATHER, the updates of a SCATTER, the three lists of an ESORT, the counts and segments of an A2AV, and
the sums and residuals of an AREDC, each where its places translate, lie apart and are neither replicated nor in the host window; and
of a word whose writes are made it writes the stamp, all ones after a collective error, and the word leaves its engine.
COLLECTIVE_MESSAGE records a message of another rank. COLLECTIVE_TIMEOUT ends a collective word that a rank has not joined in an
error, and LINK_PATH_FAILURE, or a message that says so, one whose stamp is not written (12 R245). ENGINE_LATE_FAULT of a word whose group is there drops it with no stamp and
faults its nest. LINK_RETRY changes nothing (12 R235, R236, R238 to R247; the form of a message, the counting of the timeout from the
issue of the word and the engine of a base that does not translate are log entries 32, 101 and 102). That a word reads all its inputs
and makes all its writes in one step, and that its stamp follows in a later one, is log entry 37. -/
def Obligations.EngineSteps : Prop :=
  (∀ (s : State) (link : Fin 18), Gives (.linkRetry link) s s) ∧
  (∀ (s : State) (vd comm rank seq : Nat) (cmd : List Nat) (data : List Byte) (c : Comm), comm < 256 →
    s.comms.find? (256 * vd + comm) = some c → rank < c.ranks → rank ≠ c.rank → c.seq ≤ seq →
    (∀ m ∈ c.msgs, m.rank ≠ rank ∨ m.seq ≠ seq) → ∃ t, Gives (.collectiveMessage vd comm rank seq cmd data) s t ∧
      t = { s with comms := t.comms } ∧
      t.comms.find? (256 * vd + comm) = some { c with msgs := c.msgs ++ [⟨rank, seq, cmd, data⟩] } ∧
      ∀ k, k ≠ 256 * vd + comm → t.comms.find? k = s.comms.find? k) ∧
  (∀ (s : State) (id : Nat) (e : EngineWord), s.engines.find? id = some e →
    (GatherMakes s id e ∧ ScatterMakes s id e ∧ EsortMakes s id e ∧ A2avMakes s id e ∧ AredcMakes s id e) ∧
    (∀ idx, e.kind = .gather → e.stage = .issued → s.readIndices e = .ok (some idx) →
      (∀ g p d, s.group? e.team e.grp = some g → g.pending? e.pend = some p → p.kind = .count id d →
        ∃ t g' p', Gives (.gatherCountReturn id) s t ∧ (∀ key pa, t.homeByte key pa = s.homeByte key pa) ∧
          t.engines.find? id = some { e with stage := .counted, indices := idx } ∧ t.group? e.team e.grp = some g' ∧
          g'.pending? e.pend = some p' ∧ p'.kind = .value ∧ p'.writes =
            [.s d (BitVec.ofNat 32 ((idx.filter fun r => r < tableRows e.desc).eraseDups).length)])) ∧
    (∀ ok ph, e.stage = .written ok → (ok = true → s.spoiledComm e = none) → (dstamp e.desc).toNat % 8 = 0 →
      s.needWalk e.core e.ctx ((dstamp e.desc).toNat / 4096) = false →
      s.resolve e.core e.ctx .write (dstamp e.desc).toNat = .ok ph → ph.repl = false →
      (∀ x ∈ s.m.collapses, x.holds ph.pa = false) → ph.host = false →
      s.hostHolds (lineOf ph.pa) = false → ∃ t, Gives (.engineComplete id) s t ∧ t.engines.find? id = none ∧
        (∀ i, i < 8 → t.homeByte ph.key (ph.pa + i) =
          (natToBytes 8 (if ok then (dstampVal e.desc).toNat else 2 ^ 64 - 1)).getD i 0) ∧
        ∀ key pa, lineOf pa ≠ lineOf ph.pa → t.homeByte key pa = s.homeByte key pa) ∧
    (∀ c r, e.collective = true → e.stage = .issued → s.commOf e = some c → s.runs e = true → c.others.contains r = true →
      c.msg? e r = none → c.timeout ≤ s.time - e.since → ∃ t, Gives (.collectiveTimeout id) s t ∧
        t.engines.find? id = some { e with stage := .written false, amax := 0 }) ∧
    (∀ c, e.collective = true → e.stage = .written true → s.commOf e = some c → c.spoils e = true → ∃ t, Gives (.engineComplete id) s t ∧
      t.engines.find? id = some { e with stage := .written false, amax := 0 }) ∧
    (∀ c r, e.collective = true → e.stage = .issued ∨ e.stage = .written true → s.commOf e = some c → s.runs e = true →
      c.others.contains r = true → s.engines = [(id, e)] → ∃ t, Gives (.linkPathFailure e.vd (commNo e.desc) r) s t ∧
        t.engines.find? id = some { e with stage := .written false, amax := 0 }) ∧
    (∀ ok c tm g, e.stage = .written ok → (ok = true → s.spoiledComm e = none) → (dstamp e.desc).toNat % 8 = 0 →
      s.needWalk e.core e.ctx ((dstamp e.desc).toNat / 4096) = false →
      s.resolve e.core e.ctx .write (dstamp e.desc).toNat = .error c → s.teams.find? e.team = some tm →
      tm.groups[e.grp]? = some g → ∃ t tm' x, Gives (.engineLateFault id) s t ∧ t.m = s.m ∧ t.engines.find? id = none ∧
        t.teams.find? e.team = some tm' ∧ tm'.phase = .halting ∧
        (s.nests.find? tm.nest = some x → x.fault = none → ∃ y fi, t.nests.find? tm.nest = some y ∧ y.phase = .faulted ∧
          y.fault = some fi ∧ fi.cause = c ∧ fi.precise = false ∧ fi.pc = e.pc ∧ fi.addr = dstamp e.desc)))


/-! ### Steps of cores, caches and translation -/

/-- What a rejected request, a presence bit, a TLB, a holder, an ingress buffer, a collapse and a replica do when their step
comes: REJECTED_REISSUE lets the word issue again, REQUEST_AGED ages it after 256 cycles, PRESENCE_BIT_SET sets the bit of a line
that every transfer has landed in, PAGE_WALK ends a walk that is under way and caches the leaf it finds, or has the step that missed made again, for which the page has
failed, HOLDER_PROMOTION leaves
the holder without dirty lines, INGRESS_DRAIN performs a write at its home, COLLAPSE_EVENT clears REPL, shoots the page down and
drops its replicas, COLLAPSE_RELEASE lets the waiting writes go on in their order of arrival, and REPLICA_PLACEMENT copies the
page to a frame of the basin's pool (01 R25, R27, R28, 08 R148, R153, R154, R164, R167, log entries 11, 104 and 106).
SPEC_WINDOW_COMMIT of a window at team scope ends it: with no conflict the group keeps its registers and the held stores perform,
after a conflicting invalidation, or a change of an AMAX register that it has read (log entry 23), the group is back where the fence
left it, and of a window that has rolled back before nothing is
left to do. HOST_ATOMIC_COMPLETION of a SIGOP in the host window leaves the new value there and the slot goes on, and a refusal
raises ATOM_UNSUP (08 R165, R166, 09 R173, 23 R411). -/
def Obligations.CacheAndWindowSteps : Prop :=
  (∀ s : State,
     (∀ team grp b w since aged, s.siteAt team grp b = some w → w.g.wait b = some (.rejected since aged) →
       (s.entriesUsed w.core < 8192 → (∀ t ∈ s.agedSince (· == w.core), aged = true ∧ since ≤ t) →
         ∃ t, Gives (.rejectedReissue team grp b) s t ∧
           OnlyGroup s t team grp w.tm (w.g.setWait b (some (.granted since aged)))) ∧
       (aged = false → 256 ≤ s.clk - since → ∃ t, Gives (.requestAged team grp b) s t ∧
         OnlyGroup s t team grp w.tm (w.g.setWait b (some (.rejected since true)))) ∧
       (aged = false → s.clk - since < 256 → Gives (.requestAged team grp b) s s)) ∧
     (∀ team line tm, s.teams.find? team = some tm → tm.absent.find? line = some 0 →
       ∃ t, Gives (.presenceBitSet team line) s t ∧ t = { s with teams := t.teams } ∧
         t.teams.find? team = some { tm with absent := tm.absent.erase line } ∧
         ∀ k, k ≠ team → t.teams.find? k = s.teams.find? k) ∧
     (∀ core ctx page (x : Walk), core < 384 → (s.walksOf core).find? (fun y => y.isOf core ctx page) = some x →
       s.tlb? core ctx page = none →
       (∀ l, s.walkCtx (s.portAllows (corePort core)) ctx (page * 4096) = .ok l → ∃ t, Gives (.pageWalk core ctx page) s t ∧
         t.walksOf core = (s.walksOf core).erase x ∧
         t.tlb? core ctx page = some (s.nearCopy (coreBasin core) (l.entry ctx page)) ∧
         ∀ key pa, t.homeByte key pa = s.homeByte key pa) ∧
       (∀ c, s.walkCtx (s.portAllows (corePort core)) ctx (page * 4096) = .error c → ∃ t, Gives (.pageWalk core ctx page) s t ∧
         t.walksOf core = (s.walksOf core).erase x ∧ t.tlb? core ctx page = none ∧ t.agenda = x.act :: s.agenda ∧
         t.m.failed = some (core, ctx, x.failed ++ [page], s.tick + 1) ∧
         ∀ key pa, t.homeByte key pa = s.homeByte key pa)) ∧
     (∀ line core, s.m.holders.find? line = some core → (s.m.l1Of core).sorted = true →
       (∀ e ∈ s.m.l1Of core, s.refusal core e.1 e.2 = none) → ∃ t, Gives (.holderPromotion line) s t ∧
         t.m.holders.find? line = none ∧ (∀ e ∈ t.m.l1Of core, e.2.dirty = 0) ∧
         ∀ key pa, t.homeByte key pa = s.homeByte key pa) ∧
     (∀ basin slice path e, (s.m.ingress.getD (8 * basin + path) []).find? (fun e => e.slice == slice) = some e →
       e.upd = none → e.key ≠ noKey → s.rewritten e.line = false → s.hostHolds e.line = false →
       ∃ t, Gives (.ingressDrain basin slice path) s t ∧
         t.m.ingress.getD (8 * basin + path) [] = (s.m.ingress.getD (8 * basin + path) []).erase e ∧
         (∀ pa, lineOf pa = e.line → t.homeByte e.key pa =
           if e.mask.getLsbD (pa % 128) then lineByte e.data (pa % 128) else s.homeByte e.key pa) ∧
         ∀ key pa, lineOf pa ≠ e.line → t.homeByte key pa = s.homeByte key pa) ∧
     (∀ (c : Collapse), (s.m.collapses.find? fun x => x.ctx == c.ctx && x.page == c.page && !x.cleared) = some c →
       (∀ a ∈ s.replEntries c, s.hostHolds (lineOf a) = false) →
       ∃ t, Gives (.collapseEvent c.ctx c.page) s t ∧ { c with cleared := true } ∈ t.m.collapses ∧ c ∉ t.m.collapses ∧
         (∀ a ∈ s.replEntries c, (t.m.homeNat a 8).testBit 3 = false) ∧
         (∀ r ∈ t.m.replicas, ¬ (r.ctx = c.ctx ∧ c.page ≤ r.vpage ∧ r.vpage < c.page + c.pages)) ∧
         ∀ core p, c.page ≤ p → p < c.page + c.pages → t.tlb? core c.ctx p = none) ∧
     (∀ (c : Collapse), (s.m.collapses.find? fun x => x.ctx == c.ctx && x.page == c.page && x.cleared) = some c →
       s.usesRange c.ctx c.page (c.page + c.pages) = false → (∀ b < 4, ∀ p ∈ devicePaths, s.m.buffer b p = []) →
       ∃ t, Gives (.collapseRelease c.ctx c.page) s t ∧ t.agenda = c.waiters ++ s.agenda ∧
         (∀ x ∈ t.m.collapses, ¬ (x.ctx = c.ctx ∧ x.page = c.page ∧ x.cleared = true)) ∧
         ∀ key pa, t.homeByte key pa = s.homeByte key pa) ∧
     (∀ ctx page basin frame l, s.walkCtx (fun _ => true) ctx (page * 4096) = .ok l → l.repl = true →
       (let e := l.entry ctx page
        basin < 4 → basin ≠ basinOf (e.home * 4096) → frame % e.pages = 0 → frame / 2 ^ 31 = basin →
          (frame % 2 ^ 31 + e.pages) * 4096 ≤ lpddrSize →
          (∀ b ∈ s.m.ingress, ∀ x ∈ b.2, x.line / 32 < e.home ∨ e.home + e.pages ≤ x.line / 32) →
          (∀ r ∈ s.m.replicas, (r.frame + r.pages ≤ frame ∨ frame + e.pages ≤ r.frame) ∧
            ¬ (r.basin = basin ∧ r.ctx = ctx ∧ r.vpage = e.page)) →
          (∀ c ∈ s.m.collapses, c.holds (4096 * e.home) = false) →
          (∀ i, i < 32 * e.pages → s.hostHolds (32 * frame + i) = false) →
          ∃ t, Gives (.replicaPlacement ctx page ⟨basin, frame⟩) s t ∧
            t.m.replicas = s.m.replicas ++ [⟨ctx, e.page, e.pages, e.home, basin, frame⟩] ∧
            (∀ i, i < 4096 * e.pages → t.homeByte e.key (4096 * frame + i) = s.homeByte e.key (4096 * e.home + i)) ∧
            ∀ key pa, pa / 4096 < frame ∨ frame + e.pages ≤ pa / 4096 → t.homeByte key pa = s.homeByte key pa))) ∧
  ((∀ (s : State) (team grp : Nat) (w : Site) (win : SpecWindow), s.siteAt team grp win.slot = some w →
     w.g.spec = some win → win.scope = .team → win.clipped = false →
     (win.closed = true → ∃ t, Gives (.specWindowCommit team grp) s t ∧ OnlyGroup s t team grp w.tm { w.g with spec := none }) ∧
     (win.closed = false → win.conflict = true ∨ (∃ x ∈ win.amaxRead, s.amaxPair w.tm.nest x.1 ≠ x.2) → ∃ t, Gives (.specWindowCommit team grp) s t ∧ OnlyGroup s t team grp w.tm
       { w.g with
         r := win.saved, pend := win.savedPend, spec := none
         w0 := if win.slot then w.g.w0 else none, w1 := if win.slot then none else w.g.w1 }) ∧
     (win.closed = false → win.conflict = false → win.stores = [] → win.amax = [] →
       (∀ x ∈ win.amaxRead, s.amaxPair w.tm.nest x.1 = x.2) → ∃ t, Gives (.specWindowCommit team grp) s t ∧
       OnlyGroup s t team grp w.tm { w.g with spec := none }) ∧
     (∀ h k, win.closed = false → win.conflict = false → win.stores = [h] → win.amax = [] → h.pad = some k → (s.teams.find? k).isSome →
       (∀ x ∈ win.amaxRead, s.amaxPair w.tm.nest x.1 = x.2) →
       ∃ t g, Gives (.specWindowCommit team grp) s t ∧ t.m = s.m ∧ t.padRead k h.addr h.data.length = h.data ∧
         t.group? team grp = some g ∧ g.spec = none ∧ g.r = w.g.r)) ∧
   (∀ (s : State) (team grp : Nat) (b : Bool) (w : Site) (op : SigKind) (va x : W64) (pa : Nat),
     s.siteAt team grp b = some w → w.g.wait b = some (.hostSignal op va pa x false) → pa % 8 = 0 →
     (∀ p ∈ w.g.pend, ∀ h, p.kind ≠ .host h) →
     (let old : W64 := BitVec.ofNat 64 (bytesToNat (readBytes s.m.home pa 8))
      let new := match op with
        | .add => old + x
        | .sub => old - x
        | .set => x
      ∃ t g, Gives (.hostAtomicCompletion team grp b true) s t ∧
        (∀ i, i < 8 → t.m.home (pa + i) = (natToBytes 8 new.toNat).getD i 0) ∧
        t.group? team grp = some g ∧ g.r = w.g.r.advance b ∧ g.wait b = none) ∧
     ∃ t, Gives (.hostAtomicCompletion team grp b false) s t ∧ Faulted w s t .atomUnsup va))

/-! ### Faults that abort -/

/-- TEAM_HALT reaches every group of the team, and, once their results are written, ends the halt and puts the group entries into
the record of the fault that names it. NEST_ABORT, once the record is written, ends the nest: no team, reservation or ready entry
of it is left, and its packet has failed with 0x14. A record is written when VALID is clear, with LOST as it stood. ECC_ERROR logs
a corrected error, and an uncorrectable one faults the nest, at the word that consumed the data where it is known.
DEFERRED_RELEASE_WB of a line whose write-back is refused discards it, and every nest of its owner with a team on the core faults
(14 R249 to R253, R259, 19 R303). When a halt ends, LOST, what an abort leaves behind, what ECC_ERROR names and whose fault a
refused line is are log entries 20, 35, 36, 87 and 108. -/
def Obligations.AbortSteps : Prop :=
  ∀ s : State,
    (∀ team tm x fi, s.teams.find? team = some tm → tm.phase = .halting → s.nests.find? tm.nest = some x →
      (∀ g ∈ tm.groups, g.st.reached = true ∧ ∀ p ∈ g.pend, p.out = false ∨ p.endless = true) →
      x.fault = some fi → fi.team = some team → ∃ t, Gives (.teamHalt team) s t ∧
        t = { s with teams := t.teams, nests := t.nests } ∧ t.teams.find? team = some { tm with phase := .halted } ∧
        t.nests.find? tm.nest = some { x with fault := some { fi with groups := tm.groups.map Group.haltEntry } }) ∧
    (∀ team tm, s.teams.find? team = some tm → tm.phase = .halting → (∃ g ∈ tm.groups, g.st.reached = false) →
      ∃ t, Gives (.teamHalt team) s t ∧ t = { s with teams := t.teams } ∧ t.teams.find? team = some { tm with
        groups := tm.groups.map fun g => { g.rollback with st := { g.rollback.st with reached := true } } }) ∧
    (∀ nest x fi s1, s.nests.find? nest = some x → x.fault = some fi → s.halted fi = true →
      s.writeRecord (.event (.nestAbort nest)) x.ctx nest fi x.multi = .ok s1 → s1.nests = s.nests → ∃ t, Gives (.nestAbort nest) s t ∧
        t.nests.find? nest = none ∧ (∀ e ∈ t.teams, e.2.nest ≠ nest) ∧
        (∀ e ∈ t.ready, ∀ y ∈ e.2, y.nest ≠ nest) ∧ (∀ r ∈ t.reservations, r.2.entry.nest ≠ nest) ∧
        ∀ p ∈ (t.queue x.queue).inflight, p.id = x.packet → p.work = .outcome (some 0x14)) ∧
    (∀ act ctx nest fi multi v ph, s.fwNat ctx (s.ctx ctx).faultArea 8 = .ok v → v / 2 ^ 8 % 2 = 0 →
      (let n := 64 + 16 * fi.groups.length
       s.rangeFw ctx .write (s.ctx ctx).faultArea n = .ok [(ph, n)] → n ≤ 128 → ph.pa % 128 = 0 → ph.repl = false →
       (∀ c ∈ s.m.collapses, c.holds ph.pa = false) → s.hostHolds (lineOf ph.pa) = false →
       ∃ s1, s.writeRecord act ctx nest fi multi = .ok s1 ∧ ∀ i, i < n → s1.homeByte ph.key (ph.pa + i) =
         (fi.bytes nest multi (v / 2 ^ 16 % 256)).getD i 0)) ∧
    (∀ grp pc addr, s.mgmt.log.length < 4096 → Gives (.eccError none grp pc addr) s
      { s with mgmt := { s.mgmt with log := s.mgmt.log ++ [.softError addr] } }) ∧
    (∀ n x addr, s.nests.find? n = some x → x.fault = none →
      (∃ t y fi, Gives (.eccError (some n) none 0 addr) s t ∧ t = { s with nests := t.nests } ∧ t.nests.find? n = some y ∧
        y.phase = .faulted ∧ y.fault = some fi ∧ fi.cause = .eccUncorr ∧ fi.precise = false ∧ fi.pc = 0 ∧
        fi.addr = BitVec.ofNat 64 addr ∧ fi.grp = none) ∧
      ∀ team grp pc tm g, s.teams.find? team = some tm → tm.groups[grp]? = some g → tm.nest = n →
        ∃ t tm' y fi, Gives (.eccError (some n) (some (team, grp)) pc addr) s t ∧
          t = { s with teams := t.teams, nests := t.nests } ∧ t.teams.find? team = some tm' ∧ tm'.phase = .halting ∧
          t.nests.find? n = some y ∧ y.phase = .faulted ∧ y.fault = some fi ∧ fi.cause = .eccUncorr ∧ fi.pc = pc ∧
          fi.addr = BitVec.ofNat 64 addr ∧ fi.grp = some grp ∧ fi.team = some team) ∧
    (∀ core line k l c, (s.m.l1Of core).find? k = some l → (s.m.l1Of core).sorted = true → keyLine k = line →
      s.refusal core k l = some c → (∀ e ∈ s.m.l1Of core, keyLine e.1 = line → e.1 = k) →
      ∃ t, Gives (.deferredReleaseWb core line) s t ∧ t = { s with m := t.m, nests := t.nests } ∧
        (t.m.l1Of core).find? k = none ∧ (∀ key pa, t.homeByte key pa = s.homeByte key pa) ∧
        ∀ n x team tm, s.nests.find? n = some x → x.ctx = l.ctx → x.fault = none → s.teams.find? team = some tm →
          tm.nest = n → tm.core = core → tm.phase ≠ .retired → tm.phase ≠ .saved →
          ∃ y fi, t.nests.find? n = some y ∧ y.phase = .faulted ∧ y.fault = some fi ∧ fi.cause = c ∧ fi.owner = (if c = .releaseWb then l.ctx else 0) ∧
            fi.addr = BitVec.ofNat 64 (128 * line))

/-! ### Walker, ready queues and the life of a point -/

/-- BOUND_PROPOSAL_APPLY answers the first proposal of a nest whose ready points have been released: accepted only when it lies
above every released IX0 and the nest is neither done nor persistent. POINT_RELEASE serves the nests with ready points in
rotation, and puts the first ready unit of the one whose turn it is at the end of its ready queue and counts its points.
TEAM_START starts the first head of the port group's order that the core can hold, with every group at the entry PC.
RESERVATION_AGED ages a reservation. GANG_TIMEOUT fails a gang with code 0x0A. POINT_RETIRE of the last point of a nest ends the
nest with success (06 R134 to R145, 07 R146, 22 R389). Nests whose points start together, and clusters: CLUSTER_RESERVATION
reserves, for the head of a sub-queue that cannot start, the free port group's rectangle with the most free resources, by the
measure of log entry 28, and the cluster leaves its sub-queue (log entry 97); CLUSTER_START starts the reserved cluster;
PERSISTENT_START reserves the places of a nest that has none, and it and GANG_COMMIT start every point of a nest in one step once
all its reservations are held (06 R142 to R145). Which points a proposal awaits, and one whose team does not issue, are log entries 27
and 116, and which of two aged reservations starts first is log entry 115. -/
def Obligations.WalkerSteps : Prop :=
  (∀ s : State,
     (∀ nest x pr rest w p, s.nests.find? nest = some x → x.proposals = pr :: rest → x.phase = .active →
       s.siteAt pr.team pr.grp pr.slot = some w → w.g.wait pr.slot = some (.nbnd p) → w.tm.issues = true →
       (∀ q ∈ pr.due, x.ready q = false) →
       (let ok := !x.done && !x.launch.persist && (match x.maxIx0 with
          | some m => decide (m < pr.bound)
          | none => true)
        ∃ t y g, Gives (.boundProposalApply nest) s t ∧ t = { s with nests := t.nests, teams := t.teams } ∧
          t.nests.find? nest = some y ∧ y.proposals = rest ∧ y.ub0 = (if ok then pr.bound else x.ub0) ∧
          t.group? pr.team pr.grp = some g ∧
          g.r = (w.g.r.wrP p w.mask (if ok then 0xFFFFFFFF else 0)).advance pr.slot ∧ g.wait pr.slot = none)) ∧
     (∀ nest x r k part, s.nests.find? nest = some x → x.firstReady = some (r, k) → s.cursorPart x = some part →
       s.nextNest = some nest →
       (let ps := x.unitPoints r k
        let at_ := x.launch.affinity (((ps.head?).map (·.ix)).getD []) x.released.toNat
        let key := 96 * at_.1 + 3 * part + at_.2 / 16
        ∃ t y, Gives (.pointRelease nest) s t ∧ t = { s with nests := t.nests, ready := t.ready, walker := nest, serial := s.serial + 1 } ∧
          t.ready.getD key [] = s.ready.getD key [] ++ [⟨nest, ps, s.serial⟩] ∧
          (∀ j, j ≠ key → t.ready.getD j [] = s.ready.getD j []) ∧ t.nests.find? nest = some y ∧
          y.released = x.released + BitVec.ofNat 64 ps.length ∧ y.retired = x.retired ∧ y.cursor = part + 1)) ∧
     (∀ nest, s.nests.sorted = true → s.nextNest = some nest →
       (let waits := fun (n : Nat) => ∃ x, s.nests.find? n = some x ∧ x.phase = .active ∧ x.started = true ∧ x.firstReady ≠ none ∧
           s.cursorPart x ≠ none
        waits nest ∧ ∀ n, waits n → (s.walker < n → s.walker < nest ∧ nest ≤ n) ∧ (n ≤ s.walker → s.walker < nest ∨ nest ≤ n))) ∧
     (∀ core key pre post e x p, core < 384 → s.queueOrder (corePort core) = pre ++ key :: post →
       (∀ j ∈ pre, s.headOf j = none) → s.headOf key = some (e, x) → x.launch.clustered = false → e.points = [p] →
       s.open x.ctx x.vd core = true → s.claims core (s.time + 1) = [] →
       ((s.useOf core).add x.launch.shape 1).fits = true →
       ∃ t tm, Gives (.teamStart core) s t ∧ t.teams.find? s.serial = some tm ∧ tm.core = core ∧ tm.nest = e.nest ∧
         tm.phase = .running ∧ tm.ctx = x.ctx ∧ tm.ix = ((List.range 4).map fun k => BitVec.ofInt 32 (p.ix.getD k 0)) ∧
         tm.groups.length = x.launch.shape.groups ∧ (∀ j < tm.groups.length, ∃ g, tm.groups[j]? = some g ∧
           g.r = GroupRegs.start j x.launch.entry ∧ g.st.ended = false) ∧
         (∀ b ∈ t.ready, ∀ y ∈ b.2, y.id ≠ e.id)) ∧
     (∀ pg r, s.reservations.find? pg = some r → 256000 ≤ s.time - r.since → ∃ t, Gives (.reservationAged pg) s t ∧
       t = { s with reservations := t.reservations } ∧ t.reservations.find? pg = some { r with aged := true }) ∧
     (∀ gang g, s.gangs.find? gang = some g → 100000 < s.time - g.since → ∃ t, Gives (.gangTimeout gang) s t ∧
       t = { s with gangs := t.gangs, queues := t.queues } ∧ t.gangs.find? gang = none ∧
       ∀ p ∈ (t.queue g.queue).inflight, p.id = g.packet → p.work = .outcome (some 0x0A)) ∧
     (∀ team tm x, s.teams.find? team = some tm → s.nests.find? tm.nest = some x → tm.phase = .running → x.phase = .active →
       s.busyTeam team tm = false → (∀ e ∈ s.m.l1Of tm.core, e.2.dirty = 0) →
       (∀ b < 4, s.m.buffer b .core = [] ∧ s.m.buffer b .sluice = [] ∧ s.m.buffer b .array = []) → tm.peers = [] →
       (x.retire ((tm.ix.take x.depth).map BitVec.toInt)).done = true → ∃ t, Gives (.pointRetire team) s t ∧
         t.teams.find? team = none ∧ t.nests.find? tm.nest = none ∧ (∀ key pa, t.homeByte key pa = s.homeByte key pa) ∧
         ∀ p ∈ (t.queue x.queue).inflight, p.id = x.packet → p.work = .outcome none)) ∧
  (∀ s : State,
     (∀ basin part sub e x, basin < 4 → sub < 3 → s.headOf (readyKey basin part sub) = some (e, x) → x.launch.clustered = true →
       (let spot := fun (at_ : Nat × Nat × Nat) => at_.1 ∈ s.portsOf part ∧ (at_.2.1, at_.2.2) ∈ corners x.launch.cw x.launch.ch
        let core := fun (at_ : Nat × Nat × Nat) => pgCore at_.1 at_.2.1 at_.2.2
        let rect := fun (at_ : Nat × Nat × Nat) => rectCores at_.1 (at_.2.1, at_.2.2) x.launch.cw e.points
        let free := fun (at_ : Nat × Nat × Nat) => ((rect at_).map fun c => (s.useOf c).room x.launch.shape).foldl (· + ·) 0
        let open_ := fun (at_ : Nat × Nat × Nat) => spot at_ ∧ s.reservations.find? (corePort (core at_)) = none
        (∀ at_, spot at_ → s.rectFits x (s.time + 1) (rect at_) = false) → (∃ at_, open_ at_) →
        ∃ t at_, Gives (.clusterReservation basin part sub) s t ∧ open_ at_ ∧ (∀ y, open_ y → free y ≤ free at_) ∧
          t = { s with ready := t.ready, reservations := t.reservations } ∧
          t.reservations.find? (corePort (core at_)) = some ⟨e, [], core at_, s.time, false⟩ ∧
          ∀ b ∈ t.ready, ∀ y ∈ b.2, y.id ≠ e.id)) ∧
     (∀ core r x cores, s.reservations.find? (corePort core) = some r → s.nests.find? r.entry.nest = some x → r.core = core →
       r.teams = [] →
       x.phase = .active → s.rectAt x r.entry.points core = some cores → s.rectFits x r.since cores = true →
       ∃ t, Gives (.clusterStart core) s t ∧
         t = ({ s with reservations := s.reservations.erase (corePort core) } : State).startUnit r.entry.nest x
           r.entry.points cores) ∧
     (∀ nest x, s.nests.find? nest = some x → x.started = false → x.phase = .active →
       (∀ pl, x.plan = [] → s.reserve x (s.vdNow x.vd).owned = some pl → ∃ t, Gives (.persistentStart nest) s t ∧
         t = { s with nests := t.nests } ∧ t.nests.find? nest = some { x with plan := pl }) ∧
       (x.plan ≠ [] → s.planIn (s.vdNow x.vd).owned x.plan = true →
         s.planHeld x.ctx x.vd x.since x.launch.shape x.plan = true → ∃ t y, Gives (.persistentStart nest) s t ∧
           t = s.startAll nest x x.plan ∧ t.nests.find? nest = some y ∧ y.started = true)) ∧
     (∀ gang g, s.gangs.find? gang = some g → s.time - g.since ≤ 100000 →
       s.planHeld g.ctx g.vd g.since g.launch.shape g.plan = true →
       ∃ t y, Gives (.gangCommit gang) s t ∧ t.gangs.find? gang = none ∧ t.nests.find? s.serial = some y ∧
         y.started = true ∧ y.ctx = g.ctx ∧ y.vd = g.vd ∧
         ∀ p ∈ (t.queue g.queue).inflight, p.id = g.packet → p.work = .nest s.serial) ∧
     (∀ ctx vd since shape (pl : Plan), s.planHeld ctx vd since shape pl = true ↔ ∀ e ∈ pl, ∀ c ∈ e.2,
       s.open ctx vd c = true ∧ (∀ x ∈ s.claims c since, x.aged = false) ∧
       ((s.useWith c since).add shape ((pl.map fun y => (y.2.filter (· == c)).length).foldl (· + ·) 0)).fits = true) ∧
     (∀ (x : Nest) (id : Nat) (p : ReadyPoint) (core : Nat) (tm : Team), (s.startTeam id x p core).2.teams.find? s.serial = some tm →
       (s.startTeam id x p core).1 = s.serial ∧ tm.core = core ∧ tm.nest = id ∧ tm.phase = .running ∧
       tm.teamIdx = p.teamIdx ∧ tm.clus = p.clus ∧ tm.pad = [] ∧ tm.tiles = [] ∧ tm.rdv = [] ∧ tm.itemq = []))


/-! ### Time-sharing and pre-emption -/

/-- A slice ends in these steps: STOP_REQUEST stops the placement of points of a context on a core and stops the fewest of its
teams, most recently started first, with their companions, without which the incoming work fits, all of them where it never
does, and no other team (what the incoming work is: log entry 34), GROUP_STOP and FORCED_SAVE stop a group,
CONTEXT_SAVE saves the stopping teams with their registers and empties L1 and the TLB of the core, DRAIN_END ends the drain and,
with the last one, the slice, which is charged and ends at once when every drain of its device has ended early. CONTEXT_RESUME
runs a saved team again with the registers it had, SLICE_START starts the slice of a visit with the length of 15 R269, under the
configuration as it stood at the visit (log entry 111), and WEIGHT0_PREEMPT stops a weight-0 slice at once (14 R260 to R263, 15
R269 to R272). -/
def Obligations.PreemptSteps : Prop :=
  ∀ s : State,
    (∀ core ctx x, core < 384 → (s.part (s.partOf core)).slice = some x → x.vd = (s.ctx ctx).vd → s.stopDue x ctx = true →
      (s.core core).draining.find? ctx = none → x.ended.contains (core, ctx) = false → s.present core ctx = true →
      ∃ t, Gives (.stopRequest core ctx) s t ∧ t = { s with teams := t.teams, cores := t.cores } ∧
        (t.core core).draining.find? ctx = some (s.time, false) ∧ (∀ vd, t.open ctx vd core = false) ∧
        (∀ k, t.teams.find? k = (s.teams.find? k).map fun old =>
          if k ∈ s.evicted core ctx x ∧ old.phase = .running then { old with phase := .stopping s.time } else old) ∧
        ∀ c, c ≠ core → c ∉ s.coresOf (s.evicted core ctx x) → t.core c = s.core c) ∧
    (∀ core ctx, (s.runningOn core ctx).Pairwise (fun a b => b.2.started ≤ a.2.started) ∧
      ∀ e, e ∈ s.runningOn core ctx ↔ e ∈ s.teams ∧ e.2.core = core ∧ e.2.ctx = ctx ∧ e.2.phase = .running) ∧
    (∀ core ctx x,
      (let l := (s.runningOn core ctx).map (·.1)
       let shapes := (s.incoming (s.partOf core) x).elim [] fun vd => s.incomingShapes core vd ctx
       let fits := fun n => (shapes.foldl (fun u y => u.add y 1) (s.useWithout core (s.withCompanions (l.take n)))).fits
       ∃ n, n ≤ l.length ∧ s.evicted core ctx x = s.withCompanions (l.take n) ∧ (fits n = true ∨ n = l.length) ∧
         ∀ m, m < n → fits m = false)) ∧
    (∀ team grp tm g since, s.teams.find? team = some tm → tm.groups[grp]? = some g → tm.phase = .stopping since →
      (g.reconverged = true → g.stoppable = true →
        ∃ t, Gives (.groupStop team grp) s t ∧
          OnlyGroup s t team grp tm { g with st := { g.st with stopped := true } }) ∧
      (50000 ≤ s.time - since → g.rollback.stoppable = true → g.st.stopped = false →
        ∃ t, Gives (.forcedSave team grp) s t ∧
          OnlyGroup s t team grp tm { g.rollback with st := { g.st with stopped := true } })) ∧
    (∀ core ctx since drained, s.savable core = some ctx → (s.core core).draining.find? ctx = some (since, drained) →
      s.pieceWaits ctx (.event (.contextSave core))
        (s.controlPieces core ctx ++ (s.savePieces core ctx (s.slabImage core ctx)).flatMap (·.1)) = none →
      ∃ t, Gives (.contextSave core) s t ∧ t.m.l1Of core = [] ∧ t.m.l1tlb.find? core = none ∧
        (t.core core).draining.find? ctx = some (since, true) ∧
        ∀ k tm at_, s.teams.find? k = some tm → tm.core = core → tm.ctx = ctx → tm.phase = .stopping at_ →
          ∃ y, t.teams.find? k = some y ∧ y.phase = .saved ∧ y.groups.map (·.r) = tm.groups.map (·.r) ∧
            y.groups.map (·.t) = tm.groups.map (·.t) ∧ y.pad = tm.pad ∧ y.tiles = tm.tiles ∧ y.ix = tm.ix) ∧
    (∀ core ctx since, core < 384 → (s.core core).draining = [(ctx, (since, true))] →
      ∃ t, Gives (.drainEnd core) s t ∧ (t.core core).draining = [] ∧
        ∀ x, (s.part (s.partOf core)).slice = some x → x.vd = (s.ctx ctx).vd → x.stopped = false →
          s.ticksSince x.start < x.length →
          (∃ k ∈ s.ctxs, k.2.vd = x.vd ∧ k.2.state = .live ∧ s.ticksSince x.start + k.2.drain * 1500 < x.length ∧
            s.ctx k.1 = k.2) →
          (t.part (s.partOf core)).slice = some { x with ended := (core, ctx) :: x.ended }) ∧
    (∀ core x, core < 384 → (∀ d ∈ (s.core core).draining, d.2.2 = false) → (s.part (s.partOf core)).slice = some x →
      x.stopped = true ∨ x.length ≤ s.ticksSince x.start ∨ (x.ended ≠ [] ∧ ∀ k ∈ s.ctxs, k.2.vd = x.vd → k.2.state = .live →
        s.stopDue x k.1 = true) → s.drainsLeft (s.partOf core) x = false →
      ∃ t, Gives (.drainEnd core) s t ∧ t = { s with vds := t.vds, parts := t.parts } ∧
        (t.part (s.partOf core)).slice = none ∧ x.vd ∈ (t.part (s.partOf core)).drained ∧
        (t.vd x.vd).deficit = if x.charged then (s.vd x.vd).deficit - s.ticksSince x.start else (s.vd x.vd).deficit) ∧
    (∀ team core tm x, s.teams.find? team = some tm → s.nests.find? tm.nest = some x → tm.phase = .saved →
      x.phase = .active → core < 384 → x.launch.persist = false → x.launch.clustered = false → tm.peers = [] →
      s.resumeFits x (s.time + 1) tm core = true →
      ∃ t y, Gives (.contextResume team core) s t ∧ t.teams.find? team = some y ∧ y.phase = .running ∧ y.core = core ∧
        y.groups.map (·.r) = tm.groups.map (·.r) ∧ y.groups.map (·.t) = tm.groups.map (·.t) ∧ y.pad = tm.pad ∧
        y.tiles = tm.tiles ∧ y.ix = tm.ix ∧
        ∀ n c, n < 4 → tm.sluice = [(n, c)] → (t.core core).sl n = c) ∧
    (∀ part, part < 32 → (s.part part).slice = none → s.gangSlice part = none →
      (let v := (s.part part).visit
       (s.part part).inVisit = true → s.scheduled part v = true → 0 < (s.vd v).deficit → s.hasWork part v = true →
       (s.vd v).held = [] → s.gangParts part v = none →
       (let cfg := (s.part part).cfg
        let base := min (((cfg.extractLsb' 16 16).toNat * 1500 : Nat) : Int) (s.vd v).deficit
        let len := if (s.part part).policy.getLsbD 2 then max base ((s.drainOf v * 1500 : Nat) : Int) else base
        ∃ t, Gives (.sliceStart part) s t ∧ t = { s with parts := t.parts } ∧
          (t.part part).slice = some ⟨v, s.time, len, true, false, []⟩ ∧ v ∉ (t.part part).drained ∧
          ∀ k, k ≠ part → t.part k = s.part k)) ∧
      (let v := ((s.part part).visit + 1) % 128
       let d := (s.vd v).deficit + ((s.vd v).weight * (s.vd v).quantum * 1500 : Nat)
       let now := { s.vd v with liveCfg := (s.vd v).cfg, livePolicy := (s.vd v).policy }
       (s.part part).inVisit = false → ({ s with vds := s.vds.put v now } : State).scheduled part v = true → (s.vd v).weight ≠ 0 → s.hasWork part v = true → 0 < d →
       (s.vd v).held = [] → s.gangParts part v = none →
       ∃ t x, Gives (.sliceStart part) s t ∧ t = { s with parts := t.parts, vds := t.vds } ∧
         t.vd v = { now with deficit := d } ∧ (t.part part).slice = some x ∧ x.vd = v ∧ x.start = s.time ∧
         (t.part part).visit = v ∧ (t.part part).cfg = (s.vd v).cfg ∧
         ((s.vd v).overrunOk = false → x.length = min (((s.vd v).quantum * 1500 : Nat) : Int) d))) ∧
    (∀ part x, (s.part part).slice = some x → x.charged = false → s.weightedWork part = true →
      ∃ t, Gives (.weight0Preempt part) s t ∧ t = { s with parts := t.parts } ∧
        t.part part = { s.part part with slice := some { x with stopped := true } })

/-! ### Queues -/

/-- What the registers, the lanes and the packets of a queue do. A doorbell of the queue's own virtual function with a newer SEQ
and an IDX not behind is taken; WIDX_RECONCILE reads WIDX every 50 µs; a write of QCTL sets CTX and VD, ENABLE from 0 to 1 binds
the queue to them and to its header, or puts it in ERROR with code 0x11, and ENABLE 0 disables it once it is empty; a packet
completes by one less in its signal. FOUNTAINHEAD_STEP, and NEST_LAUNCH_DEFERRED for a packet that waited at the head, process the
packet at RIDX: a NEST becomes an active nest under the next number, or ends with its launch code, or waits with its record while
64 are active; a GANG reserves its parts; a SLUICE starts the lowest FREE context of the nearest die; a SIGNAL changes its signal;
a barrier fails on a negative signal, completes when all read 0, and else stays in flight; and a packet that fails on the way puts
the queue in ERROR with its code, one whose slot cannot be written after its −1, one whose slot cannot be read without (16 R282 to R294, 06 R125 to R129, R145, 18 R297). Where the accesses of Fountainhead perform and
which port checks them is log entry 31, when QCTL takes effect log entry 112, the ring of a queue with a bad header and a header that
fails translation log entry 121, when cores drop the code that they hold log entry 122, and the place of a gang's reservation log entry 28.
-/
def Obligations.QueueSteps : Prop :=
  ∀ (s : State) (q : Nat), q < 256 →
    (let x := s.queue q
    (∀ vf off, ∀ value : W64, ∃ t, Gives (.doorbellWrite ⟨vf, off⟩ value) s t ∧ t = { s with queues := t.queues } ∧
      (∀ k, off ≠ 8 * k ∨ 256 ≤ k ∨ (s.queue k).vd ≠ vf → t.queue k = s.queue k) ∧
      (off = 8 * q → x.vd = vf →
        (let seq := (value.extractLsb' 32 16).toNat
         let idx := (value.extractLsb' 0 32).toNat
         t.queue q =
           if x.state ≠ .disabled ∧ 1 ≤ (seq + 65536 - x.s) % 65536 ∧ (seq + 65536 - x.s) % 65536 ≤ 32767 ∧
               idxAhead x.w idx < 2 ^ 31 then { x with s := seq, w := idx } else x))) ∧
    (∀ i, x.state ≠ .disabled → 50000 ≤ s.time - x.reconciled → s.fwNat x.ctx (x.header.toNat + 0x10) 4 = .ok i →
      ∃ t, Gives (.widxReconcile q) s t ∧ t = { s with queues := t.queues } ∧
        t.queue q = { x with
          reconciled := s.time
          w := if 1 ≤ idxAhead x.w i ∧ idxAhead x.w i < 2 ^ 31 then i else x.w }) ∧
    (∀ (c : BitVec 16) (d : BitVec 7),
      (let ctx := c.toNat
       let vd := d.toNat
       let y : Queue := { x with
         qctx := ctx, qvd := vd, header := x.hdr, ctx := ctx, vd := vd, enable := true, state := .active, base := 0, logsize := 6
         ridx := 0, s := 0, w := 0, head := none, reconciled := s.time, err := none
         failing := x.failing.filter fun f => f.id.isSome }
       (x.enable = true → ∃ t, Gives (.queueEnable q c d) s t ∧ t = { s with queues := t.queues } ∧
         t.queue q = { x with qctx := ctx, qvd := vd }) ∧
       (∀ b, x.enable = false → ctx ≠ 0 → (s.ctx ctx).state = .live → x.hdr.toNat % 64 = 0 →
         s.fwRead ctx x.hdr.toNat 64 = .ok b →
         (pktDword b 0).toNat % 64 = 0 → 6 ≤ recBits b 8 0 5 → recBits b 8 0 5 ≤ 16 →
         ∃ t, Gives (.queueEnable q c d) s t ∧ t = { s with queues := t.queues } ∧
           t.queue q = { y with base := pktDword b 0, logsize := recBits b 8 0 5, ridx := recBits b 0x10 32 32 }) ∧
       (x.enable = false → ctx = 0 ∨ (s.ctx ctx).state ≠ .live →
         ∃ t, Gives (.queueEnable q c d) s t ∧ t = { s with queues := t.queues } ∧
           t.queue q = { y with state := .error, err := some (0x11, 0) }) ∧
       (x.enable = false → ctx ≠ 0 → (s.ctx ctx).state = .live →
         x.hdr.toNat % 64 ≠ 0 ∨ (∀ b, s.fwRead ctx x.hdr.toNat 64 ≠ .ok b) ∨
           (∃ b, s.fwRead ctx x.hdr.toNat 64 = .ok b ∧
             ((pktDword b 0).toNat % 64 ≠ 0 ∨ recBits b 8 0 5 < 6 ∨ 16 < recBits b 8 0 5)) →
         (∀ l, s.rangeFw ctx .write (x.hdr.toNat + 0x18) 8 = .ok l →
           s.pieceWaits ctx (.event (.queueEnable q c d)) l = none) →
         ∃ t, Gives (.queueEnable q c d) s t ∧ t.queue q = { y with state := .error, err := some (0x11, 0) }))) ∧
    (∀ (c : BitVec 16) (d : BitVec 7), ∃ t, Gives (.queueDisable ⟨q, c, d⟩) s t ∧ t = { s with queues := t.queues } ∧
      t.queue q = { x with
        qctx := c.toNat, qvd := d.toNat, enable := false, head := none
        state := if x.inflight = [] ∧ x.failing = [] then .disabled else x.state }) ∧
    (∀ p s1 ph, x.inflight.find? (fun y => y.id == p.id) = some p → p.work = .outcome none → p.block = 0 → p.compl ≠ 0 →
      s.descheduled p.vd = false →
      s.needHost (s.fwLines p.nest ++ s.signalLine p.ctx p.compl) [.event (.packetComplete q p.id)] = none → s.fwRelease (.event (.packetComplete q p.id)) p.nest = .ok s1 →
      s1.resolveFw p.ctx .write p.compl.toNat = .ok ph →
      s1.pieceWaits p.ctx (.event (.packetComplete q p.id)) [(ph, 8)] = none → ph.pa % 8 = 0 →
      (let old : W64 := BitVec.ofNat 64 (bytesToNat (readBytes (s1.homeByte ph.key) ph.pa 8))
       ∃ t, Gives (.packetComplete q p.id) s t ∧
         (∀ i, i < 8 → t.homeByte ph.key (ph.pa + i) = (natToBytes 8 (old - 1).toNat).getD i 0) ∧
         (∀ y ∈ (t.queue q).inflight, y.id ≠ p.id) ∧
         ∀ y ∈ x.inflight, y.id ≠ p.id → y ∈ (t.queue q).inflight)) ∧
    (∀ b i, OnlyLane s q → s.mgmt.booted = true →
      i = .fountainheadStep (q / 64) ∨ (x.head.isSome = true ∧ i = .nestLaunchDeferred q) →
      s.fwRead x.ctx (slotAddr x) 64 = .ok b →
      (let writable := ∃ l, s.rangeFw x.ctx .write (slotAddr x) 64 = .ok l
       let a0 := s.fwAcquire (s.fwScope x.vd (recBits b 0 9 2))
       let id := a0.serial
       let a := { a0 with serial := id + 1 }
       let owned := (s.vdNow x.vd).owned
       let parts := if owned = [] then [] else pktParts b
       let open_ := fun (rec : List Byte) (ps : List Nat) => ((LaunchRec.ofBytes rec).nest x.ctx x.vd q id ps s.time).open
       let record := fun (rec : List Byte) => x.head.elim (a.fwRead x.ctx (pktDword b 0x10).toNat 256) .ok = .ok rec
       let readable := writable ∧ pktReserved b = false ∧
         (pktCompl b = 0 ∨ ∃ ph, s.resolveFw x.ctx .write (pktCompl b).toNat = .ok ph)
       (readable → pktType b = 1 ∨ (pktType b = 2 ∧ parts.Nodup ∧ ∀ p ∈ parts, p ∈ owned) → ∀ rec, record rec →
         (64 ≤ s.nests.length + s.gangs.length →
           ∃ t, Gives i s t ∧ t = { s with queues := t.queues } ∧ t.queue q = { x with head := some rec }) ∧
         (s.nests.length + s.gangs.length < 64 →
           (let gang := pktType b == 2
            let n := open_ rec (if gang then parts else [])
            let ps := if gang then parts else owned
            let plan := if n.launch.persist then (a.reserve n ps).getD [] else []
            let raw := (LaunchRec.ofBytes rec).nest x.ctx x.vd q id (if gang then parts else []) s.time
            (∀ c, a.launchCode rec raw gang ps = some c → Processed i s a q id b (.outcome (some c)) none [] 0) ∧
            (a.launchCode rec raw gang ps = none →
              (n.done = true → Processed i s a q id b (.outcome none) none [] 0) ∧
              (n.done = false → gang = false →
                Processed i s { a.freshCode with serial := id + 2, nests := a.nests.put (id + 1) { n with plan := plan } } q id b
                  (.nest (id + 1)) (some (id + 1)) [] 0) ∧
              (n.done = false → gang = true →
                Processed i s
                  { a with
                    serial := id + 2
                    gangs := a.gangs.put (id + 1) ⟨q, id, x.ctx, x.vd, n.launch, parts, plan, s.time⟩ } q id b
                  (.gang (id + 1)) none [] 0))))) ∧
       (readable → pktType b = 1 → x.head = none → (∀ rec, a.fwRead x.ctx (pktDword b 0x10).toNat 256 ≠ .ok rec) →
         Processed i s a q id b (.outcome (some 0x18)) none [] 0) ∧
       (readable → pktType b = 5 → owned ≠ [] → ∀ fs, a.slotBlock x.ctx (pktDword b 0x28) = .ok fs →
         (∀ c n, a.findSluice owned (recBits b 0x20 0 2) = some (c, n) →
           Processed i s (a.freshCode.updSl c n fun y => { SlCtx.reset with
             state := .running, serial := y.serial, owner := .packet q id, ctx := x.ctx, pc := pktDword b 0x10, wait := none
             w := if pktDword b 0x18 = 0 then [] else [(0, pktDword b 0x18)] }) q id b (.sluice c n) none fs (pktDword b 0x28)) ∧
         (a.findSluice owned (recBits b 0x20 0 2) = none →
           ∃ t, Gives i s t ∧ t = { s with queues := t.queues } ∧ t.queue q = { x with head := some [] })) ∧
       (readable → pktType b = 4 → ∀ ph, a.resolveFw x.ctx .write (pktDword b 0x10).toNat = .ok ph →
         (let act : Action := .event (.fountainheadStep (q / 64))
          let sig := a.storePieces x.ctx (pktDword b 0x10).toNat 8
          a.pieceWaits x.ctx act
            (sig ++ a.storePieces x.ctx (slotAddr x) 1 ++ a.storePieces x.ctx (x.header.toNat + 0x14) 4) = none ∧
            a.pieceWaits x.ctx act [(ph, 8)] = none) →
         (let old : W64 := BitVec.ofNat 64 (bytesToNat (readBytes (a.homeByte ph.key) ph.pa 8))
          let v := pktDword b 0x18
          ∀ new, (recBits b 0x20 0 2 = 0 ∧ new = old + v) ∨ (recBits b 0x20 0 2 = 1 ∧ new = old - v) ∨
              (recBits b 0x20 0 2 = 2 ∧ new = v) →
            Processed i s (a.landBytes ph (natToBytes 8 new.toNat) none) q id b (.outcome none) none [] 0)) ∧
       (readable → pktType b = 0x7F → Processed i s a q id b (.outcome none) none [] 0) ∧
       (readable → pktType b = 3 → ∀ l, s.readSignals x.ctx (pktDeps b) = some l → (∀ y ∈ l, y.msb = false) →
         Processed i s a q id b (if ∀ y ∈ l, y = 0 then .outcome none else .barrier (pktDeps b)) none [] 0) ∧
       (∀ c s1 s2, idxAhead x.ridx x.w = 1 → pktType b ≠ 0 → (pktCompl b).toNat % 8 = 0 →
         (¬ writable ∧ c = 0x18) ∨ (writable ∧ pktType b ∉ [3, 4, 1, 2, 5, 0x7F] ∧ c = 0x10) ∨
         (writable ∧ pktType b ∈ [3, 4, 1, 2, 5, 0x7F] ∧ pktReserved b = true ∧ c = 0x11) ∨
         (writable ∧ pktType b ∈ [3, 4, 1, 2, 5, 0x7F] ∧ pktReserved b = false ∧ pktCompl b ≠ 0 ∧
           (∀ ph, s.resolveFw x.ctx .write (pktCompl b).toNat ≠ .ok ph) ∧ c = 0x12) ∨
         (readable ∧ pktType b = 3 ∧ s.readSignals x.ctx (pktDeps b) = none ∧ c = 0x12) ∨
         (readable ∧ pktType b = 3 ∧ (∃ l, s.readSignals x.ctx (pktDeps b) = some l ∧ ∃ y ∈ l, y.msb = true) ∧ c = 0x13) ∨
         (readable ∧ pktType b = 4 ∧ (∀ ph, a.resolveFw x.ctx .write (pktDword b 0x10).toNat ≠ .ok ph) ∧ c = 0x12 ∧
           a.pieceWaits x.ctx (.event (.fountainheadStep (q / 64)))
             (a.storePieces x.ctx (pktDword b 0x10).toNat 8 ++ a.storePieces x.ctx (slotAddr x) 1 ++
               a.storePieces x.ctx (x.header.toNat + 0x14) 4) = none) ∨
         (readable ∧ pktType b = 2 ∧ (¬ parts.Nodup ∨ ∃ p ∈ parts, p ∉ owned) ∧ c = 0x16) ∨
         (readable ∧ pktType b = 5 ∧ owned = [] ∧ c = 0x17) ∨
         (readable ∧ pktType b = 5 ∧ owned ≠ [] ∧ a.slotBlock x.ctx (pktDword b 0x28) = .error c) →
         (let f : Failing := ⟨none, x.ridx, x.ctx, x.vd, pktCompl b, some c, false, false⟩
          let sf := s.updQueue q fun y => { y with failing := [f] }
          let act : Action := .event (.fountainheadStep (q / 64))
          (if pktCompl b = 0 then s1 = sf
            else sf.complete act x.vd ⟨q, 0, x.ridx, x.ctx, pktCompl b, false, 2, none⟩ = .ok s1) →
          (s1.updQueue q fun y => { y with failing := [{ f with signalled := true }] }).queueError act q c x.ridx = .ok s2 →
          MovesOn (s2.updQueue q fun y => { y with failing := [{ f with signalled := true, recorded := true }] }) q →
          ∃ t, Gives i s t ∧ t.queue q = { x with
            state := .error, err := some (c, x.ridx), ridx := (x.ridx + 1) % 2 ^ 32, head := none, failing := [] })))) ∧
    (∀ i s2, OnlyLane s q → s.mgmt.booted = true →
      i = .fountainheadStep (q / 64) ∨ (x.head.isSome = true ∧ i = .nestLaunchDeferred q) →
      (∀ b, s.fwRead x.ctx (slotAddr x) 64 ≠ .ok b) → idxAhead x.ridx x.w = 1 →
      (let f : Failing := ⟨none, x.ridx, x.ctx, x.vd, 0, some 0x18, true, false⟩
       (s.updQueue q fun y => { y with failing := [f] }).queueError (.event (.fountainheadStep (q / 64))) q 0x18 x.ridx = .ok s2 →
       MovesOn (s2.updQueue q fun y => { y with failing := [{ f with recorded := true }] }) q →
       ∃ t, Gives i s t ∧ t.queue q = { x with
         state := .error, err := some (0x18, x.ridx), ridx := (x.ridx + 1) % 2 ^ 32, head := none, failing := [] })) ∧
    (∀ owned basin c n, s.findSluice owned basin = some (c, n) → n < 4 ∧ ((s.core c).sl n).state = .free ∧
      (∀ k, k < n → ((s.core c).sl k).state ≠ .free) ∧ s.partOf c ∈ owned ∧
      ∀ c' k, c' < 384 → k < 4 → ((s.core c').sl k).state = .free → s.partOf c' ∈ owned → basin < 4 →
        (basinOrder basin).idxOf (c / 96) ≤ (basinOrder basin).idxOf (c' / 96)))

/-! ### The package control space -/

/-- What the driver's steps on regions, shootdowns and contexts do. A staged entry takes its fields while no drain is under way; a
commit makes the staged table active under the next generation; a shootdown leaves no cached translation of its range; a context
becomes LIVE with an empty handle table, DYING, and FREE again, and the command register says how it went (01 R15 to R20, R26,
15 R278 to R281). What the checks of a commit take in is log entry 75, and the order of COMMIT_ERR and COMMIT in one write log entry
93. -/
def Obligations.RegionAndContextSteps : Prop :=
  ∀ s : State,
    (∀ basin entry reg (value : W64), basin < 4 → entry < 16 → reg < 3 →
      (let r := (s.basin basin).regions
       ∃ t, Gives (.regionEntryWrite basin entry reg value) s t ∧ t = { s with basins := t.basins } ∧
         (∀ k, k ≠ basin → t.basin k = s.basin k) ∧ (t.basin basin).regions =
           if r.busy then { r with commitErr := true }
           else { r with staging := listUpd (fun e => if reg = 0 then { e with base := value &&& 0x7FFFFFF0001 }
             else if reg = 1 then { e with limit := value &&& 0x7FFFFFF0000 }
             else { e with map := value &&& 0xF707 }) entry r.staging })) ∧
    (∀ basin (value : W64), basin < 4 →
      (let r := (s.basin basin).regions
       (value.getLsbD 0 = true → r.busy = false → commitOk r.staging = true →
         ∃ t, Gives (.regionCommit basin value) s t ∧ (t.basin basin).regions = { r with
           old := r.active, active := r.staging, gen := (r.gen + 1) % 16, busy := true
           commitErr := r.commitErr && !value.getLsbD 2 }) ∧
       (value.getLsbD 0 = true → r.busy = true ∨ commitOk r.staging = false →
         ∃ t, Gives (.regionCommit basin value) s t ∧ t = { s with basins := t.basins } ∧
           (t.basin basin).regions = { r with commitErr := true }) ∧
       (r.busy = true → (∀ b ∈ s.m.ingress, b.2 = []) → ∃ t, Gives (.regionDrainEnd basin) s t ∧
         t = { s with basins := t.basins } ∧ (t.basin basin).regions = { r with busy := false, old := [] }))) ∧
    (∀ ch (base ctl : W64), ch < 8 → (s.chan ch).busy = false → ctl.getLsbD 0 = true → ctl.extractLsb' 32 32 ≠ 0 →
      ctl.getLsbD 30 = false → (s.ctx (ctl.extractLsb' 16 12).toNat).state = .live →
      (let lo := (base.extractLsb' 12 36).toNat
       ∃ t, Gives (.shootdownStart ch base ctl) s t ∧ t = { s with m := t.m, sd := t.sd, teams := t.teams } ∧ (t.chan ch).busy = true ∧
         ∀ core page, lo ≤ page → page < lo + (ctl.extractLsb' 32 32).toNat → page < 2 ^ 36 →
           t.tlb? core (ctl.extractLsb' 16 12).toNat page = none)) ∧
    (∀ ch s1, (s.chan ch).busy = true → s.usesRange (s.chan ch).ctx (s.chan ch).span.1 (s.chan ch).span.2 = false →
      s.performAll (.event (.shootdownComplete ch)) = .ok s1 →
      ∃ t, Gives (.shootdownComplete ch) s t ∧ t.chan ch = { s.chan ch with busy := false } ∧
        (∀ core page, (s.chan ch).span.1 ≤ page → page < (s.chan ch).span.2 → t.tlb? core (s.chan ch).ctx page = none) ∧
        ∀ key pa, t.homeByte key pa = s1.homeByte key pa) ∧
    (∀ ctx, ctx < 4096 →
      (s.cmd.busy = true →
        Gives (.ctxCreate ctx) s { s with cmd := { s.cmd with status := 1 } } ∧
        Gives (.ctxDestroy ctx) s { s with cmd := { s.cmd with status := 1 } }) ∧
      (s.cmd.busy = false → (s.ctx ctx).state ≠ .free → Gives (.ctxCreate ctx) s { s with cmd := ⟨5, false, ctx⟩ }) ∧
      (s.cmd.busy = false → (s.ctx ctx).state = .free → ctx = 0 ∨ (s.ctx ctx).drain < 10 ∨ 10000 < (s.ctx ctx).drain →
        Gives (.ctxCreate ctx) s { s with cmd := ⟨2, false, ctx⟩ }) ∧
      (s.cmd.busy = false → (s.ctx ctx).state = .free → ctx ≠ 0 → 10 ≤ (s.ctx ctx).drain → (s.ctx ctx).drain ≤ 10000 →
        (s.drainOk ctx = false → ∃ t, Gives (.ctxCreate ctx) s t ∧ t = { s with vds := t.vds, cmd := ⟨4, false, ctx⟩ } ∧
          t.vd (s.ctx ctx).vd = { s.vd (s.ctx ctx).vd with cfgErr := 2 }) ∧
        (s.drainOk ctx = true →
        (s.areasOk ctx = false → Gives (.ctxCreate ctx) s { s with cmd := ⟨3, false, ctx⟩ }) ∧
        (s.areasOk ctx = true → ∃ t, Gives (.ctxCreate ctx) s t ∧ t = { s with ctxs := t.ctxs, cmd := ⟨0, false, ctx⟩ } ∧
          t.ctx ctx = { s.ctx ctx with state := .live, handles := [] } ∧ ∀ k, k ≠ ctx → t.ctx k = s.ctx k))) ∧
      (s.cmd.busy = false → (s.ctx ctx).state ≠ .live ∨ s.ctxActive ctx = true →
        Gives (.ctxDestroy ctx) s { s with cmd := ⟨5, false, ctx⟩ }) ∧
      (s.cmd.busy = false → (s.ctx ctx).state = .live → s.ctxActive ctx = false →
        ∃ t, Gives (.ctxDestroy ctx) s t ∧ (t.ctx ctx).state = .dying ∧ t.cmd = ⟨0, true, ctx⟩ ∧
          (∀ e ∈ (t.ctx ctx).handles, e.2.res = none) ∧ ∀ core page, page < 2 ^ 36 → t.tlb? core ctx page = none) ∧
      (∀ s1, s.cmd.busy = true → (s.ctx ctx).state = .dying → s.usesRange ctx 0 (2 ^ 36) = false →
        s.performAll (.event (.ctxDestroyComplete ctx)) = .ok s1 →
        ∃ t, Gives (.ctxDestroyComplete ctx) s t ∧ (t.ctx ctx).state = .free ∧ (t.ctx ctx).handles = [] ∧
          t.cmd = { s.cmd with status := 0, busy := false }))

/-- What a write of PORTn, VD_CFG, VD_POLICY, TEN_WAYS, a key and any other control register does: the register takes the value in
its fields, or it is refused and CFG_ERR says why; a register of a context is written only while the context is FREE, and the
ranges, ways and keys of others stay as they are (08 R151, 12 R244, 15 R264 to R268, R273 to R278, R280). From when a configuration of a
virtual device counts is log entry 111. CTX_CMD is written whole: OP gives the command, and without a command CTX takes the value,
while another command runs too (15 R279, log entry 125). A communicator has no register layout in the spec: that one write gives its
packages, its rank and its timeout and starts it afresh, with sequence number 0 and no messages, is log entry 99. -/
def Obligations.ControlRegisterWrites : Prop :=
  ∀ (s : State) (value : W64),
    (∀ port, port < 32 → Gives (.portWrite port value) s
      { s with ports := s.ports.put port ⟨value.extractLsb' 32 32, value.extractLsb' 0 5⟩ }) ∧
    (∀ vd, vd < 128 →
      (let quantum := (value.extractLsb' 16 16).toNat
       ((value.getLsbD 7 = true ∧ quantum = 0) → ∃ t, Gives (.vdCfgWrite vd value) s t ∧
         t.vd vd = { s.vd vd with cfgErr := 1 }) ∧
       (¬ (value.getLsbD 7 = true ∧ quantum = 0) → (s.vd vd).policy.getLsbD 2 = false → quantum < s.drainOf vd →
         ∃ t, Gives (.vdCfgWrite vd value) s t ∧ t.vd vd = { s.vd vd with cfgErr := 2 }) ∧
       (¬ (value.getLsbD 7 = true ∧ quantum = 0) → (s.vd vd).policy.getLsbD 2 = true ∨ s.drainOf vd ≤ quantum →
         ∃ t, Gives (.vdCfgWrite vd value) s t ∧ t = { s with vds := t.vds } ∧
           t.vd vd = { s.vd vd with cfg := value, cfgErr := 0 } ∧ ∀ k, k ≠ vd → t.vd k = s.vd k)) ∧
      (let quantum := ((s.vd vd).cfg.extractLsb' 16 16).toNat
       ¬ ((s.vd vd).cfg.getLsbD 7 = true ∧ quantum = 0) → value.getLsbD 2 = true ∨ s.drainOf vd ≤ quantum →
         ∃ t, Gives (.vdPolicyWrite vd value) s t ∧ t = { s with vds := t.vds } ∧
           t.vd vd = { s.vd vd with policy := value.setWidth 32 &&& 7, cfgErr := 0 })) ∧
    (∀ ten basin, ten < 128 → basin < 4 →
      (let ways : BitVec 16 := value.setWidth 16
       ((∀ k, k < 128 → k ≠ ten → (s.basin basin).waysOf k &&& ways = 0) →
         ∃ t, Gives (.tenWaysWrite ten basin value) s t ∧ t = { s with basins := t.basins, m := t.m } ∧
           (t.basin basin).waysOf ten = ways ∧ (∀ k, k ≠ ten → (t.basin basin).waysOf k = (s.basin basin).waysOf k) ∧
           (∀ e ∈ t.m.l2, e.2.tenant = ten → basinOf (128 * keyLine e.1) = basin → ways.getLsbD e.2.way = true) ∧
           ∀ key pa, t.homeByte key pa = s.homeByte key pa) ∧
       ∀ k, k < 128 → k ≠ ten → (s.basin basin).waysOf k &&& ways ≠ 0 → Gives (.tenWaysWrite ten basin value) s s)) ∧
    (∀ k, k < 256 →
      (∃ t, Gives (.registerWrite (.keyTenLo k) value) s t ∧ t = { s with keys := t.keys } ∧
        t.key k = { s.key k with tenLo := value }) ∧
      (∃ t, Gives (.registerWrite (.keyTenHi k) value) s t ∧ t = { s with keys := t.keys } ∧
        t.key k = { s.key k with tenHi := value }) ∧
      ∀ a b c d : W64, ∃ t, Gives (.keyWrite k [a, b, c, d]) s t ∧ t = { s with keys := t.keys } ∧
        t.key k = { s.key k with key := d ++ c ++ b ++ a, version := (s.key k).version + 1 } ∧
        ∀ j, j ≠ k → t.key j = s.key j) ∧
    (∀ ten basin n, ten < 128 → basin < 4 → n < 8 →
      (∃ t, Gives (.registerWrite (.rangeBase ten basin n) value) s t ∧ t = { s with basins := t.basins } ∧
        (t.basin basin).range ten n = { (s.basin basin).range ten n with base := value &&& 0x1FFFFFFFF001 }) ∧
      (∃ t, Gives (.registerWrite (.rangeLimit ten basin n) value) s t ∧ t = { s with basins := t.basins } ∧
        (t.basin basin).range ten n = { (s.basin basin).range ten n with limit := value &&& 0x1FFFFFFFF000 }) ∧
      (∃ t, Gives (.registerWrite (.rangeCtl ten basin n) value) s t ∧ t = { s with basins := t.basins } ∧
        (t.basin basin).range ten n = { (s.basin basin).range ten n with ctl := value &&& 0xFFFFF })) ∧
    (∀ ten, ten < 128 → (value.extractLsb' 0 13).toNat ≤ 4608 → Gives (.registerWrite (.tenMacros ten) value) s
      { s with quotas := s.quotas.put ten (value.extractLsb' 0 13).toNat }) ∧
    (∀ c, 1 ≤ c → c < 4096 →
      ((s.ctx c).state = .free →
        (∃ t, Gives (.registerWrite (.ctxRoot c) value) s t ∧ t = { s with ctxs := t.ctxs } ∧
          t.ctx c = { s.ctx c with root := value &&& 0x1FFFFFFFF000 }) ∧
        (∃ t, Gives (.registerWrite (.ctxSave c) value) s t ∧ t = { s with ctxs := t.ctxs } ∧
          t.ctx c = { s.ctx c with save := value &&& 0xFFFFFFE00000 }) ∧
        (∃ t, Gives (.registerWrite (.ctxFault c) value) s t ∧ t = { s with ctxs := t.ctxs } ∧
          t.ctx c = { s.ctx c with fault := value &&& 0xFFFFFFFFF000 }) ∧
        (∃ t, Gives (.registerWrite (.ctxHandler c) value) s t ∧ t = { s with ctxs := t.ctxs } ∧
          t.ctx c = { s.ctx c with handler := value &&& 0xFFFFFFFFFFF8 }) ∧
        ∃ t, Gives (.registerWrite (.ctxCfg c) value) s t ∧ t = { s with ctxs := t.ctxs } ∧
          t.ctx c = { s.ctx c with cfg := value &&& 0xFFFC7F00 }) ∧
      ((s.ctx c).state ≠ .free → ∀ reg ∈ [CtlReg.ctxRoot c, .ctxSave c, .ctxFault c, .ctxHandler c, .ctxCfg c],
        Gives (.registerWrite reg value) s s)) ∧
    (∀ ch, ch < 8 → (s.chan ch).busy = false → ∃ t, Gives (.registerWrite (.sdBase ch) value) s t ∧
      t.chan ch = { s.chan ch with base := value &&& 0xFFFFFFFFF000 }) ∧
    (∀ q, q < 256 → ∃ t, Gives (.registerWrite (.qhdr q) value) s t ∧ t = { s with queues := t.queues } ∧
      t.queue q = { s.queue q with hdr := value }) ∧
    (∀ vd comm packages rank timeout, vd < 128 → comm < 256 → 1 ≤ packages.length → packages.length ≤ 1024 → rank < packages.length →
      1 ≤ timeout → timeout ≤ 60000 → Gives (.registerWrite (.commCfg vd comm packages rank timeout) value) s
        { s with comms := s.comms.put (commKey vd comm) ⟨packages, rank, timeout * 1000000, 0, []⟩ }) ∧
    (let ctx := (value.extractLsb' 16 12).toNat
     let op := (value.extractLsb' 0 2).toNat
     (op = 1 → exec (.registerWrite .ctxCmd value) s = exec (.ctxCreate ctx) s) ∧
     (op = 2 → exec (.registerWrite .ctxCmd value) s = exec (.ctxDestroy ctx) s) ∧
     (op = 0 ∨ op = 3 → Gives (.registerWrite .ctxCmd value) s { s with cmd := { s.cmd with ctx := ctx } })) ∧
    ∀ off, Gives (.registerWrite (.readOnly off) value) s s

/-! ### The host and the management controller -/

/-- What the requests of the host do. A write enters the HOST buffer of its home and a read returns what the HOST path reads, what a
control register reads, or zero for an offset of a virtual function; an AtomicOp returns the old value and leaves the new one; a write
or an AtomicOp to a replicated page waits for the collapse that it raises, and a write that finds no room in the HOST buffers is made
again, its completion withheld; a request outside device memory and the host window, and one
that the device does not support, is answered with Unsupported Request; an ATS invalidation completes when nothing used the
translation; and a back-invalidation response gives the line back to the device, whose writes to it leave their buffers and whose steps
that waited for that line alone come next (01 R28, 08 R154, R167, R170, 19 R298 to R301). That a request outside device memory and the
host window is answered so, and which AtomicOps are supported, is log entry 81; how a write of the host, which names a physical
address, finds the replicated page that it meets is log entry 82; which accesses wait for a collapse, and how, is log entry 106; and
how a request without room is made again is log entry 123. -/
def Obligations.HostRequests : Prop :=
  ∀ s : State,
    (∀ addr data, hostRangeOk addr data.length = false → Gives (.hostWrite addr data) s { s with reply := .unsupported }) ∧
    (∀ addr n hold, hostRangeOk addr n = false → Gives (.hostRead (.mem addr) n hold) s { s with reply := .unsupported }) ∧
    (∀ addr (data : List Byte), hostRangeOk addr data.length = true → addr % 128 + data.length ≤ 128 → data ≠ [] →
      (let l := hostPieces addr data.length
       let full := s.ingressFull .host = true ∨ s.agedFirst Path.host.code = true
       (s.replOf l = [] → (∀ c ∈ s.m.collapses, c.holds addr = false) → placeOf addr ≠ .host → full →
         ∃ t, Gives (.hostWrite addr data) s t ∧ t = { s with turned := t.turned } ∧
           ∃ since, (Path.host.code, .event (.hostWrite addr data), since) ∈ t.turned ∨
             ∃ k, (k, .event (.hostWrite addr data), since) ∈ s.turned) ∧
       (s.replOf l = [] → (∀ c ∈ s.m.collapses, c.holds addr = false) → placeOf addr = .host ∨ ¬ full →
         ∃ t, Gives (.hostWrite addr data) s t ∧ t.reply = .done ∧
         (placeOf addr ≠ .host → (∀ i, i < data.length → t.pathByte .host noKey (addr + i) = data.getD i 0) ∧
           ∀ key pa, t.homeByte key pa = s.homeByte key pa) ∧
         (placeOf addr = .host → ∀ i, i < data.length → t.homeByte noKey (addr + i) = data.getD i 0) ∧
         ∀ key pa, lineOf pa ≠ lineOf addr → t.pathByte .host key pa = s.pathByte .host key pa) ∧
       (s.replOf l ≠ [] ∨ (∃ c ∈ s.m.collapses, c.holds addr = true) → ∃ t, Gives (.hostWrite addr data) s t ∧
         t = { s with m := { s.m with collapses := t.m.collapses } } ∧
         ∃ c ∈ t.m.collapses, .event (.hostWrite addr data) ∈ c.waiters))) ∧
    (∀ addr n, hostRangeOk addr n = true → addr % 128 + n ≤ 128 → 0 < n →
      Gives (.hostRead (.mem addr) n false) s
        { s with reply := .data ((List.range n).map fun i => s.pathByte .host noKey (addr + i)) } ∧
      ∃ t, Gives (.hostRead (.mem addr) n true) s t ∧
        t = { s with reply := t.reply, m := { s.m with hostHeld := t.m.hostHeld } } ∧
        t.reply = .data ((List.range n).map fun i => s.pathByte .host noKey (addr + i)) ∧
        (placeOf addr ≠ .host → s.m.backInv.find? (lineOf addr) = none → t.hostHolds (lineOf addr) = true)) ∧
    (∀ r n hold, Gives (.hostRead (.ctl r) n hold) s { s with reply := .data (natToBytes 8 (s.readCtl r).toNat) }) ∧
    (∀ r n hold, Gives (.hostRead (.stat r) n hold) s { s with reply := .data (natToBytes 8 (s.readStat r).toNat) }) ∧
    (∀ v off n hold, Gives (.hostRead (.vf v off) n hold) s { s with reply := .data [0, 0, 0, 0, 0, 0, 0, 0] }) ∧
    (∀ c q k ch, 1 ≤ c → c < 4096 → q < 256 → k < 256 → ch < 8 →
      (s.readCtl (.ctxCfg c)).getLsbD 1 = ((s.ctx c).cfg.getLsbD 1 || (s.ctx c).state == .live) ∧
      s.readCtl (.qhdr q) = (s.queue q).hdr ∧ s.readCtl (.keyTenLo k) = (s.key k).tenLo ∧ s.readStat (.key k) = 0 ∧
      s.readStat (.doorbell q) = 0 ∧ (s.readStat (.qctl q)).getLsbD 0 = (s.queue q).enable ∧
      ((s.chan ch).ctl.getLsbD 31 = false → (s.readStat (.sdCtl ch)).getLsbD 31 = (s.chan ch).busy)) ∧
    (∀ op addr n (a b : W64), hostAtomicOk op addr n = false →
      Gives (.hostAtomicRequest op addr n a b) s { s with reply := .unsupported }) ∧
    (∀ addr n (a b : W64), n = 4 ∨ n = 8 → addr % n = 0 → addr % 2 ^ 43 < 192 * 2 ^ 30 → addr < 2 ^ 45 →
      s.replOf [(⟨addr, 0, noKey, 0, false, false⟩, n)] = [] → (∀ c ∈ s.m.collapses, c.holds addr = false) →
      (let s1 := s.drainPath .host fun e => e.line == lineOf addr
       let old := readBytes (s1.homeByte noKey) addr n
       ∀ op new, (op = .add ∧ new = bytesToNat old + a.toNat) ∨ (op = .exch ∧ new = a.toNat) ∨
           (op = .cas ∧ new = if bytesToNat old = b.toNat % 2 ^ (8 * n) then a.toNat else bytesToNat old) →
         ∃ t, Gives (.hostAtomicRequest op addr n a b) s t ∧ t.reply = .data old ∧
           ∀ i, i < n → t.homeByte noKey (addr + i) = (natToBytes n new).getD i 0)) ∧
    (∀ addr, Gives (.unsupportedHostRequest addr) s { s with reply := .unsupported }) ∧
    (∀ page, (∀ e ∈ s.teams, ∀ g ∈ e.2.groups, g.hostPending page = false) →
      Gives (.atsInvalidation page) s { s with reply := .done, m := { s.m with ats := s.m.ats.erase page } }) ∧
    (∀ line, (s.m.backInv.find? line).isSome = true → s.hostHolds line = true →
      ∃ t, Gives (.backInvalidationResponse line) s t ∧ t.hostHolds line = false ∧
        (∀ k, k ≠ line → t.hostHolds k = s.hostHolds k) ∧
        (s.m.backInv.sorted = true →
          (∀ e ∈ s.m.backInv, e.1 ≠ line → s.hostHolds e.1 = true → ∀ a ∈ s.m.backInv.getD line [], a ∉ e.2) →
          t.m.backInv.find? line = none ∧ (∀ a ∈ s.m.backInv.getD line [], a ∈ t.agenda) ∧
          (∀ a ∈ s.agenda, a ∈ t.agenda) ∧
          ∀ p ∈ devicePaths, ∀ basin, basin < 4 → ∀ e ∈ t.m.buffer basin p, e.line ≠ line))

/-- What the management controller does. It samples the rails, the dies and the coolant every ms. The clock is lowered, with a log
entry, when the average power exceeds 2,400 W, and until it is below; only the image that does not run is written, and it is
marked when its signature verifies; a reset clears the volatile state and boots the marked image or else the other one; an
attestation leaf is used once and counted before the signature is released, and none is left after 32,768; power loss leaves the
package without a boot (19 R302 to R305). The average, an image with a bad signature and the loss of power are log entries 84 to
86. -/
def Obligations.ManagementSteps : Prop :=
  ∀ s : State,
    (∀ rails dies inlet outlet,
      (∀ t0, s.mgmt.sampled = some t0 → s.time - t0 < 1000000 → Gives (.sensorSample rails ⟨dies, inlet, outlet⟩) s s) ∧
      ((∀ t0, s.mgmt.sampled = some t0 → 1000000 ≤ s.time - t0) → s.mgmt.log.length < 4096 →
        (let power := rails.foldl (· + ·) 0
         let l := (power :: s.mgmt.power).take 10
         let m : Mgmt := { s.mgmt with
           rails := rails, dies := dies, inlet := inlet, outlet := outlet, sampled := some s.time, power := l }
         let i : Instr := .sensorSample rails ⟨dies, inlet, outlet⟩
         (2400 * l.length < l.foldl (· + ·) 0 → s.mgmt.lowered = false → Gives i s
           { s with mgmt := { m with lowered := true, log := s.mgmt.log ++ [.thermal power] } }) ∧
         (2400 * l.length < l.foldl (· + ·) 0 → s.mgmt.lowered = true → Gives i s { s with mgmt := m }) ∧
         (l.foldl (· + ·) 0 < 2400 * l.length → Gives i s { s with mgmt := { m with lowered := false } })))) ∧
    (∀ version sigOk, ∃ t, Gives (.firmwareUpdate version sigOk) s t ∧ t = { s with mgmt := t.mgmt } ∧
      t.mgmt.image s.mgmt.running = s.mgmt.image s.mgmt.running ∧
      t.mgmt.image (!s.mgmt.running) = ⟨version, sigOk⟩ ∧
      t.mgmt.marked = (if sigOk then !s.mgmt.running else s.mgmt.marked) ∧ t.mgmt.running = s.mgmt.running ∧
      t.mgmt.log.getLast? = some (.firmware version sigOk)) ∧
    (∃ t, Gives .deviceReset s t ∧ t.teams = [] ∧ t.nests = [] ∧ t.queues = [] ∧ t.ctxs = [] ∧ t.cores = [] ∧ t.vds = [] ∧
      t.mgmt.leaves = s.mgmt.leaves ∧
      ((s.mgmt.image s.mgmt.marked).sigOk = true → t.mgmt.booted = true ∧ t.mgmt.running = s.mgmt.marked) ∧
      ((s.mgmt.image s.mgmt.marked).sigOk = false → (s.mgmt.image (!s.mgmt.marked)).sigOk = true →
        t.mgmt.booted = true ∧ t.mgmt.running = !s.mgmt.marked) ∧
      ((s.mgmt.image s.mgmt.marked).sigOk = false → (s.mgmt.image (!s.mgmt.marked)).sigOk = false →
        t.mgmt.booted = false)) ∧
    (∀ nonce,
      (s.mgmt.leaves < 32768 → ∃ t, Gives (.attestationSign nonce) s t ∧ t = { s with mgmt := t.mgmt, reply := t.reply } ∧
        t.reply = .leaf s.mgmt.leaves ∧ t.mgmt.leaves = s.mgmt.leaves + 1 ∧
        t.mgmt.log.getLast? = some (.attestation s.mgmt.leaves)) ∧
      (32768 ≤ s.mgmt.leaves → Gives (.attestationSign nonce) s { s with reply := .refused })) ∧
    ∃ t, Gives .powerLoss s t ∧ t.teams = [] ∧ t.nests = [] ∧ t.queues = [] ∧ t.mgmt.booted = false ∧
      t.mgmt.log = s.mgmt.log ∧ t.mgmt.leaves = s.mgmt.leaves


/-! ### Words and encodings -/

/-- The words that the tables of 04 give for some lines of assembly, written out field by field, decode to those lines (04 Tables
4-2, 4-5 to 4-9). -/
def Obligations.DecodeWords : Prop :=
  decode (0#1 ++ 0b00001000#8 ++ 0b0000#4 ++ 0b0111#4 ++ 0b00000100#8 ++ 0b00000101#8 ++ 0b00000110#8 ++ 0b00000000#8 ++
    0b000000000000000#15) = .ok (.iadd ⟨⟨false, 7⟩, false, false, .i32, false, 4, 5, 6⟩) ∧
  decode (0#1 ++ 0b00001000#8 ++ 0b0000#4 ++ 0b0111#4 ++ 0b00000010#8 ++ 0b00000011#8 ++ 0b00000100#8 ++ 0b00000000#8 ++
    0b100000000000000#15) = .ok (.iadd ⟨⟨false, 7⟩, true, false, .i32, false, 2, 3, 4⟩) ∧
  decode (0#1 ++ 0b00101101#8 ++ 0b0000#4 ++ 0b1010#4 ++ 0b00001010#8 ++ 0b00001011#8 ++ 0b00001100#8 ++ 0b00000000#8 ++
    0b001000000000000#15) = .ok (.fmul ⟨⟨true, 2⟩, false, false, .fpmode, 10, 11, 12⟩) ∧
  decode (0#1 ++ 0b00001001#8 ++ 0b0000#4 ++ 0b0111#4 ++ 0b00000111#8 ++ 0b00000111#8 ++ 0b111111111111111111111101#24 ++
    0#7) = .ok (.iaddi ⟨⟨false, 7⟩, false, .i32, false, 7, 7, 0xFFFFFD⟩) ∧
  decode (0#1 ++ 0b00010100#8 ++ 0b0000#4 ++ 0b0111#4 ++ 0b00010100#8 ++ 0b00111111100000000000000000000000#32 ++ 0#7) =
    .ok (.movi ⟨⟨false, 7⟩, false, 20, 0x3F800000⟩) ∧
  decode (0#1 ++ 0b01011011#8 ++ 0b0010#4 ++ 0b0111#4 ++ 0b00001000#8 ++ 0b00000010#8 ++ 0b00000000#8 ++
    0b0000001000000#13 ++ 0b011#3 ++ 0#1 ++ 0b010#3 ++ 0b001#3) =
    .ok (.ld ⟨2, ⟨false, 7⟩, .b32, .dev, .acq, false, 8, 2, 0x40⟩) ∧
  decode (0#1 ++ 0b01010000#8 ++ 0b0000#4 ++ 0b0111#4 ++ 0#8 ++ 4#24 ++ 0#15) = .ok (.mjoin ⟨4⟩) ∧
  decode 0 = .error .opcode

/-- Decoding the encoding of an instruction gives the instruction, for every well-formed instruction that is a word, with every
operand at every value; so does decoding the bytes of the word, whatever follows them (04 R65 to R75). -/
def Obligations.EncodeDecode : Prop :=
  ∀ i : Instr, WellFormed i = true → i.isEvent = false →
    decode (encode i) = .ok i ∧ ∀ rest, decodeBytes (bytesOfWord (encode i) ++ rest) = some (i, rest)

/-- A word that decodes has no other meaning and no other form: it is the encoding of what it decodes to, which is well formed and
a word (04 R67, R85). -/
def Obligations.DecodeEncode : Prop :=
  ∀ (x : W64) (i : Instr), decode x = .ok i → encode i = x ∧ WellFormed i = true ∧ i.isEvent = false

/-! ### Reset and team start -/

/-- What reset leaves: region entries ⟨0, 0, 0xF704⟩ in both banks, generation 0, every way with tenant 0, every port and every
channel group allowed, no virtual device set up, contexts FREE with a drain of 10 µs, queues disabled, no key id permitted,
Sluice contexts FREE with serial 0, and no nest and no team; and the registers of a group at team start (01 Tables 1-2 and 1-3, 15
Tables 15-1 to 15-6, 11 R213, 02 R33, 03 R53, 05 R109, R111). -/
def Obligations.ResetAndTeamStart : Prop :=
  (let s := State.reset
   (∀ b n, n < 16 → (s.basin b).regions.active[n]? = some ⟨0, 0, 0xF704⟩ ∧
     (s.basin b).regions.staging[n]? = some ⟨0, 0, 0xF704⟩ ∧ (s.basin b).regions.gen = 0 ∧
     (s.basin b).regions.busy = false) ∧
   (∀ b ten, (s.basin b).waysOf ten = if ten = 0 then 0xFFFF else 0) ∧
   (∀ n, s.port n = ⟨0xFFFFFFFF, 0⟩) ∧
   (∀ v, (s.vd v).cfg = 0 ∧ (s.vd v).policy = 0 ∧ (s.vd v).deficit = 0 ∧ (s.vd v).held = []) ∧
   (∀ c, (s.ctx c).state = .free ∧ (s.ctx c).handler = 0 ∧ (s.ctx c).drain = 10) ∧
   (∀ q, (s.queue q).state = .disabled) ∧
   (∀ k ten, (s.key k).permits ten = false) ∧
   (∀ c n, ((s.core c).sl n).state = .free ∧ ((s.core c).sl n).serial = 0) ∧
   s.teams = [] ∧ s.nests = []) ∧
  (∀ (g : Nat) (entry : W64),
    (let r := GroupRegs.start g entry
     (∀ n L, r.rdV n L = 0 ∧ r.rdS n = 0) ∧ (∀ n, r.rdP n = if n = 7 then 0xFFFFFFFF else 0) ∧
     r.slot false = ⟨entry, 0xFFFFFFFF, 0⟩ ∧ (r.slot true).live = false ∧ r.join = [] ∧ r.fpm = 0x80 ∧ r.ltile = 32 ∧
     r.gstat = 0 ∧ ∀ L, L < 32 → r.draw L = BitVec.ofNat 32 (g * 32 + L + 1)))

/-! ### Issue -/

/-- A step runs the decoded instruction. A ready slot whose word at the PC fetches and decodes, in its stepped form under a repeat,
with its registers and tiles allocated, no window in its way and nothing to wait for, runs the meaning of that instruction with itself
as the issuer; the fetch has counted at its slice and changed nothing else, and without a repeat the slot then moves on by 8 bytes. A
Sluice context that does not wait does the same with its own decoding, from the line that the instruction cache of its processor holds
or else the home slice (11 R211, log entry 122), and an event of the device runs its meaning with no issuer,
unless both firmware images have failed and the step needs more than configuration space and the mailbox (04 R65, R80, R85, 02 R48,
R51, 11 R216, 19 R304). Who moves at a step is log entry 2, and walks before the word log entries 11 and 105. -/
def Obligations.StepRunsWord : Prop :=
  (∀ (s : State) (team grp : Nat) (b : Bool) (w : Site) (word word1 : W64) (i : Instr),
    s.action = .issue (.grp team grp b) → s.turn.siteAt team grp b = some w → w.ready = true → w.unstopped s.turn = true →
    w.g.st.owedNan = none →
    (∀ p ∈ w.pc.toNat / 4096 :: w.pages i, s.turn.needWalk w.core w.ctx p = false) →
    s.turn.fetch w.core w.ctx w.pc = .ok word →
    (w.ps.repc = 0 → word1 = word) →
    (w.ps.repc ≠ 0 → repLegal word (repcStrides w.ps.repc) = true ∧
      stepWord word (repcStrides w.ps.repc) (repcDone w.ps.repc) = some word1) →
    decodeCore word1 = .ok i → i.allocOk w.tm.shape.vregs = true → w.tileBad i = false → w.lookahead i = false →
    w.crossWait i = false → (w.g.spec = none ∨ w.endsWindow i = false) →
    (Instr.writesDevice i = true → s.turn.ingressFull .core = false ∧
      (w.granted = true ∨ (s.turn.agedAny = false ∧ s.turn.agedFirst Path.core.code = false))) →
    (let t := s.turn.fetched w.core w.ctx w.pc
     step s = exec i { t with cur := some (.grp team grp b) } ∧
     ((∀ ph, s.turn.resolve w.core w.ctx .exec w.pc.toNat = .ok ph → s.turn.rewritten (lineOf ph.pa) = false) →
       t = { s.turn with m := t.m, basins := t.basins } ∧ (∀ key pa, t.homeByte key pa = s.turn.homeByte key pa) ∧
       ({ t with cur := some (.grp team grp b) } : State).site? = some w) ∧
     (w.ps.repc = 0 → w.g.r.advance b = w.g.r.setSlot b ⟨w.pc + 8, w.mask, 0⟩))) ∧
  (∀ (s : State) (core n : Nat) (w : SlSite) (ph : Phys) (i : Instr), s.action = .issue (.sluice core n) →
    s.turn.slAt core n = some w → w.waits s.turn = false →
    s.turn.needWalk w.core w.c.ctx (w.c.pc.toNat / 4096) = false →
    s.turn.slFetchAt core w.c.ctx w.c.pc = .ok ph →
    (let line := ((s.turn.core core).cached? ph).getD (s.turn.readPath .core { ph with pa := 128 * lineOf ph.pa } 128)
     decodeSluice (BitVec.ofNat 64 (bytesToNat ((line.drop (ph.pa % 128)).take 8))) = .ok i →
     step s = exec i { (s.turn.slFetched core w.c.ctx w.c.pc).updSl core n fun c => { c with wait := none } with
       cur := some (.sluice core n) })) ∧
  (∀ (s : State) (i : Instr), s.action = .event i → i.isEvent = true →
    (s.mgmt.booted = true ∨ throughBar i = false → step s = exec i { s.turn with cur := none }) ∧
    (s.mgmt.booted = false → throughBar i = true → step s = .next { s.turn with reply := .unsupported }))

/-- Before a word runs, its slot must be ready, else the turn passes; its fetch must succeed, and it must decode, else it faults
with the cause of the fetch at the PC, with ILLEGAL or with PAIR_RULE; one that touches an outstanding destination of the other slot
waits; one that names a tile at or above the grant raises ILLEGAL; one that touches a destination in a window of its own slot raises
LOOKAHEAD; one that ends a speculative window waits for the window; one that writes device memory is rejected where an ingress buffer
has no room or aged requests come first; and a word of a page that no TLB translates begins a walk, or is rejected where the 64
walkers are busy or aged requests come first (04 R80, R85, 02 R51, 08 R153, R165, 01 R25). -/
def Obligations.IssueChecks : Prop :=
  ∀ (s : State) (team grp : Nat) (b : Bool) (w : Site), s.action = .issue (.grp team grp b) →
    s.turn.siteAt team grp b = some w →
    (let page := w.pc.toNat / 4096
    (w.ready = false ∨ w.unstopped s.turn = false → step s = .next s.turn) ∧
    (w.ready = true → w.unstopped s.turn = true → w.g.st.owedNan = none →
      (s.turn.needWalk w.core w.ctx page = true →
        (let l := s.turn.walksOf w.core
         let aged := s.turn.agedIn w.core = true ∨ s.turn.agedFirst (walkersOf w.core) = true
         let here := fun (x : Walk) => x.core = w.core ∧ x.ctx = w.ctx ∧ x.page = page
         ((∃ x ∈ l, here x) → step s = .next s.turn) ∧
         ((∀ x ∈ l, ¬ here x) → l.length < 64 → w.granted = true ∨ ¬ aged → ∃ t, step s = .next t ∧
           t = { s.turn with m := t.m } ∧
           t.walksOf w.core = l ++ [s.turn.walkFor w.core w.ctx page (.issue (.grp team grp b))]) ∧
         ((∀ x ∈ l, ¬ here x) → 64 ≤ l.length ∨ aged → w.g.wait b = none →
           ∃ t, step s = .next t ∧
             OnlyGroup s.turn t team grp w.tm (w.g.setWait b (some (.rejected s.turn.clk false)))))) ∧
      (s.turn.needWalk w.core w.ctx page = false →
        (∀ c, s.turn.fetch w.core w.ctx w.pc = .error c → w.blocked = false →
          ∃ t, step s = .next t ∧ Faulted w s.turn t c w.pc) ∧
        (∀ word, s.turn.fetch w.core w.ctx w.pc = .ok word → w.ps.repc = 0 →
          (∀ e, decodeCore word = .error e → e ≠ .pairRule → w.blocked = false →
            ∃ t, step s = .next t ∧ Faulted w s.turn t .illegal 0) ∧
          (∀ i, decodeCore word = .error .pairRule → pairCand word = some i → i.allocOk w.tm.shape.vregs = true →
            w.blocked = false → ∃ t, step s = .next t ∧ Faulted w s.turn t .pairRule 0) ∧
          (∀ i, decodeCore word = .ok i → i.allocOk w.tm.shape.vregs = false → w.blocked = false →
            ∃ t, step s = .next t ∧ Faulted w s.turn t .illegal 0) ∧
          (∀ i, decodeCore word = .ok i → i.allocOk w.tm.shape.vregs = true →
            (w.crossWait i = true → step s = .next s.turn) ∧
            (w.crossWait i = false → w.tileBad i = true → w.blocked = false → ∃ t, step s = .next t ∧ Faulted w s.turn t .illegal 0) ∧
            (w.crossWait i = false → w.tileBad i = false → w.lookahead i = true → w.blocked = false →
              ∃ t, step s = .next t ∧ Faulted w s.turn t .lookahead 0) ∧
            (∀ win, w.crossWait i = false → w.tileBad i = false → w.lookahead i = false → w.g.spec = some win →
              w.endsWindow i = true → ∃ t, step s = .next t ∧
                OnlyGroup s.turn t team grp w.tm { w.g with spec := some { win with waits := true } }) ∧
            (w.crossWait i = false → w.tileBad i = false → w.lookahead i = false → w.g.spec = none →
              (∀ p ∈ w.pages i, s.turn.needWalk w.core w.ctx p = false) → Instr.writesDevice i = true →
              s.turn.ingressFull .core = true ∨ s.turn.agedAny = true ∨ s.turn.agedFirst Path.core.code = true →
              w.g.wait b = none → ∃ t, step s = .next t ∧
                OnlyGroup s.turn t team grp w.tm (w.g.setWait b (some (.rejected s.turn.clk false)))))))))

/-! ### Memory -/

/-- Reset leaves memory in its canonical form: nothing is listed. -/
def Obligations.MemoryResetCanonical : Prop := MemoryCanonical State.reset

/-- Every step of the machine keeps memory in its canonical form: addresses rise strictly, and no listed byte is the one that an
unlisted address reads as. -/
def Obligations.MemoryCanonicalKept : Prop :=
  ∀ s t : State, MemoryCanonical s → step s = .next t → MemoryCanonical t
end

