-- ==== Sys2Proof/Laws/Map.lean ====
section
/-! SUPPORT. The laws of sparse tables: a read after a write, what a write leaves alone, and the canonical form. -/

namespace Sys2Proof

variable {α : Type}

/-! ### Reading after writing -/

@[simp] theorem SMap.find?_nil (k : Nat) : SMap.find? k ([] : SMap α) = none := rfl

@[simp] theorem SMap.find?_put_self (k : Nat) (x : α) (m : SMap α) : (m.put k x).find? k = some x := by
  induction m with
  | nil => simp [SMap.put, SMap.find?]
  | cons e t ih =>
    obtain ⟨k', y⟩ := e
    by_cases h1 : k = k'
    · simp [SMap.put, SMap.find?, h1]
    · by_cases h2 : k < k'
      · simp [SMap.put, SMap.find?, h1, h2]
      · simp [SMap.put, SMap.find?, h1, h2, ih]

theorem SMap.find?_put_ne {k j : Nat} (h : j ≠ k) (x : α) (m : SMap α) : (m.put k x).find? j = m.find? j := by
  induction m with
  | nil => simp [SMap.put, SMap.find?, h]
  | cons e t ih =>
    obtain ⟨k', y⟩ := e
    by_cases h1 : k = k'
    · subst h1; simp [SMap.put, SMap.find?, h]
    · by_cases h2 : k < k'
      · simp [SMap.put, SMap.find?, h1, h2, h]
      · simp [SMap.put, SMap.find?, h1, h2, ih]

/-- A read of a table after a put. -/
theorem SMap.find?_put (k j : Nat) (x : α) (m : SMap α) :
    (m.put k x).find? j = if j = k then some x else m.find? j := by
  split
  · next h => subst h; simp
  · next h => exact SMap.find?_put_ne h x m

/-- A read of a table after a removal. -/
theorem SMap.find?_erase (k j : Nat) (m : SMap α) :
    (m.erase k).find? j = if j = k then none else m.find? j := by
  unfold SMap.erase
  induction m with
  | nil => simp
  | cons e t ih =>
    obtain ⟨k', y⟩ := e
    by_cases h1 : k' = k
    · subst h1
      by_cases h2 : j = k'
      · subst h2; simpa using ih
      · simp [SMap.find?, h2, ih]
    · by_cases h2 : j = k'
      · subst h2; simp [SMap.find?, h1]
      · simp [SMap.find?, h1, h2, ih]

/-- A read of a table after a write with a default. -/
theorem SMap.getD_set [DecidableEq α] (m : SMap α) (d : α) (k j : Nat) (x : α) :
    (m.set d k x).getD j d = if j = k then x else m.getD j d := by
  unfold SMap.set SMap.getD
  by_cases h1 : x = d
  · subst h1; simp only [if_true, SMap.find?_erase]; split <;> simp
  · simp only [h1, if_false, SMap.find?_put]; split <;> simp

@[simp] theorem SMap.getD_set_self [DecidableEq α] (m : SMap α) (d : α) (k : Nat) (x : α) : (m.set d k x).getD k d = x := by
  simp [SMap.getD_set]

theorem SMap.getD_put (m : SMap α) (d : α) (k j : Nat) (x : α) :
    (m.put k x).getD j d = if j = k then x else m.getD j d := by
  unfold SMap.getD; rw [SMap.find?_put]; split <;> simp

/-- A read of a table after the change of a listed entry. -/
theorem SMap.find?_upd (m : SMap α) (k j : Nat) (f : α → α) :
    (m.upd k f).find? j = if j = k then (m.find? k).map f else m.find? j := by
  unfold SMap.upd
  cases h : m.find? k with
  | none => by_cases h1 : j = k <;> simp [h1, h]
  | some x => simp [SMap.find?_put]

theorem SMap.find?_mapVals (f : Nat → α → α) (m : SMap α) (k : Nat) :
    (SMap.mapVals f m).find? k = (m.find? k).map (f k) := by
  induction m with
  | nil => simp [SMap.mapVals]
  | cons e t ih =>
    obtain ⟨k', y⟩ := e
    unfold SMap.mapVals at ih ⊢
    by_cases h : k = k'
    · subst h; simp [SMap.find?]
    · simp [SMap.find?, h, ih]

/-! ### The canonical form -/

variable [DecidableEq α]

theorem SMap.wfFrom_mono {d : α} {lo lo' : Nat} (h : lo' ≤ lo) {m : SMap α} (hm : SMap.wfFrom d lo m = true) :
    SMap.wfFrom d lo' m = true := by
  cases m with
  | nil => rfl
  | cons e t =>
    obtain ⟨k, x⟩ := e
    simp only [SMap.wfFrom, Bool.and_eq_true, decide_eq_true_eq] at hm ⊢
    exact ⟨⟨by omega, hm.1.2⟩, hm.2⟩

/-- Any part of a canonical table, in its order, is canonical. -/
theorem SMap.wfFrom_filter {d : α} (p : Nat × α → Bool) : ∀ {lo : Nat} {m : SMap α}, SMap.wfFrom d lo m = true →
    SMap.wfFrom d lo (m.filter p) = true
  | _, [], _ => rfl
  | lo, (k, x) :: t, h => by
    simp only [SMap.wfFrom, Bool.and_eq_true, decide_eq_true_eq] at h
    have ih := SMap.wfFrom_filter p h.2
    by_cases hp : p (k, x) = true
    · simp only [List.filter, hp, SMap.wfFrom, Bool.and_eq_true, decide_eq_true_eq]; exact ⟨h.1, ih⟩
    · simp only [List.filter, hp]; exact SMap.wfFrom_mono (by omega) ih

theorem SMap.wfFrom_put {d : α} {k : Nat} {x : α} (hx : x ≠ d) : ∀ {lo : Nat} {m : SMap α}, lo ≤ k →
    SMap.wfFrom d lo m = true → SMap.wfFrom d lo (m.put k x) = true
  | lo, [], hk, _ => by simp [SMap.put, SMap.wfFrom, hk, hx]
  | lo, (k', y) :: t, hk, h => by
    simp only [SMap.wfFrom, Bool.and_eq_true, decide_eq_true_eq, bne_iff_ne] at h
    by_cases h1 : k = k'
    · subst h1
      simp only [SMap.put, if_true, SMap.wfFrom, Bool.and_eq_true, decide_eq_true_eq, bne_iff_ne]
      exact ⟨⟨hk, hx⟩, h.2⟩
    · by_cases h2 : k < k'
      · simp only [SMap.put, h1, h2, if_true, if_false, SMap.wfFrom, Bool.and_eq_true, decide_eq_true_eq, bne_iff_ne]
        exact ⟨⟨hk, hx⟩, ⟨by omega, h.1.2⟩, h.2⟩
      · simp only [SMap.put, h1, h2, if_false, SMap.wfFrom, Bool.and_eq_true, decide_eq_true_eq, bne_iff_ne]
        exact ⟨h.1, SMap.wfFrom_put hx (by omega) h.2⟩

/-- A write keeps a table canonical. -/
theorem SMap.wf_set {d : α} {k : Nat} {x : α} {m : SMap α} (h : m.wf d = true) : (m.set d k x).wf d = true := by
  unfold SMap.wf SMap.set at *
  split
  · exact SMap.wfFrom_filter _ h
  · next hx => exact SMap.wfFrom_put hx (Nat.zero_le _) h

theorem SMap.wf_filter {d : α} (p : Nat × α → Bool) {m : SMap α} (h : m.wf d = true) : SMap.wf (m.filter p) d = true :=
  SMap.wfFrom_filter p h

theorem SMap.find?_none_of_lt {d : α} : ∀ {lo k : Nat} {m : SMap α}, SMap.wfFrom d lo m = true → k < lo → m.find? k = none
  | _, _, [], _, _ => rfl
  | lo, k, (k', y) :: t, h, hk => by
    simp only [SMap.wfFrom, Bool.and_eq_true, decide_eq_true_eq] at h
    have : k ≠ k' := by omega
    simp only [SMap.find?, this, if_false]
    exact SMap.find?_none_of_lt h.2 (by omega)

theorem SMap.ext_from {d : α} : ∀ {lo : Nat} {m n : SMap α}, SMap.wfFrom d lo m = true → SMap.wfFrom d lo n = true →
    (∀ k, m.getD k d = n.getD k d) → m = n
  | _, [], [], _, _, _ => rfl
  | lo, [], (k, y) :: t, _, hn, h => by
    simp only [SMap.wfFrom, Bool.and_eq_true, decide_eq_true_eq, bne_iff_ne] at hn
    have := h k
    simp only [SMap.getD, SMap.find?, if_true, Option.getD_none, Option.getD_some] at this
    exact absurd this.symm hn.1.2
  | lo, (k, x) :: t, [], hm, _, h => by
    simp only [SMap.wfFrom, Bool.and_eq_true, decide_eq_true_eq, bne_iff_ne] at hm
    have := h k
    simp only [SMap.getD, SMap.find?, if_true, Option.getD_none, Option.getD_some] at this
    exact absurd this hm.1.2
  | lo, (k, x) :: t, (j, y) :: u, hm, hn, h => by
    simp only [SMap.wfFrom, Bool.and_eq_true, decide_eq_true_eq, bne_iff_ne] at hm hn
    have hkj : k = j := by
      rcases Nat.lt_trichotomy k j with hl | he | hg
      · have := h k
        rw [SMap.getD, SMap.getD, SMap.find?, if_pos rfl, SMap.find?, if_neg (by omega),
          SMap.find?_none_of_lt hn.2 (by omega)] at this
        exact absurd this hm.1.2
      · exact he
      · have := h j
        rw [SMap.getD, SMap.getD, SMap.find?, if_neg (by omega), SMap.find?_none_of_lt hm.2 (by omega), SMap.find?,
          if_pos rfl] at this
        exact absurd this.symm hn.1.2
    subst hkj
    have hxy : x = y := by
      have := h k
      simpa [SMap.getD, SMap.find?] using this
    subst hxy
    have : t = u := SMap.ext_from hm.2 hn.2 fun i => by
      by_cases hi : i < k + 1
      · rw [SMap.getD, SMap.getD, SMap.find?_none_of_lt hm.2 hi, SMap.find?_none_of_lt hn.2 hi]
      · have := h i
        rwa [SMap.getD, SMap.getD, SMap.find?, if_neg (by omega), SMap.find?, if_neg (by omega)] at this
    rw [this]

/-- Canonical tables that read alike are equal. -/
theorem SMap.ext {d : α} {m n : SMap α} (hm : m.wf d = true) (hn : n.wf d = true) (h : ∀ k, m.getD k d = n.getD k d) :
    m = n := SMap.ext_from hm hn h

/-- A fold of writes keeps a table canonical. -/
theorem SMap.wf_foldl {β : Type} {d : α} (f : SMap α → β → SMap α) (hf : ∀ m b, m.wf d = true → (f m b).wf d = true) :
    ∀ (l : List β) {m : SMap α}, m.wf d = true → (l.foldl f m).wf d = true
  | [], _, h => h
  | b :: t, _, h => SMap.wf_foldl f hf t (hf _ b h)

/-! ### Lists -/

theorem listUpd_getElem? {β : Type} (f : β → β) : ∀ (i : Nat) (l : List β) (j : Nat),
    (listUpd f i l)[j]? = if j = i then (l[j]?).map f else l[j]?
  | _, [], j => by simp [listUpd]
  | 0, x :: t, 0 => by simp [listUpd]
  | 0, x :: t, j + 1 => by simp [listUpd]
  | i + 1, x :: t, 0 => by simp [listUpd]
  | i + 1, x :: t, j + 1 => by simpa [listUpd] using listUpd_getElem? f i t j

@[simp] theorem listUpd_length {β : Type} (f : β → β) : ∀ (i : Nat) (l : List β), (listUpd f i l).length = l.length
  | _, [] => by simp [listUpd]
  | 0, x :: t => by simp [listUpd]
  | i + 1, x :: t => by simp [listUpd, listUpd_length f i t]

@[simp] theorem natToBytes_length : ∀ (n x : Nat), (natToBytes n x).length = n
  | 0, _ => rfl
  | n + 1, x => by simp [natToBytes, natToBytes_length n]

/-- The bytes of a number spell its low bytes (00 R4). -/
theorem bytesToNat_natToBytes : ∀ (n x : Nat), bytesToNat (natToBytes n x) = x % 256 ^ n
  | 0, x => by simp [natToBytes, bytesToNat, Nat.mod_one]
  | n + 1, x => by
    simp only [natToBytes, bytesToNat, bytesToNat_natToBytes n, BitVec.toNat_ofNat]
    rw [show 256 ^ (n + 1) = 256 * 256 ^ n by rw [Nat.pow_succ, Nat.mul_comm], Nat.mod_mul]

@[simp] theorem readBytes_length (get : Nat → Byte) (lo n : Nat) : (readBytes get lo n).length = n := by simp [readBytes]

theorem maskOf_foldl (f : Nat → Bool) (i : Nat) (hi : i < 32) : ∀ (l : List Nat) (m : W32),
    (l.foldl (fun m L => if f L then m ||| laneBit L else m) m).getLsbD i = (m.getLsbD i || (l.contains i && f i))
  | [], m => by simp
  | L :: t, m => by
    rw [List.foldl_cons, maskOf_foldl f i hi t]
    by_cases hL : L = i
    · subst hL
      by_cases hf : f L = true
      · simp [hf, laneBit, hi]
      · simp [hf]
    · by_cases hf : f L = true
      · have : (laneBit L).getLsbD i = false := by
          simp only [laneBit, BitVec.getLsbD_shiftLeft, BitVec.getLsbD_one]
          by_cases h : i < L
          · simp [h]
          · have : i - L ≠ 0 := by omega
            simp [this]
        simp [hf, this, Ne.symm hL]
      · simp [hf, Ne.symm hL]

/-- The mask of a test reads the test, lane by lane. -/
theorem maskOf_getLsbD (f : Nat → Bool) {i : Nat} (hi : i < 32) : (maskOf f).getLsbD i = f i := by
  rw [maskOf, maskOf_foldl f i hi]
  simp [allLanes, hi]

theorem mem_lanesOf {m : W32} {L : Nat} : L ∈ lanesOf m ↔ L < 32 ∧ m.getLsbD L = true := by
  simp [lanesOf, allLanes]

end Sys2Proof
end

