-- ==== Sys2Proof/Laws/State.lean ====
section
/-! SUPPORT. The fields of the state after each named update: one lemma per field. -/

namespace Sys2Proof.Machine

/-! ### updCore -/

@[simp] theorem State.updCore_clk (s : State) (c : Nat) (f : Core → Core) : (s.updCore c f).clk = s.clk := rfl
@[simp] theorem State.updCore_time (s : State) (c : Nat) (f : Core → Core) : (s.updCore c f).time = s.time := rfl
@[simp] theorem State.updCore_sub (s : State) (c : Nat) (f : Core → Core) : (s.updCore c f).sub = s.sub := rfl
@[simp] theorem State.updCore_tick (s : State) (c : Nat) (f : Core → Core) : (s.updCore c f).tick = s.tick := rfl
@[simp] theorem State.updCore_agenda (s : State) (c : Nat) (f : Core → Core) : (s.updCore c f).agenda = s.agenda := rfl
@[simp] theorem State.updCore_cur (s : State) (c : Nat) (f : Core → Core) : (s.updCore c f).cur = s.cur := rfl
@[simp] theorem State.updCore_serial (s : State) (c : Nat) (f : Core → Core) : (s.updCore c f).serial = s.serial := rfl
@[simp] theorem State.updCore_m (s : State) (c : Nat) (f : Core → Core) : (s.updCore c f).m = s.m := rfl
@[simp] theorem State.updCore_turned (s : State) (c : Nat) (f : Core → Core) : (s.updCore c f).turned = s.turned := rfl
@[simp] theorem State.updCore_retry (s : State) (c : Nat) (f : Core → Core) : (s.updCore c f).retry = s.retry := rfl
@[simp] theorem State.updCore_basins (s : State) (c : Nat) (f : Core → Core) : (s.updCore c f).basins = s.basins := rfl
@[simp] theorem State.updCore_teams (s : State) (c : Nat) (f : Core → Core) : (s.updCore c f).teams = s.teams := rfl
@[simp] theorem State.updCore_cores (s : State) (c : Nat) (f : Core → Core) :
    (s.updCore c f).cores = s.cores.put c (f (s.core c)) := rfl
@[simp] theorem State.updCore_nests (s : State) (c : Nat) (f : Core → Core) : (s.updCore c f).nests = s.nests := rfl
@[simp] theorem State.updCore_walker (s : State) (c : Nat) (f : Core → Core) : (s.updCore c f).walker = s.walker := rfl
@[simp] theorem State.updCore_ready (s : State) (c : Nat) (f : Core → Core) : (s.updCore c f).ready = s.ready := rfl
@[simp] theorem State.updCore_reservations (s : State) (c : Nat) (f : Core → Core) : (s.updCore c f).reservations = s.reservations := rfl
@[simp] theorem State.updCore_gangs (s : State) (c : Nat) (f : Core → Core) : (s.updCore c f).gangs = s.gangs := rfl
@[simp] theorem State.updCore_engines (s : State) (c : Nat) (f : Core → Core) : (s.updCore c f).engines = s.engines := rfl
@[simp] theorem State.updCore_comms (s : State) (c : Nat) (f : Core → Core) : (s.updCore c f).comms = s.comms := rfl
@[simp] theorem State.updCore_ctxs (s : State) (c : Nat) (f : Core → Core) : (s.updCore c f).ctxs = s.ctxs := rfl
@[simp] theorem State.updCore_cmd (s : State) (c : Nat) (f : Core → Core) : (s.updCore c f).cmd = s.cmd := rfl
@[simp] theorem State.updCore_vds (s : State) (c : Nat) (f : Core → Core) : (s.updCore c f).vds = s.vds := rfl
@[simp] theorem State.updCore_ports (s : State) (c : Nat) (f : Core → Core) : (s.updCore c f).ports = s.ports := rfl
@[simp] theorem State.updCore_keys (s : State) (c : Nat) (f : Core → Core) : (s.updCore c f).keys = s.keys := rfl
@[simp] theorem State.updCore_sd (s : State) (c : Nat) (f : Core → Core) : (s.updCore c f).sd = s.sd := rfl
@[simp] theorem State.updCore_quotas (s : State) (c : Nat) (f : Core → Core) : (s.updCore c f).quotas = s.quotas := rfl
@[simp] theorem State.updCore_parts (s : State) (c : Nat) (f : Core → Core) : (s.updCore c f).parts = s.parts := rfl
@[simp] theorem State.updCore_queues (s : State) (c : Nat) (f : Core → Core) : (s.updCore c f).queues = s.queues := rfl
@[simp] theorem State.updCore_mgmt (s : State) (c : Nat) (f : Core → Core) : (s.updCore c f).mgmt = s.mgmt := rfl
@[simp] theorem State.updCore_reply (s : State) (c : Nat) (f : Core → Core) : (s.updCore c f).reply = s.reply := rfl

/-! ### updBasin -/

@[simp] theorem State.updBasin_clk (s : State) (b : Nat) (f : BasinState → BasinState) : (s.updBasin b f).clk = s.clk := rfl
@[simp] theorem State.updBasin_time (s : State) (b : Nat) (f : BasinState → BasinState) : (s.updBasin b f).time = s.time := rfl
@[simp] theorem State.updBasin_sub (s : State) (b : Nat) (f : BasinState → BasinState) : (s.updBasin b f).sub = s.sub := rfl
@[simp] theorem State.updBasin_tick (s : State) (b : Nat) (f : BasinState → BasinState) : (s.updBasin b f).tick = s.tick := rfl
@[simp] theorem State.updBasin_agenda (s : State) (b : Nat) (f : BasinState → BasinState) : (s.updBasin b f).agenda = s.agenda := rfl
@[simp] theorem State.updBasin_cur (s : State) (b : Nat) (f : BasinState → BasinState) : (s.updBasin b f).cur = s.cur := rfl
@[simp] theorem State.updBasin_serial (s : State) (b : Nat) (f : BasinState → BasinState) : (s.updBasin b f).serial = s.serial := rfl
@[simp] theorem State.updBasin_m (s : State) (b : Nat) (f : BasinState → BasinState) : (s.updBasin b f).m = s.m := rfl
@[simp] theorem State.updBasin_turned (s : State) (b : Nat) (f : BasinState → BasinState) : (s.updBasin b f).turned = s.turned := rfl
@[simp] theorem State.updBasin_retry (s : State) (b : Nat) (f : BasinState → BasinState) : (s.updBasin b f).retry = s.retry := rfl
@[simp] theorem State.updBasin_basins (s : State) (b : Nat) (f : BasinState → BasinState) :
    (s.updBasin b f).basins = s.basins.put b (f (s.basin b)) := rfl
@[simp] theorem State.updBasin_teams (s : State) (b : Nat) (f : BasinState → BasinState) : (s.updBasin b f).teams = s.teams := rfl
@[simp] theorem State.updBasin_cores (s : State) (b : Nat) (f : BasinState → BasinState) : (s.updBasin b f).cores = s.cores := rfl
@[simp] theorem State.updBasin_nests (s : State) (b : Nat) (f : BasinState → BasinState) : (s.updBasin b f).nests = s.nests := rfl
@[simp] theorem State.updBasin_walker (s : State) (b : Nat) (f : BasinState → BasinState) : (s.updBasin b f).walker = s.walker := rfl
@[simp] theorem State.updBasin_ready (s : State) (b : Nat) (f : BasinState → BasinState) : (s.updBasin b f).ready = s.ready := rfl
@[simp] theorem State.updBasin_reservations (s : State) (b : Nat) (f : BasinState → BasinState) : (s.updBasin b f).reservations = s.reservations := rfl
@[simp] theorem State.updBasin_gangs (s : State) (b : Nat) (f : BasinState → BasinState) : (s.updBasin b f).gangs = s.gangs := rfl
@[simp] theorem State.updBasin_engines (s : State) (b : Nat) (f : BasinState → BasinState) : (s.updBasin b f).engines = s.engines := rfl
@[simp] theorem State.updBasin_comms (s : State) (b : Nat) (f : BasinState → BasinState) : (s.updBasin b f).comms = s.comms := rfl
@[simp] theorem State.updBasin_ctxs (s : State) (b : Nat) (f : BasinState → BasinState) : (s.updBasin b f).ctxs = s.ctxs := rfl
@[simp] theorem State.updBasin_cmd (s : State) (b : Nat) (f : BasinState → BasinState) : (s.updBasin b f).cmd = s.cmd := rfl
@[simp] theorem State.updBasin_vds (s : State) (b : Nat) (f : BasinState → BasinState) : (s.updBasin b f).vds = s.vds := rfl
@[simp] theorem State.updBasin_ports (s : State) (b : Nat) (f : BasinState → BasinState) : (s.updBasin b f).ports = s.ports := rfl
@[simp] theorem State.updBasin_keys (s : State) (b : Nat) (f : BasinState → BasinState) : (s.updBasin b f).keys = s.keys := rfl
@[simp] theorem State.updBasin_sd (s : State) (b : Nat) (f : BasinState → BasinState) : (s.updBasin b f).sd = s.sd := rfl
@[simp] theorem State.updBasin_quotas (s : State) (b : Nat) (f : BasinState → BasinState) : (s.updBasin b f).quotas = s.quotas := rfl
@[simp] theorem State.updBasin_parts (s : State) (b : Nat) (f : BasinState → BasinState) : (s.updBasin b f).parts = s.parts := rfl
@[simp] theorem State.updBasin_queues (s : State) (b : Nat) (f : BasinState → BasinState) : (s.updBasin b f).queues = s.queues := rfl
@[simp] theorem State.updBasin_mgmt (s : State) (b : Nat) (f : BasinState → BasinState) : (s.updBasin b f).mgmt = s.mgmt := rfl
@[simp] theorem State.updBasin_reply (s : State) (b : Nat) (f : BasinState → BasinState) : (s.updBasin b f).reply = s.reply := rfl

/-! ### updCtx -/

@[simp] theorem State.updCtx_clk (s : State) (c : Nat) (f : Ctx → Ctx) : (s.updCtx c f).clk = s.clk := rfl
@[simp] theorem State.updCtx_time (s : State) (c : Nat) (f : Ctx → Ctx) : (s.updCtx c f).time = s.time := rfl
@[simp] theorem State.updCtx_sub (s : State) (c : Nat) (f : Ctx → Ctx) : (s.updCtx c f).sub = s.sub := rfl
@[simp] theorem State.updCtx_tick (s : State) (c : Nat) (f : Ctx → Ctx) : (s.updCtx c f).tick = s.tick := rfl
@[simp] theorem State.updCtx_agenda (s : State) (c : Nat) (f : Ctx → Ctx) : (s.updCtx c f).agenda = s.agenda := rfl
@[simp] theorem State.updCtx_cur (s : State) (c : Nat) (f : Ctx → Ctx) : (s.updCtx c f).cur = s.cur := rfl
@[simp] theorem State.updCtx_serial (s : State) (c : Nat) (f : Ctx → Ctx) : (s.updCtx c f).serial = s.serial := rfl
@[simp] theorem State.updCtx_m (s : State) (c : Nat) (f : Ctx → Ctx) : (s.updCtx c f).m = s.m := rfl
@[simp] theorem State.updCtx_turned (s : State) (c : Nat) (f : Ctx → Ctx) : (s.updCtx c f).turned = s.turned := rfl
@[simp] theorem State.updCtx_retry (s : State) (c : Nat) (f : Ctx → Ctx) : (s.updCtx c f).retry = s.retry := rfl
@[simp] theorem State.updCtx_basins (s : State) (c : Nat) (f : Ctx → Ctx) : (s.updCtx c f).basins = s.basins := rfl
@[simp] theorem State.updCtx_teams (s : State) (c : Nat) (f : Ctx → Ctx) : (s.updCtx c f).teams = s.teams := rfl
@[simp] theorem State.updCtx_cores (s : State) (c : Nat) (f : Ctx → Ctx) : (s.updCtx c f).cores = s.cores := rfl
@[simp] theorem State.updCtx_nests (s : State) (c : Nat) (f : Ctx → Ctx) : (s.updCtx c f).nests = s.nests := rfl
@[simp] theorem State.updCtx_walker (s : State) (c : Nat) (f : Ctx → Ctx) : (s.updCtx c f).walker = s.walker := rfl
@[simp] theorem State.updCtx_ready (s : State) (c : Nat) (f : Ctx → Ctx) : (s.updCtx c f).ready = s.ready := rfl
@[simp] theorem State.updCtx_reservations (s : State) (c : Nat) (f : Ctx → Ctx) : (s.updCtx c f).reservations = s.reservations := rfl
@[simp] theorem State.updCtx_gangs (s : State) (c : Nat) (f : Ctx → Ctx) : (s.updCtx c f).gangs = s.gangs := rfl
@[simp] theorem State.updCtx_engines (s : State) (c : Nat) (f : Ctx → Ctx) : (s.updCtx c f).engines = s.engines := rfl
@[simp] theorem State.updCtx_comms (s : State) (c : Nat) (f : Ctx → Ctx) : (s.updCtx c f).comms = s.comms := rfl
@[simp] theorem State.updCtx_ctxs (s : State) (c : Nat) (f : Ctx → Ctx) :
    (s.updCtx c f).ctxs = s.ctxs.put c (f (s.ctx c)) := rfl
@[simp] theorem State.updCtx_cmd (s : State) (c : Nat) (f : Ctx → Ctx) : (s.updCtx c f).cmd = s.cmd := rfl
@[simp] theorem State.updCtx_vds (s : State) (c : Nat) (f : Ctx → Ctx) : (s.updCtx c f).vds = s.vds := rfl
@[simp] theorem State.updCtx_ports (s : State) (c : Nat) (f : Ctx → Ctx) : (s.updCtx c f).ports = s.ports := rfl
@[simp] theorem State.updCtx_keys (s : State) (c : Nat) (f : Ctx → Ctx) : (s.updCtx c f).keys = s.keys := rfl
@[simp] theorem State.updCtx_sd (s : State) (c : Nat) (f : Ctx → Ctx) : (s.updCtx c f).sd = s.sd := rfl
@[simp] theorem State.updCtx_quotas (s : State) (c : Nat) (f : Ctx → Ctx) : (s.updCtx c f).quotas = s.quotas := rfl
@[simp] theorem State.updCtx_parts (s : State) (c : Nat) (f : Ctx → Ctx) : (s.updCtx c f).parts = s.parts := rfl
@[simp] theorem State.updCtx_queues (s : State) (c : Nat) (f : Ctx → Ctx) : (s.updCtx c f).queues = s.queues := rfl
@[simp] theorem State.updCtx_mgmt (s : State) (c : Nat) (f : Ctx → Ctx) : (s.updCtx c f).mgmt = s.mgmt := rfl
@[simp] theorem State.updCtx_reply (s : State) (c : Nat) (f : Ctx → Ctx) : (s.updCtx c f).reply = s.reply := rfl

/-! ### updVd -/

@[simp] theorem State.updVd_clk (s : State) (v : Nat) (f : VirtDev → VirtDev) : (s.updVd v f).clk = s.clk := rfl
@[simp] theorem State.updVd_time (s : State) (v : Nat) (f : VirtDev → VirtDev) : (s.updVd v f).time = s.time := rfl
@[simp] theorem State.updVd_sub (s : State) (v : Nat) (f : VirtDev → VirtDev) : (s.updVd v f).sub = s.sub := rfl
@[simp] theorem State.updVd_tick (s : State) (v : Nat) (f : VirtDev → VirtDev) : (s.updVd v f).tick = s.tick := rfl
@[simp] theorem State.updVd_agenda (s : State) (v : Nat) (f : VirtDev → VirtDev) : (s.updVd v f).agenda = s.agenda := rfl
@[simp] theorem State.updVd_cur (s : State) (v : Nat) (f : VirtDev → VirtDev) : (s.updVd v f).cur = s.cur := rfl
@[simp] theorem State.updVd_serial (s : State) (v : Nat) (f : VirtDev → VirtDev) : (s.updVd v f).serial = s.serial := rfl
@[simp] theorem State.updVd_m (s : State) (v : Nat) (f : VirtDev → VirtDev) : (s.updVd v f).m = s.m := rfl
@[simp] theorem State.updVd_turned (s : State) (v : Nat) (f : VirtDev → VirtDev) : (s.updVd v f).turned = s.turned := rfl
@[simp] theorem State.updVd_retry (s : State) (v : Nat) (f : VirtDev → VirtDev) : (s.updVd v f).retry = s.retry := rfl
@[simp] theorem State.updVd_basins (s : State) (v : Nat) (f : VirtDev → VirtDev) : (s.updVd v f).basins = s.basins := rfl
@[simp] theorem State.updVd_teams (s : State) (v : Nat) (f : VirtDev → VirtDev) : (s.updVd v f).teams = s.teams := rfl
@[simp] theorem State.updVd_cores (s : State) (v : Nat) (f : VirtDev → VirtDev) : (s.updVd v f).cores = s.cores := rfl
@[simp] theorem State.updVd_nests (s : State) (v : Nat) (f : VirtDev → VirtDev) : (s.updVd v f).nests = s.nests := rfl
@[simp] theorem State.updVd_walker (s : State) (v : Nat) (f : VirtDev → VirtDev) : (s.updVd v f).walker = s.walker := rfl
@[simp] theorem State.updVd_ready (s : State) (v : Nat) (f : VirtDev → VirtDev) : (s.updVd v f).ready = s.ready := rfl
@[simp] theorem State.updVd_reservations (s : State) (v : Nat) (f : VirtDev → VirtDev) : (s.updVd v f).reservations = s.reservations := rfl
@[simp] theorem State.updVd_gangs (s : State) (v : Nat) (f : VirtDev → VirtDev) : (s.updVd v f).gangs = s.gangs := rfl
@[simp] theorem State.updVd_engines (s : State) (v : Nat) (f : VirtDev → VirtDev) : (s.updVd v f).engines = s.engines := rfl
@[simp] theorem State.updVd_comms (s : State) (v : Nat) (f : VirtDev → VirtDev) : (s.updVd v f).comms = s.comms := rfl
@[simp] theorem State.updVd_ctxs (s : State) (v : Nat) (f : VirtDev → VirtDev) : (s.updVd v f).ctxs = s.ctxs := rfl
@[simp] theorem State.updVd_cmd (s : State) (v : Nat) (f : VirtDev → VirtDev) : (s.updVd v f).cmd = s.cmd := rfl
@[simp] theorem State.updVd_vds (s : State) (v : Nat) (f : VirtDev → VirtDev) :
    (s.updVd v f).vds = s.vds.put v (f (s.vd v)) := rfl
@[simp] theorem State.updVd_ports (s : State) (v : Nat) (f : VirtDev → VirtDev) : (s.updVd v f).ports = s.ports := rfl
@[simp] theorem State.updVd_keys (s : State) (v : Nat) (f : VirtDev → VirtDev) : (s.updVd v f).keys = s.keys := rfl
@[simp] theorem State.updVd_sd (s : State) (v : Nat) (f : VirtDev → VirtDev) : (s.updVd v f).sd = s.sd := rfl
@[simp] theorem State.updVd_quotas (s : State) (v : Nat) (f : VirtDev → VirtDev) : (s.updVd v f).quotas = s.quotas := rfl
@[simp] theorem State.updVd_parts (s : State) (v : Nat) (f : VirtDev → VirtDev) : (s.updVd v f).parts = s.parts := rfl
@[simp] theorem State.updVd_queues (s : State) (v : Nat) (f : VirtDev → VirtDev) : (s.updVd v f).queues = s.queues := rfl
@[simp] theorem State.updVd_mgmt (s : State) (v : Nat) (f : VirtDev → VirtDev) : (s.updVd v f).mgmt = s.mgmt := rfl
@[simp] theorem State.updVd_reply (s : State) (v : Nat) (f : VirtDev → VirtDev) : (s.updVd v f).reply = s.reply := rfl

/-! ### updPart -/

@[simp] theorem State.updPart_clk (s : State) (p : Nat) (f : PartSched → PartSched) : (s.updPart p f).clk = s.clk := rfl
@[simp] theorem State.updPart_time (s : State) (p : Nat) (f : PartSched → PartSched) : (s.updPart p f).time = s.time := rfl
@[simp] theorem State.updPart_sub (s : State) (p : Nat) (f : PartSched → PartSched) : (s.updPart p f).sub = s.sub := rfl
@[simp] theorem State.updPart_tick (s : State) (p : Nat) (f : PartSched → PartSched) : (s.updPart p f).tick = s.tick := rfl
@[simp] theorem State.updPart_agenda (s : State) (p : Nat) (f : PartSched → PartSched) : (s.updPart p f).agenda = s.agenda := rfl
@[simp] theorem State.updPart_cur (s : State) (p : Nat) (f : PartSched → PartSched) : (s.updPart p f).cur = s.cur := rfl
@[simp] theorem State.updPart_serial (s : State) (p : Nat) (f : PartSched → PartSched) : (s.updPart p f).serial = s.serial := rfl
@[simp] theorem State.updPart_m (s : State) (p : Nat) (f : PartSched → PartSched) : (s.updPart p f).m = s.m := rfl
@[simp] theorem State.updPart_turned (s : State) (p : Nat) (f : PartSched → PartSched) : (s.updPart p f).turned = s.turned := rfl
@[simp] theorem State.updPart_retry (s : State) (p : Nat) (f : PartSched → PartSched) : (s.updPart p f).retry = s.retry := rfl
@[simp] theorem State.updPart_basins (s : State) (p : Nat) (f : PartSched → PartSched) : (s.updPart p f).basins = s.basins := rfl
@[simp] theorem State.updPart_teams (s : State) (p : Nat) (f : PartSched → PartSched) : (s.updPart p f).teams = s.teams := rfl
@[simp] theorem State.updPart_cores (s : State) (p : Nat) (f : PartSched → PartSched) : (s.updPart p f).cores = s.cores := rfl
@[simp] theorem State.updPart_nests (s : State) (p : Nat) (f : PartSched → PartSched) : (s.updPart p f).nests = s.nests := rfl
@[simp] theorem State.updPart_walker (s : State) (p : Nat) (f : PartSched → PartSched) : (s.updPart p f).walker = s.walker := rfl
@[simp] theorem State.updPart_ready (s : State) (p : Nat) (f : PartSched → PartSched) : (s.updPart p f).ready = s.ready := rfl
@[simp] theorem State.updPart_reservations (s : State) (p : Nat) (f : PartSched → PartSched) : (s.updPart p f).reservations = s.reservations := rfl
@[simp] theorem State.updPart_gangs (s : State) (p : Nat) (f : PartSched → PartSched) : (s.updPart p f).gangs = s.gangs := rfl
@[simp] theorem State.updPart_engines (s : State) (p : Nat) (f : PartSched → PartSched) : (s.updPart p f).engines = s.engines := rfl
@[simp] theorem State.updPart_comms (s : State) (p : Nat) (f : PartSched → PartSched) : (s.updPart p f).comms = s.comms := rfl
@[simp] theorem State.updPart_ctxs (s : State) (p : Nat) (f : PartSched → PartSched) : (s.updPart p f).ctxs = s.ctxs := rfl
@[simp] theorem State.updPart_cmd (s : State) (p : Nat) (f : PartSched → PartSched) : (s.updPart p f).cmd = s.cmd := rfl
@[simp] theorem State.updPart_vds (s : State) (p : Nat) (f : PartSched → PartSched) : (s.updPart p f).vds = s.vds := rfl
@[simp] theorem State.updPart_ports (s : State) (p : Nat) (f : PartSched → PartSched) : (s.updPart p f).ports = s.ports := rfl
@[simp] theorem State.updPart_keys (s : State) (p : Nat) (f : PartSched → PartSched) : (s.updPart p f).keys = s.keys := rfl
@[simp] theorem State.updPart_sd (s : State) (p : Nat) (f : PartSched → PartSched) : (s.updPart p f).sd = s.sd := rfl
@[simp] theorem State.updPart_quotas (s : State) (p : Nat) (f : PartSched → PartSched) : (s.updPart p f).quotas = s.quotas := rfl
@[simp] theorem State.updPart_parts (s : State) (p : Nat) (f : PartSched → PartSched) :
    (s.updPart p f).parts = s.parts.put p (f (s.part p)) := rfl
@[simp] theorem State.updPart_queues (s : State) (p : Nat) (f : PartSched → PartSched) : (s.updPart p f).queues = s.queues := rfl
@[simp] theorem State.updPart_mgmt (s : State) (p : Nat) (f : PartSched → PartSched) : (s.updPart p f).mgmt = s.mgmt := rfl
@[simp] theorem State.updPart_reply (s : State) (p : Nat) (f : PartSched → PartSched) : (s.updPart p f).reply = s.reply := rfl

/-! ### updQueue -/

@[simp] theorem State.updQueue_clk (s : State) (q : Nat) (f : Queue → Queue) : (s.updQueue q f).clk = s.clk := rfl
@[simp] theorem State.updQueue_time (s : State) (q : Nat) (f : Queue → Queue) : (s.updQueue q f).time = s.time := rfl
@[simp] theorem State.updQueue_sub (s : State) (q : Nat) (f : Queue → Queue) : (s.updQueue q f).sub = s.sub := rfl
@[simp] theorem State.updQueue_tick (s : State) (q : Nat) (f : Queue → Queue) : (s.updQueue q f).tick = s.tick := rfl
@[simp] theorem State.updQueue_agenda (s : State) (q : Nat) (f : Queue → Queue) : (s.updQueue q f).agenda = s.agenda := rfl
@[simp] theorem State.updQueue_cur (s : State) (q : Nat) (f : Queue → Queue) : (s.updQueue q f).cur = s.cur := rfl
@[simp] theorem State.updQueue_serial (s : State) (q : Nat) (f : Queue → Queue) : (s.updQueue q f).serial = s.serial := rfl
@[simp] theorem State.updQueue_m (s : State) (q : Nat) (f : Queue → Queue) : (s.updQueue q f).m = s.m := rfl
@[simp] theorem State.updQueue_turned (s : State) (q : Nat) (f : Queue → Queue) : (s.updQueue q f).turned = s.turned := rfl
@[simp] theorem State.updQueue_retry (s : State) (q : Nat) (f : Queue → Queue) : (s.updQueue q f).retry = s.retry := rfl
@[simp] theorem State.updQueue_basins (s : State) (q : Nat) (f : Queue → Queue) : (s.updQueue q f).basins = s.basins := rfl
@[simp] theorem State.updQueue_teams (s : State) (q : Nat) (f : Queue → Queue) : (s.updQueue q f).teams = s.teams := rfl
@[simp] theorem State.updQueue_cores (s : State) (q : Nat) (f : Queue → Queue) : (s.updQueue q f).cores = s.cores := rfl
@[simp] theorem State.updQueue_nests (s : State) (q : Nat) (f : Queue → Queue) : (s.updQueue q f).nests = s.nests := rfl
@[simp] theorem State.updQueue_walker (s : State) (q : Nat) (f : Queue → Queue) : (s.updQueue q f).walker = s.walker := rfl
@[simp] theorem State.updQueue_ready (s : State) (q : Nat) (f : Queue → Queue) : (s.updQueue q f).ready = s.ready := rfl
@[simp] theorem State.updQueue_reservations (s : State) (q : Nat) (f : Queue → Queue) : (s.updQueue q f).reservations = s.reservations := rfl
@[simp] theorem State.updQueue_gangs (s : State) (q : Nat) (f : Queue → Queue) : (s.updQueue q f).gangs = s.gangs := rfl
@[simp] theorem State.updQueue_engines (s : State) (q : Nat) (f : Queue → Queue) : (s.updQueue q f).engines = s.engines := rfl
@[simp] theorem State.updQueue_comms (s : State) (q : Nat) (f : Queue → Queue) : (s.updQueue q f).comms = s.comms := rfl
@[simp] theorem State.updQueue_ctxs (s : State) (q : Nat) (f : Queue → Queue) : (s.updQueue q f).ctxs = s.ctxs := rfl
@[simp] theorem State.updQueue_cmd (s : State) (q : Nat) (f : Queue → Queue) : (s.updQueue q f).cmd = s.cmd := rfl
@[simp] theorem State.updQueue_vds (s : State) (q : Nat) (f : Queue → Queue) : (s.updQueue q f).vds = s.vds := rfl
@[simp] theorem State.updQueue_ports (s : State) (q : Nat) (f : Queue → Queue) : (s.updQueue q f).ports = s.ports := rfl
@[simp] theorem State.updQueue_keys (s : State) (q : Nat) (f : Queue → Queue) : (s.updQueue q f).keys = s.keys := rfl
@[simp] theorem State.updQueue_sd (s : State) (q : Nat) (f : Queue → Queue) : (s.updQueue q f).sd = s.sd := rfl
@[simp] theorem State.updQueue_quotas (s : State) (q : Nat) (f : Queue → Queue) : (s.updQueue q f).quotas = s.quotas := rfl
@[simp] theorem State.updQueue_parts (s : State) (q : Nat) (f : Queue → Queue) : (s.updQueue q f).parts = s.parts := rfl
@[simp] theorem State.updQueue_queues (s : State) (q : Nat) (f : Queue → Queue) :
    (s.updQueue q f).queues = s.queues.put q (f (s.queue q)) := rfl
@[simp] theorem State.updQueue_mgmt (s : State) (q : Nat) (f : Queue → Queue) : (s.updQueue q f).mgmt = s.mgmt := rfl
@[simp] theorem State.updQueue_reply (s : State) (q : Nat) (f : Queue → Queue) : (s.updQueue q f).reply = s.reply := rfl

/-! ### updNest -/

@[simp] theorem State.updNest_clk (s : State) (n : Nat) (f : Nest → Nest) : (s.updNest n f).clk = s.clk := rfl
@[simp] theorem State.updNest_time (s : State) (n : Nat) (f : Nest → Nest) : (s.updNest n f).time = s.time := rfl
@[simp] theorem State.updNest_sub (s : State) (n : Nat) (f : Nest → Nest) : (s.updNest n f).sub = s.sub := rfl
@[simp] theorem State.updNest_tick (s : State) (n : Nat) (f : Nest → Nest) : (s.updNest n f).tick = s.tick := rfl
@[simp] theorem State.updNest_agenda (s : State) (n : Nat) (f : Nest → Nest) : (s.updNest n f).agenda = s.agenda := rfl
@[simp] theorem State.updNest_cur (s : State) (n : Nat) (f : Nest → Nest) : (s.updNest n f).cur = s.cur := rfl
@[simp] theorem State.updNest_serial (s : State) (n : Nat) (f : Nest → Nest) : (s.updNest n f).serial = s.serial := rfl
@[simp] theorem State.updNest_m (s : State) (n : Nat) (f : Nest → Nest) : (s.updNest n f).m = s.m := rfl
@[simp] theorem State.updNest_turned (s : State) (n : Nat) (f : Nest → Nest) : (s.updNest n f).turned = s.turned := rfl
@[simp] theorem State.updNest_retry (s : State) (n : Nat) (f : Nest → Nest) : (s.updNest n f).retry = s.retry := rfl
@[simp] theorem State.updNest_basins (s : State) (n : Nat) (f : Nest → Nest) : (s.updNest n f).basins = s.basins := rfl
@[simp] theorem State.updNest_teams (s : State) (n : Nat) (f : Nest → Nest) : (s.updNest n f).teams = s.teams := rfl
@[simp] theorem State.updNest_cores (s : State) (n : Nat) (f : Nest → Nest) : (s.updNest n f).cores = s.cores := rfl
@[simp] theorem State.updNest_nests (s : State) (n : Nat) (f : Nest → Nest) :
    (s.updNest n f).nests = s.nests.upd n f := rfl
@[simp] theorem State.updNest_walker (s : State) (n : Nat) (f : Nest → Nest) : (s.updNest n f).walker = s.walker := rfl
@[simp] theorem State.updNest_ready (s : State) (n : Nat) (f : Nest → Nest) : (s.updNest n f).ready = s.ready := rfl
@[simp] theorem State.updNest_reservations (s : State) (n : Nat) (f : Nest → Nest) : (s.updNest n f).reservations = s.reservations := rfl
@[simp] theorem State.updNest_gangs (s : State) (n : Nat) (f : Nest → Nest) : (s.updNest n f).gangs = s.gangs := rfl
@[simp] theorem State.updNest_engines (s : State) (n : Nat) (f : Nest → Nest) : (s.updNest n f).engines = s.engines := rfl
@[simp] theorem State.updNest_comms (s : State) (n : Nat) (f : Nest → Nest) : (s.updNest n f).comms = s.comms := rfl
@[simp] theorem State.updNest_ctxs (s : State) (n : Nat) (f : Nest → Nest) : (s.updNest n f).ctxs = s.ctxs := rfl
@[simp] theorem State.updNest_cmd (s : State) (n : Nat) (f : Nest → Nest) : (s.updNest n f).cmd = s.cmd := rfl
@[simp] theorem State.updNest_vds (s : State) (n : Nat) (f : Nest → Nest) : (s.updNest n f).vds = s.vds := rfl
@[simp] theorem State.updNest_ports (s : State) (n : Nat) (f : Nest → Nest) : (s.updNest n f).ports = s.ports := rfl
@[simp] theorem State.updNest_keys (s : State) (n : Nat) (f : Nest → Nest) : (s.updNest n f).keys = s.keys := rfl
@[simp] theorem State.updNest_sd (s : State) (n : Nat) (f : Nest → Nest) : (s.updNest n f).sd = s.sd := rfl
@[simp] theorem State.updNest_quotas (s : State) (n : Nat) (f : Nest → Nest) : (s.updNest n f).quotas = s.quotas := rfl
@[simp] theorem State.updNest_parts (s : State) (n : Nat) (f : Nest → Nest) : (s.updNest n f).parts = s.parts := rfl
@[simp] theorem State.updNest_queues (s : State) (n : Nat) (f : Nest → Nest) : (s.updNest n f).queues = s.queues := rfl
@[simp] theorem State.updNest_mgmt (s : State) (n : Nat) (f : Nest → Nest) : (s.updNest n f).mgmt = s.mgmt := rfl
@[simp] theorem State.updNest_reply (s : State) (n : Nat) (f : Nest → Nest) : (s.updNest n f).reply = s.reply := rfl

/-! ### updTeam -/

@[simp] theorem State.updTeam_clk (s : State) (t : Nat) (f : Team → Team) : (s.updTeam t f).clk = s.clk := rfl
@[simp] theorem State.updTeam_time (s : State) (t : Nat) (f : Team → Team) : (s.updTeam t f).time = s.time := rfl
@[simp] theorem State.updTeam_sub (s : State) (t : Nat) (f : Team → Team) : (s.updTeam t f).sub = s.sub := rfl
@[simp] theorem State.updTeam_tick (s : State) (t : Nat) (f : Team → Team) : (s.updTeam t f).tick = s.tick := rfl
@[simp] theorem State.updTeam_agenda (s : State) (t : Nat) (f : Team → Team) : (s.updTeam t f).agenda = s.agenda := rfl
@[simp] theorem State.updTeam_cur (s : State) (t : Nat) (f : Team → Team) : (s.updTeam t f).cur = s.cur := rfl
@[simp] theorem State.updTeam_serial (s : State) (t : Nat) (f : Team → Team) : (s.updTeam t f).serial = s.serial := rfl
@[simp] theorem State.updTeam_m (s : State) (t : Nat) (f : Team → Team) : (s.updTeam t f).m = s.m := rfl
@[simp] theorem State.updTeam_turned (s : State) (t : Nat) (f : Team → Team) : (s.updTeam t f).turned = s.turned := rfl
@[simp] theorem State.updTeam_retry (s : State) (t : Nat) (f : Team → Team) : (s.updTeam t f).retry = s.retry := rfl
@[simp] theorem State.updTeam_basins (s : State) (t : Nat) (f : Team → Team) : (s.updTeam t f).basins = s.basins := rfl
@[simp] theorem State.updTeam_teams (s : State) (t : Nat) (f : Team → Team) :
    (s.updTeam t f).teams = s.teams.upd t f := rfl
@[simp] theorem State.updTeam_cores (s : State) (t : Nat) (f : Team → Team) : (s.updTeam t f).cores = s.cores := rfl
@[simp] theorem State.updTeam_nests (s : State) (t : Nat) (f : Team → Team) : (s.updTeam t f).nests = s.nests := rfl
@[simp] theorem State.updTeam_walker (s : State) (t : Nat) (f : Team → Team) : (s.updTeam t f).walker = s.walker := rfl
@[simp] theorem State.updTeam_ready (s : State) (t : Nat) (f : Team → Team) : (s.updTeam t f).ready = s.ready := rfl
@[simp] theorem State.updTeam_reservations (s : State) (t : Nat) (f : Team → Team) : (s.updTeam t f).reservations = s.reservations := rfl
@[simp] theorem State.updTeam_gangs (s : State) (t : Nat) (f : Team → Team) : (s.updTeam t f).gangs = s.gangs := rfl
@[simp] theorem State.updTeam_engines (s : State) (t : Nat) (f : Team → Team) : (s.updTeam t f).engines = s.engines := rfl
@[simp] theorem State.updTeam_comms (s : State) (t : Nat) (f : Team → Team) : (s.updTeam t f).comms = s.comms := rfl
@[simp] theorem State.updTeam_ctxs (s : State) (t : Nat) (f : Team → Team) : (s.updTeam t f).ctxs = s.ctxs := rfl
@[simp] theorem State.updTeam_cmd (s : State) (t : Nat) (f : Team → Team) : (s.updTeam t f).cmd = s.cmd := rfl
@[simp] theorem State.updTeam_vds (s : State) (t : Nat) (f : Team → Team) : (s.updTeam t f).vds = s.vds := rfl
@[simp] theorem State.updTeam_ports (s : State) (t : Nat) (f : Team → Team) : (s.updTeam t f).ports = s.ports := rfl
@[simp] theorem State.updTeam_keys (s : State) (t : Nat) (f : Team → Team) : (s.updTeam t f).keys = s.keys := rfl
@[simp] theorem State.updTeam_sd (s : State) (t : Nat) (f : Team → Team) : (s.updTeam t f).sd = s.sd := rfl
@[simp] theorem State.updTeam_quotas (s : State) (t : Nat) (f : Team → Team) : (s.updTeam t f).quotas = s.quotas := rfl
@[simp] theorem State.updTeam_parts (s : State) (t : Nat) (f : Team → Team) : (s.updTeam t f).parts = s.parts := rfl
@[simp] theorem State.updTeam_queues (s : State) (t : Nat) (f : Team → Team) : (s.updTeam t f).queues = s.queues := rfl
@[simp] theorem State.updTeam_mgmt (s : State) (t : Nat) (f : Team → Team) : (s.updTeam t f).mgmt = s.mgmt := rfl
@[simp] theorem State.updTeam_reply (s : State) (t : Nat) (f : Team → Team) : (s.updTeam t f).reply = s.reply := rfl

/-! ### updGroup -/

@[simp] theorem State.updGroup_clk (s : State) (t g : Nat) (f : Group → Group) : (s.updGroup t g f).clk = s.clk := rfl
@[simp] theorem State.updGroup_time (s : State) (t g : Nat) (f : Group → Group) : (s.updGroup t g f).time = s.time := rfl
@[simp] theorem State.updGroup_sub (s : State) (t g : Nat) (f : Group → Group) : (s.updGroup t g f).sub = s.sub := rfl
@[simp] theorem State.updGroup_tick (s : State) (t g : Nat) (f : Group → Group) : (s.updGroup t g f).tick = s.tick := rfl
@[simp] theorem State.updGroup_agenda (s : State) (t g : Nat) (f : Group → Group) : (s.updGroup t g f).agenda = s.agenda := rfl
@[simp] theorem State.updGroup_cur (s : State) (t g : Nat) (f : Group → Group) : (s.updGroup t g f).cur = s.cur := rfl
@[simp] theorem State.updGroup_serial (s : State) (t g : Nat) (f : Group → Group) : (s.updGroup t g f).serial = s.serial := rfl
@[simp] theorem State.updGroup_m (s : State) (t g : Nat) (f : Group → Group) : (s.updGroup t g f).m = s.m := rfl
@[simp] theorem State.updGroup_turned (s : State) (t g : Nat) (f : Group → Group) : (s.updGroup t g f).turned = s.turned := rfl
@[simp] theorem State.updGroup_retry (s : State) (t g : Nat) (f : Group → Group) : (s.updGroup t g f).retry = s.retry := rfl
@[simp] theorem State.updGroup_basins (s : State) (t g : Nat) (f : Group → Group) : (s.updGroup t g f).basins = s.basins := rfl
@[simp] theorem State.updGroup_teams (s : State) (t g : Nat) (f : Group → Group) :
    (s.updGroup t g f).teams = s.teams.upd t fun tm => { tm with groups := listUpd f g tm.groups } := rfl
@[simp] theorem State.updGroup_cores (s : State) (t g : Nat) (f : Group → Group) : (s.updGroup t g f).cores = s.cores := rfl
@[simp] theorem State.updGroup_nests (s : State) (t g : Nat) (f : Group → Group) : (s.updGroup t g f).nests = s.nests := rfl
@[simp] theorem State.updGroup_walker (s : State) (t g : Nat) (f : Group → Group) : (s.updGroup t g f).walker = s.walker := rfl
@[simp] theorem State.updGroup_ready (s : State) (t g : Nat) (f : Group → Group) : (s.updGroup t g f).ready = s.ready := rfl
@[simp] theorem State.updGroup_reservations (s : State) (t g : Nat) (f : Group → Group) : (s.updGroup t g f).reservations = s.reservations := rfl
@[simp] theorem State.updGroup_gangs (s : State) (t g : Nat) (f : Group → Group) : (s.updGroup t g f).gangs = s.gangs := rfl
@[simp] theorem State.updGroup_engines (s : State) (t g : Nat) (f : Group → Group) : (s.updGroup t g f).engines = s.engines := rfl
@[simp] theorem State.updGroup_comms (s : State) (t g : Nat) (f : Group → Group) : (s.updGroup t g f).comms = s.comms := rfl
@[simp] theorem State.updGroup_ctxs (s : State) (t g : Nat) (f : Group → Group) : (s.updGroup t g f).ctxs = s.ctxs := rfl
@[simp] theorem State.updGroup_cmd (s : State) (t g : Nat) (f : Group → Group) : (s.updGroup t g f).cmd = s.cmd := rfl
@[simp] theorem State.updGroup_vds (s : State) (t g : Nat) (f : Group → Group) : (s.updGroup t g f).vds = s.vds := rfl
@[simp] theorem State.updGroup_ports (s : State) (t g : Nat) (f : Group → Group) : (s.updGroup t g f).ports = s.ports := rfl
@[simp] theorem State.updGroup_keys (s : State) (t g : Nat) (f : Group → Group) : (s.updGroup t g f).keys = s.keys := rfl
@[simp] theorem State.updGroup_sd (s : State) (t g : Nat) (f : Group → Group) : (s.updGroup t g f).sd = s.sd := rfl
@[simp] theorem State.updGroup_quotas (s : State) (t g : Nat) (f : Group → Group) : (s.updGroup t g f).quotas = s.quotas := rfl
@[simp] theorem State.updGroup_parts (s : State) (t g : Nat) (f : Group → Group) : (s.updGroup t g f).parts = s.parts := rfl
@[simp] theorem State.updGroup_queues (s : State) (t g : Nat) (f : Group → Group) : (s.updGroup t g f).queues = s.queues := rfl
@[simp] theorem State.updGroup_mgmt (s : State) (t g : Nat) (f : Group → Group) : (s.updGroup t g f).mgmt = s.mgmt := rfl
@[simp] theorem State.updGroup_reply (s : State) (t g : Nat) (f : Group → Group) : (s.updGroup t g f).reply = s.reply := rfl

/-! ### updSl -/

@[simp] theorem State.updSl_clk (s : State) (c n : Nat) (f : SlCtx → SlCtx) : (s.updSl c n f).clk = s.clk := rfl
@[simp] theorem State.updSl_time (s : State) (c n : Nat) (f : SlCtx → SlCtx) : (s.updSl c n f).time = s.time := rfl
@[simp] theorem State.updSl_sub (s : State) (c n : Nat) (f : SlCtx → SlCtx) : (s.updSl c n f).sub = s.sub := rfl
@[simp] theorem State.updSl_tick (s : State) (c n : Nat) (f : SlCtx → SlCtx) : (s.updSl c n f).tick = s.tick := rfl
@[simp] theorem State.updSl_agenda (s : State) (c n : Nat) (f : SlCtx → SlCtx) : (s.updSl c n f).agenda = s.agenda := rfl
@[simp] theorem State.updSl_cur (s : State) (c n : Nat) (f : SlCtx → SlCtx) : (s.updSl c n f).cur = s.cur := rfl
@[simp] theorem State.updSl_serial (s : State) (c n : Nat) (f : SlCtx → SlCtx) : (s.updSl c n f).serial = s.serial := rfl
@[simp] theorem State.updSl_m (s : State) (c n : Nat) (f : SlCtx → SlCtx) : (s.updSl c n f).m = s.m := rfl
@[simp] theorem State.updSl_turned (s : State) (c n : Nat) (f : SlCtx → SlCtx) : (s.updSl c n f).turned = s.turned := rfl
@[simp] theorem State.updSl_retry (s : State) (c n : Nat) (f : SlCtx → SlCtx) : (s.updSl c n f).retry = s.retry := rfl
@[simp] theorem State.updSl_basins (s : State) (c n : Nat) (f : SlCtx → SlCtx) : (s.updSl c n f).basins = s.basins := rfl
@[simp] theorem State.updSl_teams (s : State) (c n : Nat) (f : SlCtx → SlCtx) : (s.updSl c n f).teams = s.teams := rfl
@[simp] theorem State.updSl_cores (s : State) (c n : Nat) (f : SlCtx → SlCtx) :
    (s.updSl c n f).cores = s.cores.put c ((s.core c).setSl n (f ((s.core c).sl n))) := rfl
@[simp] theorem State.updSl_nests (s : State) (c n : Nat) (f : SlCtx → SlCtx) : (s.updSl c n f).nests = s.nests := rfl
@[simp] theorem State.updSl_walker (s : State) (c n : Nat) (f : SlCtx → SlCtx) : (s.updSl c n f).walker = s.walker := rfl
@[simp] theorem State.updSl_ready (s : State) (c n : Nat) (f : SlCtx → SlCtx) : (s.updSl c n f).ready = s.ready := rfl
@[simp] theorem State.updSl_reservations (s : State) (c n : Nat) (f : SlCtx → SlCtx) : (s.updSl c n f).reservations = s.reservations := rfl
@[simp] theorem State.updSl_gangs (s : State) (c n : Nat) (f : SlCtx → SlCtx) : (s.updSl c n f).gangs = s.gangs := rfl
@[simp] theorem State.updSl_engines (s : State) (c n : Nat) (f : SlCtx → SlCtx) : (s.updSl c n f).engines = s.engines := rfl
@[simp] theorem State.updSl_comms (s : State) (c n : Nat) (f : SlCtx → SlCtx) : (s.updSl c n f).comms = s.comms := rfl
@[simp] theorem State.updSl_ctxs (s : State) (c n : Nat) (f : SlCtx → SlCtx) : (s.updSl c n f).ctxs = s.ctxs := rfl
@[simp] theorem State.updSl_cmd (s : State) (c n : Nat) (f : SlCtx → SlCtx) : (s.updSl c n f).cmd = s.cmd := rfl
@[simp] theorem State.updSl_vds (s : State) (c n : Nat) (f : SlCtx → SlCtx) : (s.updSl c n f).vds = s.vds := rfl
@[simp] theorem State.updSl_ports (s : State) (c n : Nat) (f : SlCtx → SlCtx) : (s.updSl c n f).ports = s.ports := rfl
@[simp] theorem State.updSl_keys (s : State) (c n : Nat) (f : SlCtx → SlCtx) : (s.updSl c n f).keys = s.keys := rfl
@[simp] theorem State.updSl_sd (s : State) (c n : Nat) (f : SlCtx → SlCtx) : (s.updSl c n f).sd = s.sd := rfl
@[simp] theorem State.updSl_quotas (s : State) (c n : Nat) (f : SlCtx → SlCtx) : (s.updSl c n f).quotas = s.quotas := rfl
@[simp] theorem State.updSl_parts (s : State) (c n : Nat) (f : SlCtx → SlCtx) : (s.updSl c n f).parts = s.parts := rfl
@[simp] theorem State.updSl_queues (s : State) (c n : Nat) (f : SlCtx → SlCtx) : (s.updSl c n f).queues = s.queues := rfl
@[simp] theorem State.updSl_mgmt (s : State) (c n : Nat) (f : SlCtx → SlCtx) : (s.updSl c n f).mgmt = s.mgmt := rfl
@[simp] theorem State.updSl_reply (s : State) (c n : Nat) (f : SlCtx → SlCtx) : (s.updSl c n f).reply = s.reply := rfl

/-! ### setL1 -/

@[simp] theorem State.setL1_clk (s : State) (c : Nat) (l : SMap L1Line) : (s.setL1 c l).clk = s.clk := rfl
@[simp] theorem State.setL1_time (s : State) (c : Nat) (l : SMap L1Line) : (s.setL1 c l).time = s.time := rfl
@[simp] theorem State.setL1_sub (s : State) (c : Nat) (l : SMap L1Line) : (s.setL1 c l).sub = s.sub := rfl
@[simp] theorem State.setL1_tick (s : State) (c : Nat) (l : SMap L1Line) : (s.setL1 c l).tick = s.tick := rfl
@[simp] theorem State.setL1_agenda (s : State) (c : Nat) (l : SMap L1Line) : (s.setL1 c l).agenda = s.agenda := rfl
@[simp] theorem State.setL1_cur (s : State) (c : Nat) (l : SMap L1Line) : (s.setL1 c l).cur = s.cur := rfl
@[simp] theorem State.setL1_serial (s : State) (c : Nat) (l : SMap L1Line) : (s.setL1 c l).serial = s.serial := rfl
@[simp] theorem State.setL1_turned (s : State) (c : Nat) (l : SMap L1Line) : (s.setL1 c l).turned = s.turned := rfl
@[simp] theorem State.setL1_retry (s : State) (c : Nat) (l : SMap L1Line) : (s.setL1 c l).retry = s.retry := rfl
@[simp] theorem State.setL1_basins (s : State) (c : Nat) (l : SMap L1Line) : (s.setL1 c l).basins = s.basins := rfl
@[simp] theorem State.setL1_teams (s : State) (c : Nat) (l : SMap L1Line) : (s.setL1 c l).teams = s.teams := rfl
@[simp] theorem State.setL1_cores (s : State) (c : Nat) (l : SMap L1Line) : (s.setL1 c l).cores = s.cores := rfl
@[simp] theorem State.setL1_nests (s : State) (c : Nat) (l : SMap L1Line) : (s.setL1 c l).nests = s.nests := rfl
@[simp] theorem State.setL1_walker (s : State) (c : Nat) (l : SMap L1Line) : (s.setL1 c l).walker = s.walker := rfl
@[simp] theorem State.setL1_ready (s : State) (c : Nat) (l : SMap L1Line) : (s.setL1 c l).ready = s.ready := rfl
@[simp] theorem State.setL1_reservations (s : State) (c : Nat) (l : SMap L1Line) : (s.setL1 c l).reservations = s.reservations := rfl
@[simp] theorem State.setL1_gangs (s : State) (c : Nat) (l : SMap L1Line) : (s.setL1 c l).gangs = s.gangs := rfl
@[simp] theorem State.setL1_engines (s : State) (c : Nat) (l : SMap L1Line) : (s.setL1 c l).engines = s.engines := rfl
@[simp] theorem State.setL1_comms (s : State) (c : Nat) (l : SMap L1Line) : (s.setL1 c l).comms = s.comms := rfl
@[simp] theorem State.setL1_ctxs (s : State) (c : Nat) (l : SMap L1Line) : (s.setL1 c l).ctxs = s.ctxs := rfl
@[simp] theorem State.setL1_cmd (s : State) (c : Nat) (l : SMap L1Line) : (s.setL1 c l).cmd = s.cmd := rfl
@[simp] theorem State.setL1_vds (s : State) (c : Nat) (l : SMap L1Line) : (s.setL1 c l).vds = s.vds := rfl
@[simp] theorem State.setL1_ports (s : State) (c : Nat) (l : SMap L1Line) : (s.setL1 c l).ports = s.ports := rfl
@[simp] theorem State.setL1_keys (s : State) (c : Nat) (l : SMap L1Line) : (s.setL1 c l).keys = s.keys := rfl
@[simp] theorem State.setL1_sd (s : State) (c : Nat) (l : SMap L1Line) : (s.setL1 c l).sd = s.sd := rfl
@[simp] theorem State.setL1_quotas (s : State) (c : Nat) (l : SMap L1Line) : (s.setL1 c l).quotas = s.quotas := rfl
@[simp] theorem State.setL1_parts (s : State) (c : Nat) (l : SMap L1Line) : (s.setL1 c l).parts = s.parts := rfl
@[simp] theorem State.setL1_queues (s : State) (c : Nat) (l : SMap L1Line) : (s.setL1 c l).queues = s.queues := rfl
@[simp] theorem State.setL1_mgmt (s : State) (c : Nat) (l : SMap L1Line) : (s.setL1 c l).mgmt = s.mgmt := rfl
@[simp] theorem State.setL1_reply (s : State) (c : Nat) (l : SMap L1Line) : (s.setL1 c l).reply = s.reply := rfl

end Sys2Proof.Machine
end

