-- ==== Sys2Proof/Laws/Words.lean ====
section
/-! SUPPORT. What the shared operations over words do: registers, commits, posted results, faults. -/

namespace Sys2Proof

open Machine

namespace Machine

/-! ### Register files (03 R53, R54) -/

theorem GroupRegs.rdV_wrV (r : GroupRegs) (n L m M : Nat) (x : W32) (hL : L < 32) (hM : M < 32) :
    (r.wrV n L x).rdV m M = if m = n ∧ M = L then x else r.rdV m M := by
  unfold GroupRegs.rdV GroupRegs.wrV
  simp only [SMap.getD_set]
  by_cases h : m = n ∧ M = L
  · obtain ⟨rfl, rfl⟩ := h; simp
  · have : ¬ 32 * m + M = 32 * n + L := by omega
    simp [h, this]

@[simp] theorem GroupRegs.rdS_wrV (r : GroupRegs) (n L m : Nat) (x : W32) : (r.wrV n L x).rdS m = r.rdS m := rfl
@[simp] theorem GroupRegs.rdV_wrS (r : GroupRegs) (n m M : Nat) (x : W32) : (r.wrS n x).rdV m M = r.rdV m M := rfl
theorem GroupRegs.rdS_wrS (r : GroupRegs) (n m : Nat) (x : W32) : (r.wrS n x).rdS m = if m = n then x else r.rdS m := by
  simp [GroupRegs.rdS, GroupRegs.wrS, SMap.getD_set]

/-- p7 is true in every lane, whatever is written (03 R54). -/
@[simp] theorem GroupRegs.rdP_seven (r : GroupRegs) : r.rdP 7 = 0xFFFFFFFF := by simp [GroupRegs.rdP]

theorem GroupRegs.rdP_wrP (r : GroupRegs) (n m : Nat) (mask x : W32) :
    (r.wrP n mask x).rdP m = if m = n ∧ m ≠ 7 then (r.rdP m &&& ~~~mask) ||| (x &&& mask) else r.rdP m := by
  unfold GroupRegs.wrP
  by_cases h7 : n = 7
  · subst h7
    have : ¬ (m = 7 ∧ m ≠ 7) := by simp
    simp [this]
  · simp only [h7, if_false]
    by_cases hm : m = 7
    · subst hm; simp
    · by_cases h : m = n
      · subst h; simp [GroupRegs.rdP, hm]
      · simp [GroupRegs.rdP, hm, h, SMap.getD_set]

/-- A v register written lane by lane. -/
theorem GroupRegs.rdV_wrLanes (n : Nat) (f : Nat → W32) : ∀ (lanes : List Nat) (r : GroupRegs) (m M : Nat),
    (∀ L ∈ lanes, L < 32) → M < 32 →
    (r.wrLanes n lanes f).rdV m M = if m = n ∧ M ∈ lanes then f M else r.rdV m M
  | [], r, m, M, _, _ => by simp [GroupRegs.wrLanes]
  | L :: t, r, m, M, hl, hM => by
    have ih := GroupRegs.rdV_wrLanes n f t (r.wrV n L (f L)) m M (fun x hx => hl x (List.mem_cons_of_mem _ hx)) hM
    unfold GroupRegs.wrLanes at ih ⊢
    rw [List.foldl_cons, ih, GroupRegs.rdV_wrV _ _ _ _ _ _ (hl L List.mem_cons_self) hM]
    by_cases h1 : m = n ∧ M ∈ t
    · simp [h1]
    · by_cases h2 : m = n ∧ M = L
      · obtain ⟨rfl, rfl⟩ := h2; simp
      · have : ¬ (m = n ∧ M ∈ L :: t) := by simp only [List.mem_cons]; rintro ⟨a, b | b⟩; exact h2 ⟨a, b⟩; exact h1 ⟨a, b⟩
        rw [if_neg h1, if_neg h2, if_neg this]

theorem GroupRegs.wrLanes_rest (n : Nat) (f : Nat → W32) : ∀ (lanes : List Nat) (r : GroupRegs),
    r.wrLanes n lanes f = { r with v := (r.wrLanes n lanes f).v }
  | [], r => rfl
  | L :: t, r => by
    have ih := GroupRegs.wrLanes_rest n f t (r.wrV n L (f L))
    unfold GroupRegs.wrLanes at ih ⊢
    rw [List.foldl_cons, ih]; rfl

/-- A pair of v registers written lane by lane. -/
theorem GroupRegs.rdV_wrLanes64 (n : Nat) (f : Nat → W64) : ∀ (lanes : List Nat) (r : GroupRegs) (m M : Nat),
    (∀ L ∈ lanes, L < 32) → M < 32 →
    (r.wrLanes64 n lanes f).rdV m M =
      if m = n ∧ M ∈ lanes then lo32 (f M) else if m = n + 1 ∧ M ∈ lanes then hi32 (f M) else r.rdV m M
  | [], r, m, M, _, _ => by simp [GroupRegs.wrLanes64]
  | L :: t, r, m, M, hl, hM => by
    have ih := GroupRegs.rdV_wrLanes64 n f t (r.wrV64 n L (f L)) m M (fun x hx => hl x (List.mem_cons_of_mem _ hx)) hM
    have hL := hl L List.mem_cons_self
    unfold GroupRegs.wrLanes64 at ih ⊢
    rw [List.foldl_cons, ih, GroupRegs.wrV64, GroupRegs.rdV_wrV _ _ _ _ _ _ hL hM, GroupRegs.rdV_wrV _ _ _ _ _ _ hL hM]
    by_cases hM2 : M = L
    · subst hM2
      by_cases h1 : m = n
      · subst h1; simp
      · by_cases h3 : m = n + 1
        · subst h3; simp
        · simp [h1, h3]
    · simp [hM2, List.mem_cons]

theorem GroupRegs.wrLanes64_rest (n : Nat) (f : Nat → W64) : ∀ (lanes : List Nat) (r : GroupRegs),
    r.wrLanes64 n lanes f = { r with v := (r.wrLanes64 n lanes f).v }
  | [], r => rfl
  | L :: t, r => by
    have ih := GroupRegs.wrLanes64_rest n f t (r.wrV64 n L (f L))
    unfold GroupRegs.wrLanes64 at ih ⊢
    rw [List.foldl_cons, ih]; rfl

/-! ### Sites -/

theorem State.siteAt_some {s : State} {t g : Nat} {b : Bool} {w : Site} (h : s.siteAt t g b = some w) :
    s.teams.find? t = some w.tm ∧ w.tm.groups[g]? = some w.g ∧ w.team = t ∧ w.grp = g ∧ w.slot = b ∧
      (w.g.r.slot b).live = true := by
  unfold State.siteAt at h
  split at h
  · next tm htm =>
    split at h
    · next gr hgr =>
      split at h
      · next hl => simp only [Option.some.injEq] at h; subst h; exact ⟨htm, hgr, rfl, rfl, rfl, hl⟩
      · simp at h
    · simp at h
  · simp at h

theorem State.site_some {s : State} {w : Site} (h : s.site? = some w) :
    s.cur = some (.grp w.team w.grp w.slot) ∧ s.siteAt w.team w.grp w.slot = some w := by
  unfold State.site? at h
  split at h
  · next t g b hc =>
    obtain ⟨_, _, h3, h4, h5, _⟩ := State.siteAt_some h
    subst h3 h4 h5; exact ⟨hc, h⟩
  · simp at h

theorem State.site_team {s : State} {w : Site} (h : s.site? = some w) : s.teams.find? w.team = some w.tm :=
  (State.siteAt_some (State.site_some h).2).1

theorem State.site_group {s : State} {w : Site} (h : s.site? = some w) : w.tm.groups[w.grp]? = some w.g :=
  (State.siteAt_some (State.site_some h).2).2.1

/-- The meaning of a word at its site. -/
theorem onSite_of {s : State} {w : Site} (h : s.site? = some w) (f : Site → State) : onSite s f = .next (f w) := by
  simp [onSite, h]

/-- The meaning of a memory word at a site with no unperformed access before it. -/
theorem onMem_of {s : State} {w : Site} (h : s.site? = some w) (hu : w.unperformed = false) (f : Site → State) :
    onMem s f = .next (f w) := by
  simp [onMem, onSite, h, hu]

theorem listUpd_const {β : Type} (f : β → β) : ∀ (i : Nat) (l : List β) (x : β), l[i]? = some x →
    listUpd f i l = listUpd (fun _ => f x) i l
  | _, [], _, h => by simp at h
  | 0, y :: t, x, h => by simp at h; subst h; rfl
  | i + 1, y :: t, x, h => by simp [listUpd]; exact listUpd_const f i t x (by simpa using h)

/-- Changing the group of a site changes only that group. -/
theorem updGroup_only {s : State} {w : Site} (ht : s.teams.find? w.team = some w.tm) (hg : w.tm.groups[w.grp]? = some w.g)
    (f : Group → Group) : OnlyGroup s (s.updGroup w.team w.grp f) w.team w.grp w.tm (f w.g) where
  rest := rfl
  others := fun k hk => by simp [State.updGroup, State.updTeam, SMap.find?_upd, hk]
  here := by
    simp only [State.updGroup, State.updTeam, SMap.find?_upd, if_true, ht, Option.map_some]
    rw [listUpd_const f w.grp w.tm.groups w.g hg]
  memory := fun _ _ => rfl

/-- What a commit does (04 R99). -/
theorem Site.commit_committed {s : State} {w : Site} (h : s.site? = some w) (r : GroupRegs) :
    Committed w s (w.commit s r) r := updGroup_only (State.site_team h) (State.site_group h) _

/-- What the commit of a control or system word does. -/
theorem Site.commitCtl_committed {s : State} {w : Site} (h : s.site? = some w) (r : GroupRegs) :
    CommittedCtl w s (w.commitCtl s r) r := updGroup_only (State.site_team h) (State.site_group h) _

/-- What the issue of a long-latency word does (04 R79, R80). -/
theorem Site.post_posted {s : State} {w : Site} (h : s.site? = some w) (la : BitVec 4) (i : Instr) (kind : PendKind)
    (writes : List RegWrite) (entries : Nat) :
    Posted w s (w.post s la i kind writes entries) la i kind writes entries :=
  updGroup_only (State.site_team h) (State.site_group h) _

/-! ### Results -/

theorem mem_lanes {w : Site} {g : Guard} {L : Nat} : L ∈ w.lanes g ↔ L < 32 ∧ (w.active g).getLsbD L = true := mem_lanesOf

theorem lanes_lt (w : Site) (g : Guard) : ∀ L ∈ w.lanes g, L < 32 := fun _ h => (mem_lanes.1 h).1

@[simp] theorem lo32_setWidth (x : W32) : lo32 (x.setWidth 64) = x := by
  unfold lo32; rw [BitVec.setWidth_setWidth_of_le _ (by omega)]; simp

/-- Registers after the lanes of a vector form are written. -/
theorem destIs_vec (w : Site) (g : Guard) (d : Nat) (f : Nat → W32) :
    DestIs w.g.r (w.g.r.wrLanes d (w.lanes g) f) false false d (w.active g) fun L => (f L).setWidth 64 where
  v := fun n L hL => by
    rw [GroupRegs.rdV_wrLanes _ _ _ _ _ _ (lanes_lt w g) hL]
    by_cases h : n = d ∧ (w.active g).getLsbD L = true
    · simp [h, mem_lanes, hL]
    · have h1 : ¬ (n = d ∧ L ∈ w.lanes g) := fun x => h ⟨x.1, (mem_lanes.1 x.2).2⟩
      have h2 : ¬ ((w.active g).getLsbD L = true ∧ n = d) := fun x => h ⟨x.2, x.1⟩
      simp [h1, h2]
  s := fun n => by
    rw [GroupRegs.wrLanes_rest]; simp [GroupRegs.rdS]
  rest := by
    have := GroupRegs.wrLanes_rest d f (w.lanes g) w.g.r
    rw [this]

/-- Registers after a uniform form. -/
theorem destIs_uni (r : GroupRegs) (d : Nat) (m : W32) (f : Nat → W32) :
    DestIs r (r.wrS d (f 0)) true false d m fun L => (f L).setWidth 64 where
  v := fun n L _ => by simp
  s := fun n => by rw [GroupRegs.rdS_wrS]; simp
  rest := rfl

/-- Registers after the lanes of a vector form with a 64-bit result are written. -/
theorem destIs_vec64 (w : Site) (g : Guard) (d : Nat) (f : Nat → W64) :
    DestIs w.g.r (w.g.r.wrLanes64 d (w.lanes g) f) false true d (w.active g) f where
  v := fun n L hL => by
    rw [GroupRegs.rdV_wrLanes64 _ _ _ _ _ _ (lanes_lt w g) hL]
    by_cases h : (w.active g).getLsbD L = true
    · simp [h, mem_lanes, hL]
    · simp [h, mem_lanes]
  s := fun n => by
    rw [GroupRegs.wrLanes64_rest]; simp [GroupRegs.rdS]
  rest := by
    have := GroupRegs.wrLanes64_rest d f (w.lanes g) w.g.r
    rw [this]

/-- Registers after a uniform form with a 64-bit result. -/
theorem destIs_uni64 (r : GroupRegs) (d : Nat) (m : W32) (f : Nat → W64) :
    DestIs r (r.wrS64 d (f 0)) true true d m f where
  v := fun n L _ => by simp [GroupRegs.wrS64]
  s := fun n => by
    rw [GroupRegs.wrS64, GroupRegs.rdS_wrS, GroupRegs.rdS_wrS]
    by_cases h1 : n = d
    · subst h1; simp
    · by_cases h2 : n = d + 1
      · subst h2; simp
      · simp [h1, h2]
  rest := rfl

theorem destIs_congr {old new : GroupRegs} {uni wide : Bool} {d : Nat} {m : W32} {f f' : Nat → W64}
    (h : DestIs old new uni wide d m f) (he : ∀ L, L < 32 → f L = f' L) : DestIs old new uni wide d m f' where
  v := fun n L hL => by rw [h.v n L hL, he L hL]
  s := fun n => by rw [h.s n, he 0 (by omega)]
  rest := h.rest

/-- A word whose meaning is a result of 32 bits in vector or uniform form. -/
theorem writes32_res {i : Instr} {s : State} {w : Site} {g : Guard} {uni : Bool} {d : BitVec 8} {f val : Nat → W32}
    (h : s.site? = some w) (hi : exec i s = .next (w.res s g uni d f)) (hv : ∀ L, L < 32 → f L = val L) :
    Writes32 i s w g uni d val := by
  unfold Writes32 WritesReg Gives
  cases uni with
  | false =>
    refine ⟨_, w.g.r.wrLanes d.toNat (w.lanes g) f, hi, ?_, ?_⟩
    · simpa [Site.res, Site.vec] using Site.commit_committed h _
    · exact destIs_congr (destIs_vec w g d.toNat f) fun L hL => by rw [hv L hL]
  | true =>
    refine ⟨_, w.g.r.wrS d.toNat (f 0), hi, ?_, ?_⟩
    · simpa [Site.res] using Site.commit_committed h _
    · exact destIs_congr (destIs_uni w.g.r d.toNat _ f) fun L hL => by rw [hv L hL]

/-- A word whose meaning is a result of 64 bits in vector or uniform form. -/
theorem writes64_res {i : Instr} {s : State} {w : Site} {g : Guard} {uni : Bool} {d : BitVec 8} {f val : Nat → W64}
    (h : s.site? = some w) (hi : exec i s = .next (w.res64 s g uni d f)) (hv : ∀ L, L < 32 → f L = val L) :
    WritesReg i s w g uni true d val := by
  unfold WritesReg Gives
  cases uni with
  | false =>
    refine ⟨_, w.g.r.wrLanes64 d.toNat (w.lanes g) f, hi, ?_, ?_⟩
    · simpa [Site.res64] using Site.commit_committed h _
    · exact destIs_congr (destIs_vec64 w g d.toNat f) hv
  | true =>
    refine ⟨_, w.g.r.wrS64 d.toNat (f 0), hi, ?_, ?_⟩
    · simpa [Site.res64] using Site.commit_committed h _
    · exact destIs_congr (destIs_uni64 w.g.r d.toNat _ f) hv

/-- Registers after a predicate is written. -/
theorem predIs_wrP (r : GroupRegs) (p : Nat) (m : W32) (f : Nat → Bool) : PredIs r (r.wrP p m (maskOf f)) p m f where
  p := fun n L hL => by
    rw [GroupRegs.rdP_wrP]
    by_cases h : n = p ∧ n ≠ 7
    · rw [if_pos h]
      by_cases hm : m.getLsbD L = true
      · rw [if_pos ⟨h.1, h.2, hm⟩]
        simp [hm, maskOf_getLsbD f hL]
      · rw [if_neg fun x => hm x.2.2]
        have hm' : m.getLsbD L = false := by simpa using hm
        simp only [BitVec.getLsbD_or, BitVec.getLsbD_and, BitVec.getLsbD_not, hm', hL]
        simp
    · have : ¬ (n = p ∧ n ≠ 7 ∧ m.getLsbD L = true) := fun x => h ⟨x.1, x.2.1⟩
      simp [h, this]
  rest := by unfold GroupRegs.wrP; split <;> rfl

/-- A word whose meaning is a predicate. -/
theorem writesPred_pred {i : Instr} {s : State} {w : Site} {g : Guard} {p : BitVec 3} {f val : Nat → Bool}
    (h : s.site? = some w) (hi : exec i s = .next (w.pred s g p f)) (hv : ∀ L, L < 32 → f L = val L) :
    WritesPred i s w g p val := by
  refine ⟨_, _, hi, Site.commit_committed h _, ?_⟩
  have := predIs_wrP w.g.r p.toNat (w.active g) f
  exact ⟨fun n L hL => by rw [this.p n L hL, hv L hL], this.rest⟩

end Machine

end Sys2Proof
end

