-- ==== Sys2Proof/Laws/Float.lean ====
section
/-! SUPPORT. What the shared operations over float words do: NaN reports with no trap due, the draws of stochastic rounding, and
rounded results. -/

namespace Sys2Proof

namespace Machine

theorem updGroup_updGroup_find (s : State) (t g : Nat) (f f' : Group → Group) (k : Nat) :
    ((s.updGroup t g f).updGroup t g f').teams.find? k = (s.updGroup t g fun x => f' (f x)).teams.find? k := by
  have e : ∀ (l : List Group) (g : Nat), listUpd f' g (listUpd f g l) = listUpd (fun x => f' (f x)) g l := by
    intro l
    induction l with
    | nil => intro g; simp [listUpd]
    | cons x t ih => intro g; cases g with
      | zero => rfl
      | succ n => simp [listUpd, ih]
  simp only [State.updGroup, State.updTeam, SMap.find?_upd]
  by_cases hk : k = t
  · subst hk
    simp only [if_true, Option.map_map]
    cases s.teams.find? k with
    | none => rfl
    | some tm => simp [e]
  · simp [hk]

/-- Two changes of the group of a site, one after the other. -/
theorem updGroup_twice {s : State} {w : Site} (ht : s.teams.find? w.team = some w.tm) (hg : w.tm.groups[w.grp]? = some w.g)
    (f f' : Group → Group) :
    OnlyGroup s ((s.updGroup w.team w.grp f).updGroup w.team w.grp f') w.team w.grp w.tm (f' (f w.g)) where
  rest := rfl
  others := fun k hk => by simp [State.updGroup, State.updTeam, SMap.find?_upd, hk]
  here := by
    rw [updGroup_updGroup_find]
    exact (updGroup_only ht hg (fun x => f' (f x))).here
  memory := fun _ _ => rfl

/-- A NaN report while no trap is due: NAN_SEEN alone (05 R122). -/
theorem Site.reportNan_quiet {w : Site} (hn : NoNanTrap w) (s0 s1 : State) (o i : Bool) :
    w.reportNan s0 s1 o i =
      if o || i then w.upd s1 fun g => { g with r := { g.r with gstat := g.r.gstat ||| 2 } } else s1 := by
  unfold Site.reportNan
  cases ho : (o || i) with
  | false => simp
  | true =>
    simp only [if_true]
    have : (o && fpmNanTrap w.g.r.fpm && !gstatNanSeen w.g.r.gstat && !w.g.t.inh) = false := by
      rcases hn with h | h | h <;> (unfold fpmNanTrap gstatNanSeen; rw [h]; simp)
    rw [if_neg (by simp [this])]

theorem GroupRegs.advance_gstat (r : GroupRegs) (b : Bool) (x : W32) :
    { r.advance b with gstat := x } = GroupRegs.advance { r with gstat := x } b := by
  cases b <;> rfl

@[simp] theorem GroupRegs.advance_gstat_eq (r : GroupRegs) (b : Bool) : (r.advance b).gstat = r.gstat := by cases b <;> rfl

/-- The commit of a word that may report a NaN, while no trap is due. -/
theorem Site.commitNan_committed {s : State} {w : Site} (h : s.site? = some w) (hn : NoNanTrap w) (r : GroupRegs)
    (hr : r.gstat = w.g.r.gstat) (o i : Bool) :
    Committed w s (w.commitNan s r o i) { r with gstat := gstatAfter w (o || i) } := by
  unfold Site.commitNan
  rw [Site.reportNan_quiet hn]
  cases ho : (o || i) with
  | false =>
    have : ({ r with gstat := gstatAfter w false } : GroupRegs) = r := by simp [gstatAfter, ← hr]
    rw [this]
    exact Site.commit_committed h r
  | true =>
    simp only [if_true]
    have := updGroup_twice (State.site_team h) (State.site_group h)
      (fun g => { g.count w.slot false w.skid with r := r.advance w.slot })
      (fun g => { g with r := { g.r with gstat := g.r.gstat ||| 2 } })
    simpa [Committed, Site.commit, Site.commitAs, Site.upd, GroupRegs.advance_gstat, gstatAfter, hr] using this

/-! ### Draws (05 R109) -/

theorem stepLfsr_draw (n : Nat) : ∀ (lanes : List Nat) (r : GroupRegs) (L : Nat), lanes.Nodup →
    (r.stepLfsr n lanes).draw L = if lanes.contains L then lfsrSteps n (r.draw L) else r.draw L
  | [], r, L, _ => by simp [GroupRegs.stepLfsr, GroupRegs.draw]
  | M :: t, r, L, hd => by
    have hd' := List.nodup_cons.1 hd
    have ih := stepLfsr_draw n t { r with lfsr := r.lfsr.put M (lfsrSteps n (r.lfsr.getD M 0)) } L hd'.2
    have e : r.stepLfsr n (M :: t) =
        GroupRegs.stepLfsr { r with lfsr := r.lfsr.put M (lfsrSteps n (r.lfsr.getD M 0)) } n t := rfl
    rw [e, ih]
    by_cases hL : L = M
    · subst hL
      have : t.contains L = false := by simpa using hd'.1
      simp [hd'.1, GroupRegs.draw, SMap.getD_put]
    · have : (M :: t).contains L = t.contains L := by simp [hL]
      rw [this]
      simp [GroupRegs.draw, SMap.getD_put, hL]

theorem lanes_nodup (w : Site) (g : Guard) : (w.lanes g).Nodup :=
  (by decide : allLanes.Nodup).sublist List.filter_sublist

theorem doing_nodup (w : Site) (g : Guard) (uni : Bool) : (w.doing g uni).Nodup := by
  unfold Site.doing; cases uni
  · exact lanes_nodup w g
  · simp

/-! ### Rounded words (21 R348) -/

theorem wrV_foldl (d : Nat) (f : Nat → W32) (lanes : List Nat) (r : GroupRegs) :
    (lanes.map fun L => (L, f L)).foldl (fun r x => r.wrV d x.1 x.2) r = r.wrLanes d lanes f := by
  unfold GroupRegs.wrLanes
  rw [List.foldl_map]

/-- A word with rounded results, while no NaN trap is due. -/
theorem writesFloat_rounded {i : Instr} {s : State} {w : Site} {g : Guard} {uni : Bool} {d : BitVec 8} {rm : RM}
    {draws : Nat} {f : Nat → W32 → FRes} (h : s.site? = some w) (hn : NoNanTrap w)
    (hi : exec i s = .next (w.rounded s g uni d rm draws f)) :
    WritesFloat i s w g uni d (rm == .sr) draws fun L => f L (w.g.r.draw L) := by
  let val : Nat → W32 := fun L => BitVec.ofNat 32 (f L (w.g.r.draw L)).bits
  let r1 : GroupRegs := if uni then w.g.r.wrS d.toNat (val 0) else w.g.r.wrLanes d.toNat (w.lanes g) val
  let r2 : GroupRegs := if rm == .sr then r1.stepLfsr draws (w.doing g uni) else r1
  let rs := (w.doing g uni).map fun L => (L, f L (w.g.r.draw L))
  have hr1 : rs.foldl (fun r x =>
      if uni then r.wrS d.toNat (BitVec.ofNat 32 x.2.bits) else r.wrV d.toNat x.1 (BitVec.ofNat 32 x.2.bits)) w.g.r = r1 := by
    cases uni with
    | true => rfl
    | false => simp only [rs, r1, Bool.false_eq_true, if_false, Site.doing, List.foldl_map, GroupRegs.wrLanes, val]
  have hd : DestIs w.g.r r1 uni false d.toNat (w.active g) fun L => (val L).setWidth 64 := by
    cases uni with
    | true => exact destIs_uni w.g.r d.toNat _ val
    | false => exact destIs_vec w g d.toNat val
  have hg2 : r2.gstat = w.g.r.gstat := by
    have : r1.gstat = w.g.r.gstat := by rw [hd.rest]
    simp only [r2]; split
    · exact this
    · exact this
  have hl1 : r1.lfsr = w.g.r.lfsr := by rw [hd.rest]
  have he : w.rounded s g uni d rm draws f = w.commitNan s r2 (rs.any (·.2.nanOut)) (rs.any (·.2.nanIn)) := by
    unfold Site.rounded
    simp only [rs] at hr1
    simp only [hr1]
    rfl
  refine ⟨_, { r2 with gstat := gstatAfter w (rs.any (·.2.nanOut) || rs.any (·.2.nanIn)) }, hi, ?_, ?_, ?_, ?_⟩
  · rw [he]; exact Site.commitNan_committed h hn r2 hg2 _ _
  · have hv : r2.v = r1.v ∧ r2.s = r1.s := by simp only [r2]; split <;> exact ⟨rfl, rfl⟩
    refine ⟨fun n L hL => ?_, fun n => ?_, ?_⟩
    · simpa [GroupRegs.rdV, hv.1] using hd.v n L hL
    · simpa [GroupRegs.rdS, hv.2] using hd.s n
    · have : r2 = { w.g.r with v := r2.v, s := r2.s, lfsr := r2.lfsr } := by
        have h0 := hd.rest
        simp only [r2]; split
        · simp only [GroupRegs.stepLfsr]; rw [h0]
        · rw [h0]
      rw [this]
  · show gstatAfter w _ = gstatAfter w _
    congr 1
    simp only [rs, List.any_map]
    induction (w.doing g uni) with
    | nil => rfl
    | cons a t ih => simp only [List.any_cons, Function.comp_apply, ← ih]; ac_rfl
  · intro L
    have e1 : r1.draw L = w.g.r.draw L := by simp [GroupRegs.draw, hl1]
    have e2 : (r1.stepLfsr draws (w.doing g uni)).draw L =
        if (w.doing g uni).contains L then lfsrSteps draws (r1.draw L) else r1.draw L :=
      stepLfsr_draw draws _ r1 L (doing_nodup w g uni)
    rw [e1] at e2
    show r2.draw L = _
    cases hsr : (rm == RM.sr) with
    | false => simp only [r2, hsr, Bool.false_eq_true, if_false, Bool.false_and]; exact e1
    | true => simp only [r2, hsr, if_true, Bool.true_and]; exact e2

end Machine

end Sys2Proof
end

