-- ==== Sys2Proof/Laws/Mem.lean ====
section
/-! SUPPORT. The operations over device memory keep its canonical form, and those that only touch the caches, the buffers, the
scratchpads or the groups leave every byte at its home. -/

namespace Sys2Proof.Machine

/-! ### What leaves the bytes at home -/

theorem foldl_mem {β : Type} (f : State → β → State) (hf : ∀ s b, (f s b).m.mem = s.m.mem) :
    ∀ (l : List β) (s : State), (l.foldl f s).m.mem = s.m.mem
  | [], _ => rfl
  | x :: t, s => by rw [List.foldl_cons, foldl_mem f hf t, hf]

theorem foldl_wf {β : Type} (f : State → β → State) (hf : ∀ s b, s.m.mem.wf = true → (f s b).m.mem.wf = true) :
    ∀ (l : List β) (s : State), s.m.mem.wf = true → (l.foldl f s).m.mem.wf = true
  | [], _, h => h
  | x :: t, s, h => foldl_wf f hf t _ (hf s x h)

theorem foldl_m {β : Type} (f : State → β → State) (hf : ∀ s b, (f s b).m = s.m) :
    ∀ (l : List β) (s : State), (l.foldl f s).m = s.m
  | [], _ => rfl
  | x :: t, s => by rw [List.foldl_cons, foldl_m f hf t, hf]

@[simp] theorem State.setL1_mem (s : State) (core : Nat) (l : SMap L1Line) : (s.setL1 core l).m.mem = s.m.mem := rfl
@[simp] theorem State.eraseL1_mem (s : State) (core k : Nat) : (s.eraseL1 core k).m.mem = s.m.mem := rfl
@[simp] theorem State.dropL2_mem (s : State) (line : Nat) : (s.dropL2 line).m.mem = s.m.mem := rfl
@[simp] theorem State.askHost_mem (s : State) (l : List Nat) (a : List Action) : (s.askHost l a).m.mem = s.m.mem := rfl
@[simp] theorem State.invCore_mem (s : State) (core : Nat) : (s.invCore core).m.mem = s.m.mem := rfl
@[simp] theorem State.atsUse_mem (s : State) (pa : Nat) : (s.atsUse pa).m.mem = s.m.mem := rfl
@[simp] theorem State.tell_m (s : State) (line : Nat) (by_ : Writer) : (s.tell line by_).m = s.m := rfl
@[simp] theorem State.recordFault_m (s : State) (n : Nat) (fi : FaultInfo) : (s.recordFault n fi).m = s.m := rfl
@[simp] theorem Site.upd_m (w : Site) (s : State) (f : Group → Group) : (w.upd s f).m = s.m := rfl
@[simp] theorem Site.commit_m (w : Site) (s : State) (r : GroupRegs) : (w.commit s r).m = s.m := rfl
@[simp] theorem Site.commitCtl_m (w : Site) (s : State) (r : GroupRegs) : (w.commitCtl s r).m = s.m := rfl

@[simp] theorem State.padWrite_m (s : State) (team a : Nat) (b : List Byte) (by_ : Writer) : (s.padWrite team a b by_).m = s.m := by
  unfold State.padWrite; cases by_ <;> rfl

@[simp] theorem State.push_mem (s : State) (p : Path) (e : IngressEntry) : (s.push p e).m.mem = s.m.mem := by
  unfold State.push; simp only; split <;> rfl

/-- Making a write known changes no memory and no cache. -/
@[simp] theorem State.announce_m (s : State) (line : Nat) (by_ : Writer) : (s.announce line by_).m = s.m := by
  unfold State.announce State.watchHit
  rw [State.tell_m]
  split
  · exact foldl_m (fun (s' : State) (e : Nat × Nat) => (s'.staleRes e.1 e.2).unwatch e.1 e.2) (fun _ _ => rfl) _ _
  · rfl

/-- The faults of owners change no memory and no cache. -/
@[simp] theorem State.ownerFault_m (s : State) (core line ctx : Nat) (c : Cause) : (s.ownerFault core line ctx c).m = s.m := by
  unfold State.ownerFault
  exact foldl_m _ (fun s' e => by split <;> rfl) _ _

/-- Requests of the old generation that complete change no byte (01 R20). -/
@[simp] theorem State.oldOut_mem (s : State) (pa : Nat) : (s.oldOut pa).m.mem = s.m.mem := by
  unfold State.oldOut
  split
  · exact foldl_mem _ (fun s' p => by simp only; rw [foldl_mem _ (fun s'' e => by rw [State.announce_m])]) _ _
  · rfl

/-- An access at an L2 slice changes no byte. -/
@[simp] theorem State.l2AccessAs_mem (s : State) (rt : Retain) (ten : Nat) (ph : Phys) :
    (s.l2AccessAs rt ten ph).m.mem = s.m.mem := by
  unfold State.l2AccessAs
  split
  · rfl
  · exact State.oldOut_mem _ _

@[simp] theorem State.l2Access_mem (s : State) (ten : Nat) (ph : Phys) : (s.l2Access ten ph).m.mem = s.m.mem :=
  State.l2AccessAs_mem _ _ _ _

@[simp] theorem State.wbLine_mem (s : State) (core k : Nat) (l : L1Line) : (s.wbLine core k l).m.mem = s.m.mem := by
  unfold State.wbLine
  split
  · rfl
  · split <;> simp

/-- Writing lines of an L1 back changes no byte at its home: the bytes enter an ingress buffer. -/
@[simp] theorem State.wbWhere_mem (s : State) (core : Nat) (test : Nat → Bool) : (s.wbWhere core test).m.mem = s.m.mem := by
  unfold State.wbWhere
  exact foldl_mem _ (fun _ _ => State.wbLine_mem _ _ _ _) _ _

@[simp] theorem State.evictL1_mem (s : State) (core k : Nat) : (s.evictL1 core k).m.mem = s.m.mem := by
  unfold State.evictL1; split <;> simp

@[simp] theorem State.l1Room_mem (s : State) (core : Nat) : (s.l1Room core).m.mem = s.m.mem := by
  unfold State.l1Room; simp only; split
  · rfl
  · split <;> simp

@[simp] theorem State.loadFill_mem (s : State) (core ctx : Nat) (ph : Phys) (n : Nat) :
    (s.loadFill core ctx ph n).m.mem = s.m.mem := by
  unfold State.loadFill
  split
  · rfl
  · simp only
    split
    · simp
    · split <;> simp

@[simp] theorem State.refresh_mem (s : State) (core : Nat) (ph : Phys) : (s.refresh core ph).m.mem = s.m.mem := by
  unfold State.refresh; split <;> rfl

@[simp] theorem State.homeLoad_mem (s : State) (core ctx : Nat) (ph : Phys) : (s.homeLoad core ctx ph).m.mem = s.m.mem := by
  simp [State.homeLoad]

/-- Waiting for a collapse changes no byte. -/
@[simp] theorem State.joinCollapse_mem (s : State) (ctx : Nat) (act : Action) (ph : Phys) :
    (s.joinCollapse ctx act ph).m.mem = s.m.mem := by
  unfold State.joinCollapse; simp only; split <;> rfl

theorem State.collapseWait_mem {s s1 : State} {ctx : Nat} {act : Action} {phs : List Phys}
    (h : s.collapseWait ctx act phs = some s1) : s1.m.mem = s.m.mem := by
  unfold State.collapseWait at h
  split at h
  · simp at h
  · simp only [Option.some.injEq] at h
    subst h
    exact foldl_mem _ (fun _ _ => State.joinCollapse_mem _ _ _ _) _ _

/-! ### What keeps the canonical form -/

/-- A write at a home keeps the canonical form. -/
theorem State.writeHome_wf {s : State} (line key : Nat) (mask : BitVec 128) (data : BitVec 1024)
    (h : s.m.mem.wf = true) : (s.writeHome line key mask data).m.mem.wf = true := by
  unfold State.writeHome
  refine SMap.wf_foldl _ (fun m b hm => SMap.wf_set hm) _ ?_
  split
  · exact h
  · exact SMap.wf_foldl _ (fun m b hm => SMap.wf_set hm) _ h

theorem State.land_wf {s : State} (line key : Nat) (mask : BitVec 128) (data : BitVec 1024) (by_ : Writer)
    (h : s.m.mem.wf = true) : (s.land line key mask data by_).m.mem.wf = true := by
  simpa [State.land] using State.writeHome_wf line key mask data h

theorem State.landBytes_wf {s : State} (ph : Phys) (b : List Byte) (by_ : Writer) (h : s.m.mem.wf = true) :
    (s.landBytes ph b by_).m.mem.wf = true := by
  unfold State.landBytes; exact State.land_wf _ _ _ _ _ (by split <;> exact h)

/-- A write that leaves its buffer keeps the canonical form. -/
theorem State.leave_wf {s : State} (e : IngressEntry) (h : s.m.mem.wf = true) : (s.leave e).m.mem.wf = true := by
  unfold State.leave
  split
  · simpa using h
  · simp only
    split
    · exact State.land_wf _ _ _ _ _ (by simpa using h)
    · split <;> exact State.land_wf _ _ _ _ _ (by simpa using h)

theorem State.drainBuf_wf {s : State} (k : Nat) (test : IngressEntry → Bool) (h : s.m.mem.wf = true) :
    (s.drainBuf k test).m.mem.wf = true := by
  unfold State.drainBuf
  exact foldl_wf _ (fun _ e hs => State.leave_wf e hs) _ _ h

/-- A drain of a path keeps the canonical form. -/
theorem State.drainPath_wf {s : State} (p : Path) (test : IngressEntry → Bool) (h : s.m.mem.wf = true) :
    (s.drainPath p test).m.mem.wf = true := by
  unfold State.drainPath
  exact foldl_wf _ (fun _ b hs => State.drainBuf_wf _ _ hs) _ _ h

theorem State.coreStore_wf {s : State} (core ctx : Nat) (ph : Phys) (b : List Byte) (by_ : Writer) (h : s.m.mem.wf = true) :
    (s.coreStore core ctx ph b by_).m.mem.wf = true := by
  unfold State.coreStore
  split
  · exact State.landBytes_wf _ _ _ h
  · split
    · simp only; split <;> simpa using h
    · simpa using h

theorem State.throughStore_wf {s : State} (core ctx : Nat) (ph : Phys) (b : List Byte) (by_ : Writer)
    (h : s.m.mem.wf = true) : (s.throughStore core ctx ph b by_).m.mem.wf = true := by
  simpa [State.throughStore] using State.coreStore_wf core ctx ph b by_ h

theorem State.pathStore_wf {s : State} (p : Path) (ctx : Nat) (ph : Phys) (b : List Byte) (engine : Option Nat)
    (h : s.m.mem.wf = true) : (s.pathStore p ctx ph b engine).m.mem.wf = true := by
  unfold State.pathStore
  split
  · exact State.landBytes_wf _ _ _ h
  · simpa using h

theorem State.shortStore_wf {s : State} (p : Path) (ph : Phys) (b : List Byte) (by_ : Writer) (h : s.m.mem.wf = true) :
    (s.shortStore p ph b by_).m.mem.wf = true := State.landBytes_wf _ _ _ (State.drainPath_wf _ _ h)

theorem State.atomPrepare_wf {s : State} (core : Nat) (ph : Phys) (h : s.m.mem.wf = true) :
    (s.atomPrepare core ph).m.mem.wf = true := by
  have h1 : (s.wbWhere core fun x => x == l1Key (lineOf ph.pa) ph.key).m.mem.wf = true := by simpa using h
  have h2 := State.drainPath_wf .core (fun e => e.line == lineOf ph.pa) h1
  unfold State.atomPrepare
  simpa using h2

/-- An acquire keeps the canonical form. -/
theorem State.acquire_wf {s : State} (core scope : Nat) (h : s.m.mem.wf = true) : (s.acquire core scope).m.mem.wf = true := by
  unfold State.acquire
  simp only
  have h1 : (if scope = 5 then s.drainPath .host fun _ => true else s).m.mem.wf = true := by
    split
    · exact State.drainPath_wf _ _ h
    · exact h
  split <;> simpa using h1

theorem State.release_wf {s : State} (core scope : Nat) (h : s.m.mem.wf = true) : (s.release core scope).m.mem.wf = true := by
  unfold State.release
  simp only
  have h1 : (if 2 ≤ scope then s.wbCore core else s).m.mem.wf = true := by
    split
    · simpa [State.wbCore] using h
    · exact h
  split
  · exact State.drainPath_wf _ _ h1
  · exact h1

/-- Placing a word keeps the canonical form. -/
theorem State.place_wf {s : State} (word : W64) (h : s.m.mem.wf = true) : (s.place word).m.mem.wf = true := by
  have h1 : Memory.wf ((List.range 8).foldl (fun mem i =>
      SMap.set mem Memory.unlisted (bootPa + i) ((word >>> (8 * i)).setWidth 8)) s.m.mem) = true :=
    SMap.wf_foldl _ (fun m b hm => SMap.wf_set hm) _ h
  unfold State.place
  simp only
  split <;> exact h1

end Sys2Proof.Machine
end

