-- ==== Sys2Proof/Laws/Taken.lean ====
section
/-! SUPPORT. What taking a fault and taking a trap do, each said once. -/

namespace Sys2Proof

open Machine

/-- A fault of a word, where it may fault: the nest has its record, the team halts, the group issues nothing further, and
nothing else has changed. -/
theorem Site.fault_faulted {s : State} {w : Site} (ht : s.teams.find? w.team = some w.tm)
    (hg : w.tm.groups[w.grp]? = some w.g) (hb : w.blocked = false) (c : Cause) (addr : W64) :
    Faulted w s (w.fault s c addr) c addr := by
  have e : w.fault s c addr = ((s.recordFault w.tm.nest (w.faultInfo s c w.pc addr 0)).haltTeam w.team).updGroup w.team w.grp
      (fun g => g.fail w.pc) := by
    simp [Site.fault, Site.faultAs, hb]
  rw [e]
  refine ⟨rfl, fun k hk => ?_, ⟨listUpd (fun g => g.fail w.pc) w.grp w.tm.groups, ?_, ?_⟩, rfl⟩
  · show ((s.teams.upd w.team _).upd w.team _).find? k = _
    simp [SMap.find?_upd, hk]
  · show ((s.teams.upd w.team _).upd w.team _).find? w.team = _
    simp [SMap.find?_upd, ht]
  · rw [listUpd_getElem?]
    simp [hg, Group.fail]

/-- A blocked word has no effect on anything but its group (08 R165, 14 R250). -/
theorem Site.holdBack_only {s : State} {w : Site} (ht : s.teams.find? w.team = some w.tm)
    (hg : w.tm.groups[w.grp]? = some w.g) :
    OnlyGroup s (w.holdBack s) w.team w.grp w.tm (match w.g.spec with
      | some win => { w.g with spec := some { win with waits := true } }
      | none => { w.g with st := { w.g.st with haltedAt := some w.pc } }) := updGroup_only ht hg _

/-- The entry of a trap whose handler can be fetched: the trap registers and the slot as 14 R254 says, and nothing else. -/
theorem Site.enterTrap_entered {s : State} {w : Site} (ht : s.teams.find? w.team = some w.tm)
    (hg : w.tm.groups[w.grp]? = some w.g) (req : TrapReq) (h0 : (s.ctx w.ctx).handler ≠ 0)
    (hf : s.fetchError w.core w.ctx (s.ctx w.ctx).handler = none) :
    ∃ g, OnlyGroup s (w.enterTrap s req) w.team w.grp w.tm g ∧
      Entered w g req w.ps.repc (s.ctx w.ctx).handler := by
  refine ⟨w.g.enter w.slot req (s.ctx w.ctx).handler, ?_, ?_⟩
  · have e : w.enterTrap s req = w.upd s fun g => g.enter w.slot req (s.ctx w.ctx).handler := by
      simp only [Site.enterTrap, hf, Option.isSome_none, Bool.or_false, decide_eq_true_eq, if_neg h0]
    rw [e]; exact updGroup_only ht hg _
  · cases hs : w.slot <;>
      exact ⟨rfl, by simp [Group.enter, hs], by simp [Group.enter, hs], by simp [Group.enter, hs, Site.ps], rfl, rfl, rfl, rfl, rfl,
        by simp [Group.enter, hs, GroupRegs.setSlot, GroupRegs.slot, Site.mask, Site.ps],
        by simp [Group.enter, hs, GroupRegs.setSlot, GroupRegs.slot],
        by simp [Group.enter, GroupRegs.setSlot]⟩

end Sys2Proof
end

