-- ==== Sys2Proof/Tests/Slice0.lean ====
section
/-! SUPPORT. Tests: the words of the manual's tables decode to their assembly, ill-formed terms are refused, single steps give
the values that the manual works out, and for each statement that has hypotheses a state and operands that meet them together. -/

set_option Elab.async false

namespace Sys2Proof

open Machine

/-! ### Small states -/

/-- A team of one group at the first word, as the word issues. -/
def boot : State := { State.reset.place 0 with cur := some (.grp 0 0 false) }

/-- Its group. -/
def grp0 : Group := Group.start 0 (BitVec.ofNat 64 bootVa) 0

/-- Its site. -/
def site : Site := ⟨0, 0, false, bootTeam, grp0⟩

/-- The same with its team and its group changed. -/
def bootT (f : Team → Team) (g : Group → Group) : State :=
  boot.updTeam 0 fun t => f { t with groups := [g grp0] }

/-- The site of such a state. -/
def siteT (f : Team → Team) (g : Group → Group) : Site := ⟨0, 0, false, f { bootTeam with groups := [g grp0] }, g grp0⟩

/-- Its registers changed. -/
def regs (f : GroupRegs → GroupRegs) (g : Group) : Group := { g with r := f g.r }

/-- s0 and s1 hold the address of the mapped page. -/
def addr : GroupRegs → GroupRegs := fun r => r.wrS64 0 (BitVec.ofNat 64 bootVa)

/-- The guard of an unguarded word. -/
def all : Guard := ⟨false, 7⟩

/-- The guard that no lane passes. -/
def never : Guard := ⟨false, 0⟩

/-- A context with a handler that can be fetched. -/
def handled (s : State) : State := s.updCtx 1 fun c => { c with handler := BitVec.ofNat 64 bootVa }

theorem oks {α β ε : Type} {l : List α} {f : α → Except ε β} {g : α → β}
    (h : ∀ L ∈ l, (f L).toOption = some (g L)) : ∀ L ∈ l, f L = .ok (g L) := by
  intro L hL
  have h := h L hL
  cases hf : f L with
  | error e => rw [hf] at h; exact nomatch h
  | ok v => rw [hf] at h; exact congrArg _ (Option.some.inj h)
theorem ok1 {β ε : Type} {x : Except ε β} {v : β} (h : x.toOption = some v) : x = .ok v := by
  cases x with
  | error e => exact nomatch h
  | ok w => exact congrArg _ (Option.some.inj h)
theorem err1 {β ε : Type} {x : Except ε β} {e : ε} (h : (match x with | .error e => some e | .ok _ => none) = some e) :
    x = .error e := by
  cases x with
  | error w => exact congrArg _ (Option.some.inj h)
  | ok v => exact nomatch h
theorem ex1 {β ε : Type} {x : Except ε β} (h : x.toOption.isSome = true) : ∃ v, x = .ok v := by
  cases x with
  | error e => exact nomatch h
  | ok w => exact ⟨w, rfl⟩
theorem exP {β ε : Type} {x : Except ε β} (P : β → Prop) [∀ v, Decidable (P v)]
    (h : (match x with | .ok v => decide (P v) | .error _ => false) = true) : ∃ v, x = .ok v ∧ P v := by
  cases x with
  | error e => exact nomatch h
  | ok w => exact ⟨w, rfl, of_decide_eq_true h⟩

/-- A second mapped page, of the host window. -/
def hostPage (s : State) : State :=
  let tlb : List TlbEntry := [⟨1, bootVa / 4096, 1, bootPa / 4096, bootPa / 4096, 0, 0, true, true, false⟩,
    ⟨1, bootVa / 4096 + 1, 1, 2 ^ 42 / 4096, 2 ^ 42 / 4096, 0, 0, true, false, false⟩]
  { s with m := { s.m with l1tlb := s.m.l1tlb.put 0 tlb } }

/-- s0 and s1 hold an address. -/
def base (a : Nat) : GroupRegs → GroupRegs := fun r => r.wrS64 0 (BitVec.ofNat 64 a)

/-- They hold the mapped page, or that of the host window. -/
def mem0 : State := bootT id (regs (base bootVa))
def memSite : Site := siteT id (regs (base bootVa))
def host0 : State := hostPage (bootT id (regs (base (bootVa + 4096))))
def hostSite : Site := siteT id (regs (base (bootVa + 4096)))

/-- Where their bytes lie. -/
def phys (off : Nat) : Phys := ⟨bootPa + off, bootVa / 4096, 0, 0, false, false⟩
def hostPhys (off : Nat) : Phys := ⟨2 ^ 42 + off, bootVa / 4096 + 1, 0, 0, true, false⟩

/-- The virtual address of a byte of the mapped page. -/
def va (off : Nat) : W64 := BitVec.ofNat 64 (bootVa + off)

/-! ### Words of the manual's tables -/

/-- Every word of a list decodes to its assembly. -/
def spells (l : List (Nat × Instr)) : Bool := l.all fun x => decodeTableWord 64 x.1 == some x.2

/-- The words of the integer entries. -/
theorem test_words_integer : spells [
    (0b0000000010000011100000001000000100000001100000000001110000000000, .and ⟨⟨false, 7⟩, false, false, 1, 2, 3⟩),
    (0x01038080FFFF8038, .andi ⟨⟨false, 7⟩, false, 1, 1, 0xFFFF00⟩),
    (0x0183828303801D04, .bfi ⟨⟨false, 7⟩, false, false, 5, 6, 7, 8, 4⟩),
    (0x0203828300000088, .bfx ⟨⟨false, 7⟩, false, true, 5, 6, 4, 8⟩),
    (0x0283810180001C00, .brev ⟨⟨false, 7⟩, false, 2, 3⟩),
    (0x0303820280005C00, .clz ⟨⟨false, 7⟩, true, 4, 5⟩),
    (0x0383820280000000, .iabs ⟨⟨false, 7⟩, false, .i32, 4, 5⟩),
    (0x0403820283000000, .iadd ⟨⟨false, 7⟩, false, false, .i32, false, 4, 5, 6⟩),
    (0x0403810182004000, .iadd ⟨⟨false, 7⟩, true, false, .i32, false, 2, 3, 4⟩),
    (0x04838383FFFFFE80, .iaddi ⟨⟨false, 7⟩, false, .i32, false, 7, 7, 0xFFFFFD⟩),
    (0x0503820283038000, .imad ⟨⟨false, 7⟩, false, false, .i32, 4, 5, 6, 7⟩),
    (0x0583820283000000, .imax ⟨⟨false, 7⟩, false, false, .i32, 4, 5, 6⟩),
    (0x0603820283000400, .imin ⟨⟨false, 7⟩, false, false, .n32, 4, 5, 6⟩),
    (0x0683820283000000, .imul ⟨⟨false, 7⟩, false, false, .i32, 4, 5, 6⟩),
    (0x0703820283000400, .imulh ⟨⟨false, 7⟩, false, false, .n32, 4, 5, 6⟩),
    (0x0783820280000000, .ineg ⟨⟨false, 7⟩, false, .i32, 4, 5⟩),
    (0x0803808083000002, .isetp ⟨⟨false, 7⟩, false, .i32, .lt, 1, 1, 6⟩),
    (0x0883820283000000, .isub ⟨⟨false, 7⟩, false, false, .i32, false, 4, 5, 6⟩),
    (0x0903820200800402, .lea ⟨⟨false, 7⟩, false, false, false, 4, 4, 1, 2⟩),
    (0x0983818100001C00, .mov ⟨⟨false, 7⟩, .vv, 3, 2⟩),
    (0x0983818005003C00, .mov ⟨⟨false, 7⟩, .vs, 3, 10⟩),
    (0x0A038A1FC0000000, .movi ⟨⟨false, 7⟩, false, 20, 0x3F800000⟩),
    (0x0A83810180001C00, .not ⟨⟨false, 7⟩, false, 2, 3⟩),
    (0x0B03808101801C00, .or ⟨⟨false, 7⟩, false, false, 1, 2, 3⟩),
    (0x0B83808080007FB8, .ori ⟨⟨false, 7⟩, false, 1, 1, 255⟩),
    (0x0C03818081000008, .plop ⟨⟨false, 7⟩, 3, 1, 2, 8⟩),
    (0x0C83820280001C00, .popc ⟨⟨false, 7⟩, false, 4, 5⟩),
    (0x0D03820283001C00, .rot ⟨⟨false, 7⟩, false, .b32, 4, 5, .reg false 6⟩),
    (0x0D83820283000000, .sar ⟨⟨false, 7⟩, false, .i32, 4, 5, .reg false 6⟩),
    (0x0E03810182009C00, .sel ⟨⟨false, 7⟩, false, 2, 3, 4, 1⟩),
    (0x0E83830080000424, .shl ⟨⟨false, 7⟩, false, .n32, 6, 1, .imm 4⟩),
    (0x0F0384840000443F, .shr ⟨⟨false, 7⟩, true, .n32, 9, 8, .imm 31⟩),
    (0x0F83808101801C00, .xor ⟨⟨false, 7⟩, false, false, 1, 2, 3⟩),
    (0x10038080FFFFFFB8, .xori ⟨⟨false, 7⟩, false, 1, 1, 0xFFFFFF⟩)] = true := by decide

/-- The words of the float entries. -/
theorem test_words_float : spells [
    (0b0001000100000011100000011000000100000000000000000001000000000000, .fabs ⟨⟨false, 7⟩, false, .f32, 3, 2⟩),
    (0x118384080C001000, .fadd ⟨⟨false, 7⟩, false, false, .fpmode, 8, 16, 24⟩),
    (0x1203820280001000, .fclass ⟨⟨false, 7⟩, 4, 5⟩),
    (0x1283820280001000, .fcos ⟨0, ⟨false, 7⟩, 4, 5⟩),
    (0x1313820283001000, .fdiv ⟨2, ⟨false, 7⟩, false, .fpmode, 4, 5, 6⟩),
    (0x1383820283039400, .fdot2 ⟨⟨false, 7⟩, false, .fpmode, 4, 5, 6, 7⟩),
    (0x1403820280001000, .fexp2 ⟨0, ⟨false, 7⟩, 4, 5⟩),
    (0x1483870D08071000, .ffma ⟨⟨false, 7⟩, false, false, .fpmode, 14, 26, 16, 14⟩),
    (0x1503820280001000, .flog2 ⟨0, ⟨false, 7⟩, 4, 5⟩),
    (0x1583820283001000, .fmax ⟨⟨false, 7⟩, false, false, 4, 5, 6⟩),
    (0x1603820283001000, .fmin ⟨⟨false, 7⟩, false, false, 4, 5, 6⟩),
    (0x1685050586001000, .fmul ⟨⟨true, 2⟩, false, false, .fpmode, 10, 11, 12⟩),
    (0x17038D8D00001000, .fneg ⟨⟨false, 7⟩, false, .f32, 27, 26⟩),
    (0x1783820280001000, .frcp ⟨0, ⟨false, 7⟩, .fpmode, 4, 5⟩),
    (0x1803820280001002, .frnd ⟨⟨false, 7⟩, false, .rtz, 4, 5⟩),
    (0x1883820280001000, .frsq ⟨0, ⟨false, 7⟩, .fpmode, 4, 5⟩),
    (0x1903810C0E001002, .fsetp ⟨⟨false, 7⟩, false, .lt, 2, 24, 28⟩),
    (0x1983820280001000, .fsin ⟨0, ⟨false, 7⟩, 4, 5⟩),
    (0x1A03820280001000, .fsqrt ⟨0, ⟨false, 7⟩, .fpmode, 4, 5⟩),
    (0x1A83820283001002, .fsub ⟨⟨false, 7⟩, false, false, .rtz, 4, 5, 6⟩),
    (0x1B03820280001000, .ftanh ⟨0, ⟨false, 7⟩, 4, 5⟩),
    (0x1B83820283039400, .hfma2 ⟨⟨false, 7⟩, false, false, .fpmode, 4, 5, 6, 7⟩)] = true := by decide

/-- The words of the convert entries. -/
theorem test_words_convert : spells [
    (0b0001110000000011100001010000000000000000000000000000000000001010, .amaxrd ⟨10, 2, true⟩),
    (0x1C83818118001C09, .cvt ⟨⟨false, 7⟩, false, true, .rne, .e4m3, .f32, 3, 2⟩),
    (0x1D03858485001002, .cvtd ⟨⟨false, 7⟩, false, 11, 9, 10, 2⟩),
    (0x1D83848400051002, .cvtq ⟨⟨false, 7⟩, 9, 8, 10, 2⟩),
    (0x1E03800000000080, .fmode (.imm 128)),
    (0x1E03800380000200, .fmode (.reg 7)),
    (0x1E8382830380100B, .pack ⟨⟨false, 7⟩, false, 5, 6, 7, 3, 1⟩),
    (0x1F03800180000000, .seed ⟨⟨false, 7⟩, 3⟩),
    (0x1F83828300001013, .unpk ⟨⟨false, 7⟩, 5, 6, 3, 2⟩)] = true := by decide

/-- The words of the lane entries. -/
theorem test_words_lane : spells [
    (0b0010000000000011100000110000010010000000000000000001110000010001, .bcast ⟨6, 9, 17⟩),
    (0x2083800000000008, .ltile ⟨8⟩),
    (0x21038A8A00001001, .redux ⟨⟨false, 7⟩, .fadd, .f32, 21, 20⟩),
    (0x2183830280000008, .scan ⟨⟨false, 7⟩, .add, .i32, true, 6, 5⟩),
    (0x2203848400001C0E, .shfl ⟨⟨false, 7⟩, .down, 9, 8, .imm 1⟩),
    (0x2283818080000002, .vote ⟨⟨false, 7⟩, .ballot, 3, 1⟩),
    (0x2313858000001C03, .xrecv ⟨2, 11, 3⟩),
    (0x2383800500001C03, .xsend ⟨10, 3⟩)] = true := by decide

/-- The words of the control entries. -/
theorem test_words_control : spells [
    (0b0010010000000000100000000000000000000000000000010000000000000000, .bra ⟨⟨false, 1⟩, 2⟩),
    (0x2483848000018001, .brau ⟨9, true, 3⟩),
    (0x2503800000050000, .call ⟨10⟩),
    (0x2583800000000000, .endw),
    (0x2603800000000000, .exitw ⟨false, 7⟩),
    (0x2683800180000000, .itemq ⟨⟨false, 7⟩, 3⟩),
    (0x2703800000000000, .joinw),
    (0x2783810000028000, .looph ⟨2, 5⟩),
    (0x2803800000020000, .mjoin ⟨4⟩),
    (0x2883800000000000, .nop ⟨false, 7⟩),
    (0x2903800006480000, .rep ⟨3, 1, 1, 0, 0⟩),
    (0x2983800000000000, .ret)] = true := by decide

/-- The words of the memory entries. -/
theorem test_words_memory : spells [
    (0b0010110000000011100000110000000100000011100000000010000110010100, .atom ⟨0, ⟨false, 7⟩, .add, .b32, .dev, .rlx, false, 6, 2, 7, 8⟩),
    (0x2C00810B018002D4, .atom ⟨0, ⟨false, 1⟩, .add, .b32, .sys, .rlx, true, 2, 22, 3, 0⟩),
    (0x2C80810B01800154, .atoms ⟨0, ⟨false, 1⟩, .add, .b32, .clus, .rlx, true, 2, 22, 3, 0⟩),
    (0x2D03808100020000, .cctl ⟨⟨false, 7⟩, .wb, false, false, 2, 0, 128⟩),
    (0x2D93840100010191, .ld ⟨2, ⟨false, 7⟩, .b32, .dev, .acq, false, 8, 2, 64⟩),
    (0x2E038E0D80082010, .lds ⟨0, ⟨false, 7⟩, .b32, .grp, .plain, false, 28, 27, 0x208⟩),
    (0x2E838A0100000060, .ldu ⟨0, .b128, .grp, .plain, 20, 2, 0⟩),
    (0x2F03851006070C6D, .mwait ⟨0, .n64, .ge, 5, 1, 10, 32, 12, 14⟩),
    (0x2F83808100040000, .pref ⟨⟨false, 7⟩, 1, false, 2, 0x100⟩),
    (0x30038001008001D2, .st ⟨⟨false, 7⟩, .b32, .dev, .rel, true, 2, 1, 0⟩),
    (0x3083800304000020, .sts ⟨⟨false, 7⟩, .b128, .grp, .plain, false, 6, 8, 0⟩)] = true := by decide

/-- The words of the sync entries. -/
theorem test_words_sync : spells [
    (0b0011010000000011100000000000000000000000000000000000000000000000, .bar),
    (0x3483800B80000001, .barv ⟨23, 1⟩),
    (0x3503820B8C000000, .binit ⟨4, 23, 24⟩),
    (0x3583800B80000000, .binv ⟨23⟩),
    (0x3603820B80000000, .bwait ⟨4, 23, false⟩),
    (0x3683800000000000, .cbar),
    (0x3703800000000003, .fence ⟨.dev, false⟩),
    (0x3783800000000000, .nbar),
    (0x3803800203000005, .sigop ⟨.sub, true, 4, 6⟩),
    (0x3883810080000000, .xfence ⟨2, 1⟩)] = true := by decide

/-- The words of the nest entries. -/
theorem test_words_nest : spells [
    (0b0011110000000011100000001000011010000000000000000000000000000000, .nbnd ⟨1, 0, 13⟩),
    (0x3C83818A0B0C0014, .nlaunch ⟨3, 20, 22, 24, 20⟩),
    (0x3D03850000000000, .nqry ⟨0, 0, 10⟩)] = true := by decide

/-- The words of the matrix entries. -/
theorem test_words_matrix : spells [
    (0b0100000000000011100000000000101000001010100010110000000000000001, .mxDist ⟨⟨false, 7⟩, 20, 21, 22, 1⟩),
    (0x4083800E0B800000, .mxDrain ⟨28, 23⟩),
    (0x41038D0A00000000, .mxRalloc ⟨0, 26, 20⟩),
    (0x4183800D00000000, .mxRevoke ⟨26⟩),
    (0x4203800D0A8B8001, .mxRload ⟨26, 21, 23, 1⟩),
    (0x4283800D00000001, .mxRpin ⟨26, true⟩),
    (0x43038D8D00000000, .mxRqry ⟨0, 27, 26⟩),
    (0x4383800A0A8B0001, .mxRun ⟨⟨false, 7⟩, 20, 21, 22, 1⟩),
    (0x4403800E0B800000, .mxTopk ⟨28, 23⟩),
    (0x4483800E0B800000, .mxZero ⟨28, 23⟩)] = true := by decide

/-- The words of the fork entries. -/
theorem test_words_fork : spells [
    (0b0100100000000011100100110001000100010010000000000000000000000000, .fork ⟨0, 38, 34, 36⟩),
    (0x4883831300000000, .rdv ⟨6, 38⟩)] = true := by decide

/-- The words of the engine entries. -/
theorem test_words_engine : spells [
    (0b0100110000000011100000000000000100000000000000000000000000000000, .a2av ⟨2⟩),
    (0x4C83800100000000, .aredc ⟨2⟩),
    (0x4D03800100000000, .esort ⟨2⟩),
    (0x4D83820100000000, .gather ⟨0, 4, 2⟩),
    (0x4E03800100000000, .scatter ⟨2⟩)] = true := by decide

/-- The words of the system entries. -/
theorem test_words_system : spells [
    (0b0101000000000011100000000000000000000000000000000000100100000000, .bkpt ⟨⟨false, 7⟩, 18⟩),
    (0x5083800000004010, .srd ⟨⟨false, 7⟩, true, 0, 16⟩),
    (0x5103800380000020, .swr ⟨7, 32⟩),
    (0x5183800000000280, .trapw ⟨⟨false, 7⟩, 5⟩),
    (0x5203800000000000, .tret),
    (0x5283800000000000, .yieldw)] = true := by decide

/-- The words of the sluice entries. -/
theorem test_words_sluice : spells [
    (0b0110000000000011100000001000100100000000000000000000000000000100, .slAdd ⟨1, 1, .imm 4⟩),
    (0x6083801900000001, .slArrive ⟨3, 1⟩),
    (0x6103802800000004, .slBmexp ⟨0, 1, 5⟩),
    (0x6183880000000010, .slBr ⟨.t, 16⟩),
    (0x6203800000000002, .slCbload ⟨2⟩),
    (0x6283804100000004, .slCmp ⟨.eq, 8, .imm 4⟩),
    (0x6303800000000000, .slEnd ⟨0⟩),
    (0x6383988000000000, .slIdx ⟨3, 1, 0, 0⟩),
    (0x64038038FFFFFFF0, .slLoop ⟨7, 0xFFFFFFF0⟩),
    (0x648386580000003D, .slMad ⟨12, 11, 13, 3⟩),
    (0x6503808100002000, .slMov ⟨1, .imm 0x2000⟩),
    (0x6583832800000000, .slSegnext ⟨6, 5⟩),
    (0x6603801000000070, .slSetd ⟨0, 7, 2⟩),
    (0x6683A82000000005, .slSignal ⟨.sub, true, 4, 5⟩),
    (0x6703803000000007, .slStamp ⟨6, 7⟩),
    (0x6783801800000001, .slWait ⟨3, true⟩),
    (0x6803800000000004, .slXfer ⟨0, 1, .copy⟩)] = true := by decide

/-- Pair words of every first half-opcode, laid out by 04 Tables 4-7 and 4-8; the first is that of 04 Table 4-9. -/
theorem test_words_pair : spells [
    (0b1000000000001000000010100111000001001000001001000000111011100000, .halfIadd ⟨⟨4, 5, false, ⟨false, 7⟩⟩, .fmul, ⟨9, 3, true, ⟨false, 7⟩⟩⟩),
    (0x82080A700C27FB20, .halfIsub ⟨⟨4, 5, false, ⟨false, 7⟩⟩, .or, ⟨9, 0xFE, true, ⟨true, 1⟩⟩⟩),
    (0x84080A702027FB20, .halfAnd ⟨⟨4, 5, false, ⟨false, 7⟩⟩, .imin, ⟨9, 0xFE, true, ⟨true, 1⟩⟩⟩),
    (0x86080A704427FB20, .halfOr ⟨⟨4, 5, false, ⟨false, 7⟩⟩, .fsub, ⟨9, 0xFE, true, ⟨true, 1⟩⟩⟩),
    (0x88080A700427FB20, .halfXor ⟨⟨4, 5, false, ⟨false, 7⟩⟩, .isub, ⟨9, 0xFE, true, ⟨true, 1⟩⟩⟩),
    (0x8A080A701827FB20, .halfShl ⟨⟨4, 5, false, ⟨false, 7⟩⟩, .shr, ⟨9, 0xFE, true, ⟨true, 1⟩⟩⟩),
    (0x8C080A702C27FB20, .halfShr ⟨⟨4, 5, false, ⟨false, 7⟩⟩, .imul, ⟨9, 0xFE, true, ⟨true, 1⟩⟩⟩),
    (0x8E080A705027FB20, .halfSar ⟨⟨4, 5, false, ⟨false, 7⟩⟩, .fmax, ⟨9, 0xFE, true, ⟨true, 1⟩⟩⟩),
    (0x90080A701027FB20, .halfImin ⟨⟨4, 5, false, ⟨false, 7⟩⟩, .xor, ⟨9, 0xFE, true, ⟨true, 1⟩⟩⟩),
    (0x92080A702427FB20, .halfImax ⟨⟨4, 5, false, ⟨false, 7⟩⟩, .imax, ⟨9, 0xFE, true, ⟨true, 1⟩⟩⟩),
    (0x94080A704827FB20, .halfMov ⟨⟨4, 5, false, ⟨false, 7⟩⟩, .fmul, ⟨9, 0xFE, true, ⟨true, 1⟩⟩⟩),
    (0x96080A700827FB20, .halfImul ⟨⟨4, 5, false, ⟨false, 7⟩⟩, .and, ⟨9, 0xFE, true, ⟨true, 1⟩⟩⟩),
    (0xA0080A701C27FB20, .halfFadd ⟨⟨4, 5, false, ⟨false, 7⟩⟩, .sar, ⟨9, 0xFE, true, ⟨true, 1⟩⟩⟩),
    (0xA2080A704027FB20, .halfFsub ⟨⟨4, 5, false, ⟨false, 7⟩⟩, .fadd, ⟨9, 0xFE, true, ⟨true, 1⟩⟩⟩),
    (0xA4080A700027FB20, .halfFmul ⟨⟨4, 5, false, ⟨false, 7⟩⟩, .iadd, ⟨9, 0xFE, true, ⟨true, 1⟩⟩⟩),
    (0xA6080A701427FB20, .halfFmin ⟨⟨4, 5, false, ⟨false, 7⟩⟩, .shl, ⟨9, 0xFE, true, ⟨true, 1⟩⟩⟩),
    (0xA8080A702827FB20, .halfFmax ⟨⟨4, 5, false, ⟨false, 7⟩⟩, .mov, ⟨9, 0xFE, true, ⟨true, 1⟩⟩⟩)] = true := by decide

/-! ### Ill-formed terms -/

/-- Every term of a list is refused. -/
def refused (l : List Instr) : Bool := l.all fun i => !WellFormed i

/-- A guarded uniform word, and the other misuses of G, UNI and BU (04 R69, R76, R77). -/
theorem test_ill_guards : refused [
    .nop ⟨true, 7⟩, .not ⟨never, true, 2, 3⟩, .and ⟨all, true, true, 2, 3, 4⟩, .iadd ⟨all, true, true, .i32, false, 2, 3, 4⟩,
    .movi ⟨never, true, 2, 0⟩, .mov ⟨never, .ss, 2, 3⟩, .shl ⟨all, true, .b32, 2, 3, .reg true 4⟩, .fadd ⟨never, true, false, .rne, 2, 3, 4⟩,
    .srd ⟨never, true, 2, 1⟩] = true := by decide

/-- Types and codes that an entry does not accept (20, 21, 22, 23). -/
theorem test_ill_codes : refused [
    .iabs ⟨all, false, .n32, 2, 3⟩, .fneg ⟨all, false, .i32, 2, 3⟩, .imax ⟨all, false, false, .f32, 2, 3, 4⟩,
    .imul ⟨all, false, false, .i64, 2, 4, 6⟩, .iaddi ⟨all, false, .i64, false, 2, 4, 1⟩, .isetp ⟨all, false, .b32, .eq, 1, 2, 3⟩,
    .cvtq ⟨all, 2, 3, 2, 0⟩, .fmode (.imm 5), .fmode (.imm 0x10), .ltile ⟨3⟩, .redux ⟨all, .add, .f32, 2, 3⟩,
    .scan ⟨all, .xor, .i32, false, 2, 3⟩, .vote ⟨all, .any, 8, 1⟩, .xrecv ⟨0, 2, 16⟩, .xsend ⟨2, 16⟩, .rep ⟨4, 5, 0, 0, 0⟩,
    .barv ⟨2, 0⟩, .xfence ⟨0, 1⟩, .xfence ⟨1, 64⟩, .nbnd ⟨1, 1, 2⟩, .nlaunch ⟨1, 2, 4, 6, 6⟩, .srd ⟨all, false, 2, 0x14⟩,
    .srd ⟨all, true, 2, 0⟩, .swr ⟨2, 0x030⟩, .slArrive ⟨1, 0⟩, .slSegnext ⟨3, 3⟩, .slSetd ⟨0, 12, 1⟩, .deviceReset] = true := by
  decide

/-- Sizes, orders and scopes that a memory word does not accept (04 Table 4-5, 20 R314, R319, R337, 21 R368, 22 R377, 23 R433). -/
theorem test_ill_memory : refused [
    .atom ⟨0, all, .add, .b16, .dev, .rlx, true, 2, 4, 6, 0⟩, .atom ⟨0, all, .fadd, .b64, .dev, .rlx, true, 2, 4, 6, 0⟩,
    .atom ⟨0, all, .add, .b32, .dev, .plain, true, 2, 4, 6, 0⟩, .atoms ⟨0, all, .add, .b32, .dev, .rlx, true, 2, 4, 6, 0⟩,
    .cctl ⟨all, .inv, false, true, 4, 6, 0⟩, .ld ⟨0, all, .b32, .grp, .rel, true, 2, 4, 0⟩,
    .ld ⟨0, all, .b32, .dev, .plain, true, 2, 4, 0⟩, .ld ⟨0, all, .b8, .dev, .rlx, true, 2, 4, 0⟩,
    .lds ⟨0, all, .b32, .dev, .acq, true, 2, 4, 0⟩, .ldu ⟨0, .b16, .dev, .rlx, 2, 4, 0⟩,
    .mwait ⟨0, .f32, .eq, 1, 0, 2, 4, 6, 8⟩, .st ⟨all, .b32, .dev, .acq, true, 4, 6, 0⟩,
    .sts ⟨all, .b32, .dev, .rel, true, 4, 6, 0⟩] = true := by decide

/-- Register fields that 03 R54 refuses: odd pairs, quads that are no multiple of four, s160, and p7 as a destination. -/
theorem test_ill_registers : refused [
    .iadd ⟨all, false, false, .i64, false, 3, 4, 6⟩, .ld ⟨0, all, .b128, .grp, .plain, true, 2, 4, 0⟩,
    .ld ⟨0, all, .b32, .grp, .plain, true, 2, 5, 0⟩, .movi ⟨all, true, 160, 0⟩, .isetp ⟨all, false, .i32, .eq, 7, 2, 3⟩,
    .amaxrd ⟨3, 0, false⟩] = true := by decide

/-- The three bank rules (04 R84): equal destination banks, three reads in a bank, and a second half that reads what the first
writes. -/
theorem test_ill_pairs : refused [
    .halfIadd ⟨⟨4, 5, false, all⟩, .iadd, ⟨8, 7, false, all⟩⟩,
    .halfIadd ⟨⟨4, 8, false, all⟩, .iadd, ⟨5, 12, false, all⟩⟩,
    .halfIadd ⟨⟨4, 5, false, all⟩, .iadd, ⟨6, 4, false, all⟩⟩] = true := by decide

/-! ### Words that decoding refuses -/

/-- An opcode of no entry, a reserved bit and a field that the entry does not use: none decodes
(04 R67, R85). -/
theorem test_refused_words : [
    0, 0x7F83800000000000, 0x0403820283000080, 0x0403820283008000].all
      (fun x => (decodeTableWord 64 x).isNone) = true := by decide

/-! ### Witnesses -/

/-! ### Witnesses: each state and its operands meet the hypotheses of a statement, or of its clauses, together -/

theorem witness_LogicAndShiftResults : boot.site? = some site := by decide

theorem witness_BitFieldResults : boot.site? = some site := by decide

theorem witness_Integer32Results : ∃ f : BinS, boot.site? = some site ∧ f.ty = .i32 ∧ f.sat = false :=
  ⟨⟨all, false, false, .i32, false, 2, 0, 1⟩, by decide⟩

theorem witness_Integer64Results : ∃ f : BinS, boot.site? = some site ∧ f.ty = .n64 ∧ f.sat = false :=
  ⟨⟨all, false, false, .n64, false, 2, 0, 4⟩, by decide⟩

theorem witness_SaturatedResults : ∃ f : BinS, boot.site? = some site ∧ f.sat = true ∧ f.ty = .n64 :=
  ⟨⟨all, false, false, .n64, true, 2, 0, 4⟩, by decide⟩

theorem witness_PredicateAndMoveResults : ∃ (f : SetpI) (v : VoteF), boot.site? = some site ∧ f.ty = .n32 ∧
    v.kind = .ballot := ⟨⟨all, false, .n32, .lt, 1, 0, 1⟩, ⟨all, .ballot, 3, 1⟩, by decide⟩

/-- NANTRAP is 0. -/
def quiet : Group → Group := regs fun r => { r with fpm := 0 }

theorem quiet_meets : (bootT id quiet).site? = some (siteT id quiet) ∧ NoNanTrap (siteT id quiet) :=
  ⟨by decide, .inl (by decide)⟩

theorem witness_FloatWordResults : (bootT id quiet).site? = some (siteT id quiet) ∧ NoNanTrap (siteT id quiet) := quiet_meets

theorem witness_FloatLongResults : (bootT id quiet).site? = some (siteT id quiet) ∧ NoNanTrap (siteT id quiet) := quiet_meets

theorem witness_PairWordResults : (bootT id quiet).site? = some (siteT id quiet) ∧ NoNanTrap (siteT id quiet) := quiet_meets

theorem witness_ReduceWordResults : ∃ (f : LaneOp) (h : ScanF) (L : Nat),
    (bootT id quiet).site? = some (siteT id quiet) ∧ NoNanTrap (siteT id quiet) ∧
    f.ty ≠ .f32 ∧ f.op ≠ .fadd ∧ L < 32 ∧ ((siteT id quiet).active h.g).getLsbD L = true ∧ h.op = .add ∧ h.excl = false ∧
    (siteT id quiet).width ∣ 32 ∧ 0 < (siteT id quiet).width :=
  ⟨⟨all, .add, .i32, 1, 0⟩, ⟨all, .add, .i32, false, 1, 0⟩, 31, quiet_meets.1, quiet_meets.2, by decide⟩

/-- A NaN in v0 of lane 0, with NANTRAP. -/
def nan0 : Group → Group := regs fun r => r.wrV 0 0 0x7FC000FF

/-- The clip policy of the virtual device cuts system scope back, with its trap. -/
def clipping : State := handled { boot with vds := boot.vds.put 0 { boot.vd 0 with livePolicy := 3 } }

/-- Every format slot of the nest holds a word. -/
def slots (x : W32) (s : State) : State := s.updNest 0 fun n => { n with fslots := List.replicate 8 x }

/-- A group with a NaN, whose slots hold a word, and whose context has a handler. -/
def nanS (x : W32) : State := handled (slots x (bootT id nan0))

theorem nan_due : (nanS 8).site? = some (siteT id nan0) ∧ NanTrapDue (nanS 8) (siteT id nan0) :=
  ⟨rfl, by decide, by decide, rfl, by decide, rfl, by decide, by decide, by decide +kernel⟩

theorem nan_due_narrow : (nanS 3).site? = some (siteT id nan0) ∧ NanTrapDue (nanS 3) (siteT id nan0) :=
  ⟨rfl, by decide, by decide, rfl, by decide, rfl, by decide, by decide, by decide +kernel⟩

theorem witness_NanTraps :
    (∃ (s : State) (f : FenceF), s = clipping ∧ s.site? = some site ∧ site.unperformed = false ∧ site.blocked = false ∧
      site.g.t.inh = false ∧ site.g.pend = [] ∧ (site.slot = true → site.g.t.pend0 = none) ∧ site.fenceWaits s 4 = false ∧
      site.ps.repc = 0 ∧ f.spec = false ∧ site.clipped s f.scope = true ∧
      (s.vdNow (s.ctx site.ctx).vd).clipTrap = true ∧ (s.m.l1Of site.core).sorted = true ∧ (s.ctx site.ctx).handler ≠ 0 ∧
      ∃ s1, Released s site true 4 s1 ∧ s1.ctxs = s.ctxs ∧
        s1.fetchError site.core site.ctx (s.ctx site.ctx).handler = none) ∧
    (∃ (f : FBin) (h : FLongR), ∃ i g uni d sr n res, i = .fadd f ∧ RoundedWord (nanS 8) (siteT id nan0) i g uni d sr n res ∧
      (∃ L ∈ (siteT id nan0).doing g uni, (res L).nanOut = true) ∧
      ∃ i la g d sr res, i = .frcp h ∧ LongWord (siteT id nan0) i la g d sr res ∧
        ∃ L ∈ (siteT id nan0).lanes g, (res L).nanOut = true) ∧
    (∃ (f : CvtdF) (h : CvtqF), blockAccepts ((siteT id nan0).fslot (nanS 8) f.slot).fmt = true ∧
      (dequant ((siteT id nan0).fslot (nanS 8) f.slot) (siteT id nan0).mode.ftz ((siteT id nan0).g.r.draw 0)
        (((siteT id nan0).val32 f.bu f.b 0).toNat % 256) (((siteT id nan0).val32 false f.a 0).toNat %
          2 ^ fmtWidth ((siteT id nan0).fslot (nanS 8) f.slot).fmt)).nanOut = true ∧
      blockAccepts ((siteT id nan0).fslot (nanS 8) h.slot).fmt = true ∧
      ((List.range 32).map (cvtqIn (siteT id nan0) h)).any FVal.isNan = true) ∧
    (∃ f : PackF, narrowAccepts ((siteT id nan0).fslot (nanS 3) f.slot).fmt = true ∧
      f.pos.toNat < 16 / fmtWidth ((siteT id nan0).fslot (nanS 3) f.slot).fmt ∧
      ((packRes (nanS 3) (siteT id nan0) f 0).1.nanOut || (packRes (nanS 3) (siteT id nan0) f 0).2.nanOut) = true) ∧
    (∃ f : PairF, ((siteT id nan0).lanes f.h1.g).any (fun L => (pairOne (siteT id nan0) .fadd f L).nanOut) = true) :=
  ⟨⟨_, ⟨.sys, false⟩, rfl, by decide, by decide, by decide, by decide, by decide, by decide, by decide, by decide, by decide, by decide, by decide,
      by decide, by decide, _, rfl, by decide, by decide⟩,
    ⟨⟨all, false, false, .fpmode, 1, 0, 2⟩, ⟨0, all, .fpmode, 1, 0⟩, _, _, _, _, _, _, _, rfl, .fadd _, ⟨0, by decide, by decide⟩,
      _, _, _, _, _, _, rfl, .frcp _, ⟨0, by decide, by decide⟩⟩,
    ⟨⟨all, false, 2, 0, 0, 7⟩, ⟨all, 2, 0, 1, 7⟩, by decide +kernel⟩, ⟨⟨all, false, 2, 0, 1, 7, 1⟩, by decide +kernel⟩,
    ⟨⟨⟨0, 1, false, all⟩, .fadd, ⟨2, 1, false, all⟩⟩, by decide +kernel⟩⟩

theorem witness_PackedFormatResults :
    (∃ (f : UnpkF) (h : PackF), (slots 3 (bootT id quiet)).site? = some (siteT id quiet) ∧
      narrowAccepts ((siteT id quiet).fslot (slots 3 (bootT id quiet)) f.slot).fmt = true ∧
      f.idx.toNat < 32 / fmtWidth ((siteT id quiet).fslot (slots 3 (bootT id quiet)) f.slot).fmt ∧
      narrowAccepts ((siteT id quiet).fslot (slots 3 (bootT id quiet)) h.slot).fmt = true ∧
      h.pos.toNat < 16 / fmtWidth ((siteT id quiet).fslot (slots 3 (bootT id quiet)) h.slot).fmt ∧
      (siteT id quiet).g.spec = none) ∧
    (∃ (f : CvtdF) (h : CvtqF), (slots 8 (bootT id quiet)).site? = some (siteT id quiet) ∧
      blockAccepts ((siteT id quiet).fslot (slots 8 (bootT id quiet)) f.slot).fmt = true ∧
      blockAccepts ((siteT id quiet).fslot (slots 8 (bootT id quiet)) h.slot).fmt = true) ∧ NoNanTrap (siteT id quiet) :=
  ⟨⟨⟨all, 2, 0, 7, 3⟩, ⟨all, false, 2, 0, 1, 7, 1⟩, by decide⟩, ⟨⟨all, false, 2, 0, 1, 7⟩, ⟨all, 2, 0, 1, 7⟩, by decide⟩,
    quiet_meets.2⟩

theorem witness_ConversionFaults :
    (∃ f : CvtdF, boot.site? = some site ∧ site.blocked = false ∧ blockAccepts (site.fslot boot f.slot).fmt = false) ∧
    (∃ f : UnpkF, 32 / fmtWidth (site.fslot (slots 3 boot) f.slot).fmt ≤ f.idx.toNat ∧
      narrowAccepts (site.fslot (slots 3 boot) f.slot).fmt = true) ∧
    (∃ f : PackF, 16 / fmtWidth (site.fslot (slots 1 boot) f.slot).fmt ≤ f.pos.toNat ∧
      narrowAccepts (site.fslot (slots 1 boot) f.slot).fmt = true) :=
  ⟨⟨⟨all, false, 2, 0, 1, 7⟩, by decide⟩, ⟨⟨all, 2, 0, 7, 4⟩, by decide⟩, ⟨⟨all, false, 2, 0, 1, 7, 1⟩, by decide⟩⟩

theorem witness_ModeAndSeedResults : ∃ (x : Nest), boot.site? = some site ∧ boot.nests.find? site.tm.nest = some x ∧
    fpmOk 0x80 = true ∧ fpmOk 8 = false ∧ fpmOk 5 = false ∧ site.blocked = false := ⟨bootNest, by decide⟩

/-- An outstanding result of 7 for v4 of lane 31. -/
def owed : Pending := ⟨0, false, none, false, [], .value, [.v 4 31 7], 0, 0⟩

/-- An XRECV of slot 3 that waits. -/
def receiving : Pending := ⟨0, false, none, false, [], .recv 3 11, [], 0, 0⟩

theorem witness_ResultsAndQueuesServed :
    (∃ (tm : Team) (g : Group), (bootT id fun g => { g with pend := [owed] }).teams.find? 0 = some tm ∧
      tm.groups[0]? = some g ∧ g.pending? 0 = some owed ∧ owed.kind = .value ∧ g.w0 ≠ some .atEnd ∧ g.w1 ≠ some .atEnd) ∧
    (∃ (tm : Team) (g : Group),
      (bootT (fun t => { t with rdv := t.rdv.put 3 ⟨true, [5], [.recv 0 0]⟩ }) fun g => { g with pend := [receiving] }).teams.find? 0 =
        some tm ∧ tm.phase = .running ∧ (tm.rdvSlot 3).turn? = some (.recv 0 0) ∧ tm.groups[0]? = some g ∧
      g.pending? 0 = some receiving ∧ receiving.kind = .recv 3 11) ∧
    (∃ (tm : Team) (w : Site),
      (bootT (fun t => { t with rdv := t.rdv.put 3 ⟨false, [], [.send 0 false 10]⟩ }) id).teams.find? 0 = some tm ∧
      tm.phase = .running ∧ (tm.rdvSlot 3).turn? = some (.send 0 false 10) ∧
      (bootT (fun t => { t with rdv := t.rdv.put 3 ⟨false, [], [.send 0 false 10]⟩ }) id).siteAt 0 0 false = some w) ∧
    (∃ (tm : Team) (w : Site),
      (bootT (fun t => { t with itemWait := [⟨0, false, [9]⟩], itemq := List.replicate 1023 0 }) id).teams.find? 0 = some tm ∧
      tm.phase = .running ∧ tm.itemWait = ⟨0, false, [9]⟩ :: [] ∧
      (bootT (fun t => { t with itemWait := [⟨0, false, [9]⟩], itemq := List.replicate 1023 0 }) id).siteAt 0 0 false = some w ∧
      tm.itemq.length + 1 ≤ 1024) :=
  ⟨⟨_, _, rfl, rfl, by decide⟩, ⟨_, _, rfl, by decide, by decide, rfl, by decide⟩, ⟨_, _, rfl, by decide, by decide, rfl⟩,
    ⟨_, _, rfl, by decide, by decide, rfl, by decide +kernel⟩⟩

/-- p1 holds the low 16 lanes. -/
def halfP : GroupRegs → GroupRegs := fun r => { r with p := r.p.put 1 0xFFFF }

/-- The other slot is live, with the high lanes, and the issuing one has the low ones. -/
def both : GroupRegs → GroupRegs := fun r => { r with s0 := { r.s0 with mask := 0xFFFF }, s1 := ⟨0, 0xFFFF0000, 0⟩ }

/-- p1 holds the low 8 lanes. -/
def quarterP : GroupRegs → GroupRegs := fun r => { r with p := r.p.put 1 0xFF }

theorem witness_ControlWords :
    (∃ f : BraF, boot.site? = some site ∧ site.active f.g = site.mask) ∧
    (∃ f : BraF, site.active f.g = 0) ∧
    (∃ f : BraF, (bootT id (regs halfP)).site? = some (siteT id (regs halfP)) ∧ (siteT id (regs halfP)).active f.g ≠ 0 ∧
      (siteT id (regs halfP)).active f.g ≠ (siteT id (regs halfP)).mask ∧ (siteT id (regs halfP)).otherLive = false) ∧
    (∃ (w : Site) (f : BraF), (bootT id (regs fun r => quarterP (both r))).site? = some w ∧ w.active f.g ≠ 0 ∧
      w.active f.g ≠ w.mask ∧ (w.g.r.slot (!w.slot)).live = true ∧ w.g.r.join.length < 256) ∧
    (∃ (w : Site) (f : BraF), (bootT id (regs fun r =>
        { quarterP (both r) with join := List.replicate 256 (.path 0 0) })).site? = some w ∧ w.active f.g ≠ 0 ∧
      w.active f.g ≠ w.mask ∧ (w.g.r.slot (!w.slot)).live = true ∧ 256 ≤ w.g.r.join.length ∧ w.blocked = false) ∧
    (∃ (w : Site), (bootT id (regs fun r => { r with calls := [64], join := List.replicate 255 (.path 0 0) })).site? = some w ∧
      w.otherLive = false ∧ w.g.r.calls = (64 :: []) ∧ w.g.r.calls.length < 256 ∧ w.g.r.join.length < 256 ∧
      w.g.t.inh = false ∧ (w.g.r.slot (!w.slot)).live = false) ∧
    (∃ w : Site, (bootT id (regs both)).site? = some w ∧ (w.g.r.slot (!w.slot)).live = true) :=
  ⟨⟨⟨all, 0⟩, by decide⟩, ⟨⟨never, 0⟩, by decide⟩, ⟨⟨⟨false, 1⟩, 0⟩, by decide⟩, ⟨_, ⟨⟨false, 1⟩, 0⟩, rfl, by decide⟩,
    ⟨_, ⟨⟨false, 1⟩, 0⟩, rfl, by decide +kernel⟩, ⟨_, rfl, by decide +kernel⟩, ⟨_, rfl, by decide⟩⟩

theorem witness_ControlFaults :
    (∃ w : Site, (bootT id (regs fun r => { r with calls := List.replicate 256 0, join := List.replicate 256 (.path 0 0) })).site? =
      some w ∧ w.otherLive = false ∧ 256 ≤ w.g.r.calls.length ∧ 256 ≤ w.g.r.join.length ∧ w.blocked = false) ∧
    (boot.site? = some site ∧ site.otherLive = false ∧ site.g.r.calls = [] ∧ site.blocked = false ∧ site.g.r.join = []) ∧
    (∃ w : Site, (bootT id (regs both)).site? = some w ∧ w.otherLive = true) ∧
    (∃ w : Site, (bootT id (regs fun r => { r with join := [.mark 8 0xFF 0 false] })).site? = some w ∧ w.blocked = false ∧
      w.g.r.join = .mark 8 0xFF 0 false :: [] ∧ ((0xFF : W32) &&& w.mask) ≠ 0 ∧ (8 : W64) ≠ w.pc) :=
  ⟨⟨_, rfl, by decide +kernel⟩, by decide, ⟨_, rfl, by decide⟩, ⟨_, rfl, by decide⟩⟩

theorem witness_JoinWord :
    (∃ (w : Site) (e : W32), (bootT id (regs fun r => { r with join := [.mark r.s0.pc 0xFFFFFFFF 0 false] })).site? = some w ∧
      w.g.w0 ≠ some .atEnd ∧ w.g.w1 ≠ some .atEnd ∧ w.g.r.join = .mark w.pc e 0 false :: [] ∧ (e &&& w.mask) ≠ 0 ∧
      e = 0 ||| w.mask ∧ ([] : List JoinEntry).all (fun x => !x.complete) = true ∧
      ∀ p m l, ([] : List JoinEntry) ≠ .path p m :: l) ∧
    (∃ (w : Site) (e : W32),
      (bootT id (regs fun r => { both r with join := [.mark r.s0.pc 0xFFFFFFFF 0 false] })).site? = some w ∧
      w.g.w0 ≠ some .atEnd ∧ w.g.w1 ≠ some .atEnd ∧ w.g.r.join = .mark w.pc e 0 false :: [] ∧ (e &&& w.mask) ≠ 0 ∧
      e ≠ 0 ||| w.mask) :=
  ⟨⟨_, 0xFFFFFFFF, rfl, by decide, by decide, rfl, by decide, by decide, by decide, by simp⟩,
    ⟨_, 0xFFFFFFFF, rfl, by decide, by decide, rfl, by decide⟩⟩

/-- The only word in memory is a LOOPH, which is the loop head, and an item waits. -/
def looping : State := ({ State.reset.place (encode (.looph ⟨4, 2⟩)) with cur := some (.grp 0 0 false) } : State).updTeam 0 fun t =>
  { t with itemq := [7], groups := [regs (fun r => { r with loopHead := some (va 0) }) grp0] }

theorem witness_ExitAndEndWords :
    (boot.site? = some site ∧ site.active never = 0) ∧
    (∃ w : Site, (bootT id (regs halfP)).site? = some w ∧ w.active ⟨false, 1⟩ ≠ 0 ∧ w.active ⟨false, 1⟩ ≠ w.mask ∧
      w.g.r.join = [] ∧ w.g.w0 ≠ some .atEnd ∧ w.g.w1 ≠ some .atEnd) ∧
    (site.active all = site.mask ∧ site.g.t.inh = false ∧ site.g.pend = [] ∧ site.g.r.join = [] ∧ site.g.r.loopHead = none ∧
      (site.g.r.slot (!site.slot)).live = false) ∧
    (∃ w : Site, (bootT id fun g => { regs both g with w1 := some .atEnd }).site? = some w ∧ w.g.pend = [] ∧
      w.g.t.inh = false ∧ w.g.wait (!w.slot) = some .atEnd) ∧
    (∃ w : Site, (bootT id (regs both)).site? = some w ∧ w.g.pend = [] ∧ w.g.t.inh = false ∧
      (w.g.r.slot (!w.slot)).live = true ∧ w.g.wait (!w.slot) ≠ some .atEnd) ∧
    (∃ w : Site, (bootT id fun g => { g with t := { g.t with inh := true } }).site? = some w ∧ w.g.pend = [] ∧
      w.g.t.inh = true ∧ w.blocked = false) ∧
    (∃ (w : Site) (f : LoophF), (looping.site? = some w ∧ w.active all = w.mask ∧ w.g.pend = [] ∧ w.g.r.join = [] ∧
      w.g.r.loopHead = some (va 0) ∧ (w.g.r.slot (!w.slot)).live = false ∧ w.tm.itemq ≠ []) ∧
      looping.fetch w.core w.ctx (va 0) = .ok (encode (.looph f)) ∧
      decodeFor w.tm.shape.vregs (encode (.looph f)) = .ok (.looph f)) :=
  ⟨by decide, ⟨_, rfl, by decide⟩, by decide, ⟨_, rfl, by decide⟩, ⟨_, rfl, by decide⟩, ⟨_, rfl, by decide⟩,
    ⟨_, ⟨4, 2⟩, ⟨rfl, by decide⟩, ok1 (by decide +kernel), ok1 (by decide +kernel)⟩⟩

theorem witness_QueueWords :
    (∃ w : Site, (bootT id fun g => { g with pend := [receiving] }).site? = some w ∧ w.unperformed = true) ∧
    (∃ (f : GA) (h : GA), boot.site? = some site ∧ ((site.lanes f.g).map fun L => site.g.r.rdV f.a.toNat L) = [] ∧
      ((site.lanes h.g).map fun L => site.g.r.rdV h.a.toNat L) ≠ [] ∧ site.tm.itemWait = [] ∧
      site.tm.itemq.length + ((site.lanes h.g).map fun L => site.g.r.rdV h.a.toNat L).length ≤ 1024) ∧
    (∃ (w : Site) (f : GA), (bootT (fun t => { t with itemq := List.replicate 1000 0 }) id).site? = some w ∧
      ((w.lanes f.g).map fun L => w.g.r.rdV f.a.toNat L) ≠ [] ∧
      1024 < w.tm.itemq.length + ((w.lanes f.g).map fun L => w.g.r.rdV f.a.toNat L).length) ∧
    (∃ (w : Site), (bootT (fun t => { t with itemq := [5, 6] }) (regs fun r =>
        { r with s0 := { r.s0 with mask := 0xFF }, exited := 0xFFFFFF00 })).site? = some w ∧
      (((List.range 32).filter fun L => w.g.r.exited.getLsbD L).take w.tm.itemq.length)[1]? = some 9 ∧
      w.tm.itemq[1]? = some 6) ∧
    (∃ f : XsendF, (site.tm.rdvSlot f.slot.toNat).full = false ∧
      ∀ y ∈ (site.tm.rdvSlot f.slot.toNat).waiters, y.isSend = false) ∧
    (∃ w : Site, (bootT (fun t => { t with rdv := t.rdv.put 3 ⟨true, [5], [.send 0 true 0]⟩ }) id).site? = some w ∧
      (w.tm.rdvSlot 3).full = true ∧ ∀ y ∈ (w.tm.rdvSlot 3).waiters, y.isSend = true) :=
  ⟨⟨_, rfl, by decide⟩, ⟨⟨never, 3⟩, ⟨all, 3⟩, by decide⟩, ⟨_, ⟨all, 3⟩, rfl, by decide +kernel⟩, ⟨_, rfl, by decide⟩,
    ⟨⟨10, 3⟩, by decide⟩,
    ⟨_, rfl, by decide⟩⟩

theorem witness_HomeWriteReads : lineOf 128 = 1 ∧ lineOf 255 = 1 ∧ lineOf 256 ≠ 1 := by decide

theorem witness_LoadWords :
    (∃ f : LoadF, (mem0.site? = some memSite ∧ memSite.unperformed = false ∧ memSite.g.spec = none ∧ f.ord = .acq ∧
      NoClipTrap mem0 memSite f.scope ∧ memSite.lanes f.g ≠ [] ∧
      memSite.rejects mem0 (missLines (loadHit mem0 memSite f.scope f.ord f.sz.bytes)
        ((memSite.lanes f.g).map fun _ => phys 0x40)).length = false ∧
      mem0.heldElsewhere memSite.core ((memSite.lanes f.g).map fun _ => phys 0x40) = false) ∧
      (∀ L ∈ memSite.lanes f.g, memSite.devPhysIf mem0 .read (loadHit mem0 memSite f.scope f.ord f.sz.bytes) f.sz.bytes
        (memSite.devAddr f.as f.a f.off L) = .ok (phys 0x40))) ∧
    (∃ f : LduF, (NoClipTrap mem0 memSite f.scope ∧
      memSite.rejects mem0 (missLines (loadHit mem0 memSite f.scope f.ord f.sz.bytes) [phys 0]).length = false) ∧
      memSite.devPhysIf mem0 .read (loadHit mem0 memSite f.scope f.ord f.sz.bytes) f.sz.bytes
        (memSite.devAddr true f.a f.off 0) = .ok (phys 0)) ∧
    ((31 : Nat) < 32 ∧ ([1, 2, 3, 4] : List Byte).length = 4 ∧ (List.replicate 16 (0 : Byte)).length = 16) :=
  ⟨⟨⟨0, all, .b32, .sys, .acq, true, 8, 0, 0x40⟩, by decide +kernel, oks (by decide +kernel)⟩,
    ⟨⟨0, .b128, .grp, .plain, 20, 0, 0⟩, by decide +kernel, ok1 (by decide +kernel)⟩, by decide +kernel⟩

theorem witness_AccessFaults :
    (∃ (f : LoadF) (rest : List Nat), (mem0.site? = some memSite ∧ memSite.unperformed = false ∧ memSite.blocked = false ∧
      memSite.lanes f.g = [] ++ 0 :: rest) ∧
      memSite.devPhysIf mem0 .read (loadHit mem0 memSite f.scope f.ord f.sz.bytes) f.sz.bytes (memSite.devAddr f.as f.a f.off 0) =
        .error (.misalign, BitVec.ofNat 64 (bootVa + 2))) ∧
    (∃ (f : StoreF) (rest : List Nat), memSite.lanes f.g = [] ++ 0 :: rest ∧
      memSite.devPhysIf mem0 .write (storeHit mem0 memSite f.scope f.ord) f.sz.bytes (memSite.devAddr f.as f.a f.off 0) =
        .error (.xlateNp, 0xFFFFFFFFFFFFF000)) ∧
    (∃ (f : AtomF) (rest : List Nat), memSite.lanes f.g = [] ++ 0 :: rest ∧
      memSite.devPhys mem0 .write f.sz.bytes (memSite.devAddr f.as f.a f.off 0) =
        .error (.misalign, BitVec.ofNat 64 (bootVa + 4))) ∧
    (∃ (f : StoreF) (rest : List Nat), memSite.lanes f.g = [] ++ 0 :: rest ∧
      memSite.padPhys mem0 f.sz.bytes (memSite.padAddr f.as f.a f.off 0) = .error (.xlateNp, 0xFFFFFFFC)) ∧
    ((BitVec.ofNat 64 (bootVa + 2)).toNat % 4 ≠ 0 ∧ (0x1000000000000 : W64).toNat % 4 = 0 ∧
      2 ^ 48 ≤ (0x1000000000000 : W64).toNat) :=
  ⟨⟨⟨0, all, .b32, .grp, .plain, true, 8, 0, 2⟩, (List.range 32).tail, by decide +kernel, err1 (by decide +kernel)⟩,
    ⟨⟨all, .b32, .grp, .plain, true, 2, 1, 0x1000⟩, (List.range 32).tail, by decide +kernel, err1 (by decide +kernel)⟩,
    ⟨⟨0, all, .add, .b64, .dev, .ar, true, 2, 0, 4, 4⟩, (List.range 32).tail, by decide +kernel, err1 (by decide +kernel)⟩,
    ⟨⟨all, .b32, .grp, .plain, false, 2, 1, 0x1FFC⟩, (List.range 32).tail, by decide +kernel, err1 (by decide +kernel)⟩, by decide +kernel⟩

theorem witness_StoreWord :
    (∃ f : StoreF, (mem0.site? = some memSite ∧ memSite.unperformed = false ∧ memSite.g.spec = none ∧ f.ord = .rel ∧
      NoClipTrap mem0 memSite f.scope ∧ memSite.lanes f.g ≠ [] ∧ (phys 0).repl = false ∧ mem0.m.collapses = [] ∧
      holderScope (memSite.relScope f.ord (memSite.scopeRun mem0 f.scope)) = true ∧
      mem0.heldElsewhere memSite.core (((memSite.lanes f.g).map fun _ => phys 0).filter fun x => x.cp == 0) = false ∧
      (phys 0).host = false ∧ (phys 0).cp = 0 ∧ (phys 0).key < 256 ∧
      memSite.rejects mem0 (missLines (fun x => (mem0.l1Line? memSite.core x).isSome)
        ((memSite.lanes f.g).map fun _ => phys 0)).length = false) ∧
      (∀ L ∈ memSite.lanes f.g, memSite.devPhysIf mem0 .write (storeHit mem0 memSite f.scope f.ord) f.sz.bytes
        (memSite.devAddr f.as f.a f.off L) = .ok (phys 0)) ∧
      ∃ s1, StoreReady mem0 memSite f ((memSite.lanes f.g).map fun _ => phys 0) s1 ∧
        s1.rewritten (lineOf (phys 0).pa) = false ∧
        (s1.m.l1Of memSite.core).length + (memSite.lanes f.g).length ≤ s1.l1Lines memSite.core ∧
        (s1.m.l1Of memSite.core).sorted = true ∧
        (s1.m.l1Of memSite.core).find? (l1Key (lineOf (phys 0).pa) (phys 0).key) = none) ∧
    (∃ f : StoreF, (host0.site? = some hostSite ∧ f.ord = .plain ∧ NoClipTrap host0 hostSite f.scope ∧ (hostPhys 8).host = true ∧
      (hostPhys 8).repl = false ∧ host0.m.collapses = [] ∧
      holderScope (hostSite.relScope f.ord (hostSite.scopeRun host0 f.scope)) = false) ∧
      (∀ L ∈ hostSite.lanes f.g, hostSite.devPhysIf host0 .write (storeHit host0 hostSite f.scope f.ord) f.sz.bytes
        (hostSite.devAddr f.as f.a f.off L) = .ok (hostPhys 8)) ∧
      StoreReady host0 hostSite f ((hostSite.lanes f.g).map fun _ => hostPhys 8) host0) :=
  ⟨⟨⟨all, .b32, .clus, .rel, true, 0, 1, 0⟩, by decide +kernel, oks (by decide +kernel), _, rfl, by decide +kernel⟩,
    ⟨⟨all, .b64, .grp, .plain, true, 0, 2, 8⟩, by decide +kernel, oks (by decide +kernel), rfl⟩⟩

/-- A line of the pad is absent. -/
def lacking (t : Team) : Team := { t with absent := [(4, 1)] }

theorem witness_ScratchpadWords :
    (∃ f : LoadF, ((bootT lacking id).site? = some (siteT lacking id) ∧ (siteT lacking id).unperformed = false ∧
      (∃ L ∈ (siteT lacking id).lanes f.g, L = 5) ∧ (bootT lacking id).padAbsent 0 0x208 f.sz.bytes = true) ∧
      ∀ L ∈ (siteT lacking id).lanes f.g, (siteT lacking id).padPhys (bootT lacking id) f.sz.bytes
        ((siteT lacking id).padAddr f.as f.a f.off L) = .ok (0, 0x208)) ∧
    (∃ f : LoadF, (boot.site? = some site ∧ site.unperformed = false ∧ site.g.spec = none ∧ f.ord = .acq ∧
      boot.padAbsent 0 0x6FFFC f.sz.bytes = false) ∧
      (∀ L ∈ site.lanes f.g, site.padPhys boot f.sz.bytes (site.padAddr f.as f.a f.off L) = .ok (0, 0x208))) ∧
    (∃ f : StoreF, (f.ord = .rel ∧ boot.padAbsent 0 0x208 f.sz.bytes = false) ∧
      (∀ L ∈ site.lanes f.g, site.padPhys boot f.sz.bytes (site.padAddr f.as f.a f.off L) = .ok (0, 0x208)) ∧
      Released boot site (f.ord == .rel) f.scope.code boot) ∧
    (∃ f : AtomF, (f.sz = .b64 ∧ ordRel f.ord = true ∧ boot.padAbsent 0 8 f.sz.bytes = false) ∧
      (∀ L ∈ site.lanes f.g, site.padPhys boot f.sz.bytes (site.padAddr f.as f.a f.off L) = .ok (0, 8)) ∧
      ∃ s1, Released boot site (ordRel f.ord)
        (if (site.lanes f.g).any fun L => site.inPeer (site.padAddr f.as f.a f.off L) then max 2 f.scope.code
          else f.scope.code) s1) :=
  ⟨⟨⟨0, all, .b32, .team, .acq, true, 8, 0, 0x208⟩, by decide +kernel, oks (by decide +kernel)⟩,
    ⟨⟨0, all, .b32, .team, .acq, true, 8, 0, 0x208⟩, by decide +kernel, oks (by decide +kernel)⟩,
    ⟨⟨all, .b32, .team, .rel, true, 0, 1, 0x208⟩, by decide +kernel, oks (by decide +kernel), rfl⟩,
    ⟨⟨0, all, .add, .b64, .clus, .ar, true, 2, 0, 4, 8⟩, by decide +kernel, oks (by decide +kernel), _, rfl⟩⟩

/-- The L1 of the core holds the first line of the mapped page, with its low eight bytes dirty; lane 0 alone is active. -/
def dirtyLine : L1Line := ⟨0x77, BitVec.allOnes 128, 0xFF, 0, false, 1, bootVa / 4096, [(0, 0, false)]⟩
def holdsLine (s : State) : State := { s with m := { s.m with l1 := [(0, [(l1Key (lineOf bootPa) 0, dirtyLine)])] } }
def lane0 : Group → Group := regs fun r => { base bootVa r with s0 := { r.s0 with mask := 1 } }

theorem witness_AtomicWord :
    (∃ f : AtomF, (mem0.site? = some memSite ∧ memSite.unperformed = false ∧ f.sz = .b64 ∧ ordAcq f.ord = true ∧
      NoClipTrap mem0 memSite f.scope ∧ (phys 8).host = false ∧ (phys 8).repl = false ∧ mem0.m.collapses = [] ∧
      placeOf (phys 8).pa ≠ .host ∧ mem0.hostHolds (lineOf (phys 8).pa) = false ∧
      memSite.rejects mem0 (missLines (fun _ => false) ((memSite.lanes f.g).map fun _ => phys 8)).length = false ∧
      mem0.heldElsewhere memSite.core ((memSite.lanes f.g).map fun _ => phys 8) = false ∧
      ∀ x ∈ mem0.releaseLines memSite.core (memSite.scopeRun mem0 f.scope), mem0.hostHolds x = false) ∧
      (∀ L ∈ memSite.lanes f.g, memSite.devPhys mem0 .write f.sz.bytes (memSite.devAddr f.as f.a f.off L) = .ok (phys 8)) ∧
      ∃ s1, Released mem0 memSite (ordRel f.ord) (memSite.scopeRun mem0 f.scope) s1 ∧
        (s1.m.l1Of memSite.core).find? (l1Key (lineOf (phys 8).pa) (phys 8).key) = none ∧
        ∀ b < 4, ∀ e ∈ s1.m.buffer b .core, e.line ≠ lineOf (phys 8).pa) ∧
    (∃ f : AtomF, (host0.site? = some hostSite ∧ f.sz = .b32 ∧ f.op = .cas ∧ (hostPhys 0).host = true ∧
      placeOf (hostPhys 0).pa = .host ∧ NoClipTrap host0 hostSite f.scope ∧
      hostSite.rejects host0 (missLines (fun _ => false) ((hostSite.lanes f.g).map fun _ => hostPhys 0)).length = false) ∧
      (∀ L ∈ hostSite.lanes f.g, hostSite.devPhys host0 .write f.sz.bytes (hostSite.devAddr f.as f.a f.off L) =
        .ok (hostPhys 0)) ∧ Released host0 hostSite (ordRel f.ord) (hostSite.scopeRun host0 f.scope) host0) ∧
    (∃ f : AtomF, (let s := holdsLine (bootT id lane0)
      let w := siteT id lane0
      (s.site? = some w ∧ w.unperformed = false ∧ f.sz = .b32 ∧ NoClipTrap s w f.scope ∧ w.lanes f.g = [0] ∧
        s.m.collapses = [] ∧ s.hostHolds (lineOf (phys 4).pa) = false ∧ placeOf (phys 4).pa ≠ .host ∧
        w.rejects s (missLines (fun _ => false) [phys 4]).length = false ∧ s.heldElsewhere w.core [phys 4] = false ∧
        ordRel f.ord = false ∧ ordAcq f.ord = true ∧ w.scopeRun s f.scope ≠ 5 ∧ (s.m.l1Of w.core).sorted = true ∧
        (s.m.l1Of w.core).find? (l1Key (lineOf (phys 4).pa) (phys 4).key) = some dirtyLine ∧ dirtyLine.key = (phys 4).key ∧
        s.refusal w.core (l1Key (lineOf (phys 4).pa) 0) dirtyLine = none ∧
        ∀ b < 4, ∀ e ∈ s.m.buffer b .core, e.line ≠ lineOf (phys 4).pa) ∧
      w.devPhys s .write f.sz.bytes (w.devAddr f.as f.a f.off 0) = .ok (phys 4) ∧
      Released s w (ordRel f.ord) (w.scopeRun s f.scope) s)) :=
  ⟨⟨⟨0, all, .add, .b64, .dev, .ar, true, 2, 0, 4, 8⟩, by decide +kernel, oks (by decide +kernel), _, rfl, by decide +kernel⟩,
    ⟨⟨0, all, .cas, .b32, .sys, .rlx, true, 2, 0, 4, 0⟩, by decide +kernel, oks (by decide +kernel), rfl⟩,
    ⟨⟨0, all, .add, .b32, .dev, .acq, true, 2, 0, 4, 4⟩, by decide +kernel, ok1 (by decide +kernel), rfl⟩⟩

theorem witness_CacheWords :
    (∃ f : CctlF, (let s := holdsLine mem0
      s.site? = some memSite ∧ f.op = .wb ∧ (∀ e ∈ s.m.l1Of memSite.core, e.2.unwritable = false) ∧
        (s.m.l1Of memSite.core).sorted = true ∧ s.hostHolds (lineOf (phys 0).pa) = false ∧ (phys 0).host = false ∧
        ((memSite.lanes f.g).flatMap (memSite.cctlLines f)) = List.replicate 32 bootVa ∧
        (∀ b < 4, ∀ e ∈ s.m.buffer b .core, e.line ≠ lineOf (phys 0).pa) ∧
        (s.m.l1Of memSite.core).find? (l1Key (lineOf (phys 0).pa) (phys 0).key) = some dirtyLine ∧ dirtyLine.key = (phys 0).key) ∧
      (holdsLine mem0).resolve memSite.core memSite.ctx .read bootVa = .ok (phys 0)) ∧
    (∃ f : CctlF, (mem0.site? = some memSite ∧ memSite.unperformed = false ∧ f.op = .wbinv ∧
      mem0.hostHolds (lineOf (phys 0).pa) = false ∧ (∀ e ∈ mem0.m.l1Of memSite.core, e.2.unwritable = false) ∧
      ((memSite.lanes f.g).flatMap (memSite.cctlLines f)) = List.replicate 32 bootVa) ∧
      mem0.resolve memSite.core memSite.ctx .read bootVa = .ok (phys 0)) ∧
    (∃ f : PrefF, (let phs := (memSite.lanes f.g).filterMap fun L =>
        match mem0.resolve memSite.core memSite.ctx .read (memSite.devAddr f.as f.a f.off L).toNat with
        | .ok ph => if ph.host then none else some ph
        | .error _ => none
      memSite.rejects mem0 (missLines (fun x => mem0.l1Hit memSite.core x 1) phs).length = false ∧ phs ≠ [] ∧
      (mem0.m.l1Of memSite.core).length + phs.length ≤ mem0.l1Lines memSite.core ∧
      ∀ x ∈ phs, mem0.rewritten (lineOf x.pa) = false)) :=
  ⟨⟨⟨all, .wb, false, true, 0, 0, 0⟩, by decide +kernel, rfl⟩, ⟨⟨all, .wbinv, false, true, 0, 0, 0⟩, by decide +kernel, rfl⟩, ⟨⟨all, 1, true, 0, 0⟩, by decide +kernel⟩⟩

/-- The same group with a monitor of the mapped page, or of the host window, at a clock. -/
def mon (host fired : Bool) (limit : W32) : Monitor :=
  { pc := 0, addr := BitVec.ofNat 64 (if host then bootVa + 4096 else bootVa), phys := if host then 2 ^ 42 else bootPa, key := 0,
    host := host, ty := .n32, cmp := .eq, b := if host || fired then 0 else 5, limit := limit, t0 := 0, lastPoll := 0, d := 2, p := 1,
    mask := 0xFFFFFFFF, fired := fired }
def owes (m : Monitor) : Pending := ⟨0, false, none, false, [], .monitor m, [], 0, 0⟩
def armed (m : Monitor) : State := hostPage { bootT id fun g => { g with pend := [owes m] } with clk := 2000 }
def armedSite (m : Monitor) : Site := siteT id fun g => { g with pend := [owes m] }

/-- A monitor that a step may end, where its location lies, and what it then reports. -/
def endsNow (m : Monitor) (ph : Phys) (late : Bool) : Prop :=
  (armed m).monitor? 0 0 false = some (armedSite m, owes m, m) ∧
    (armed m).resolve (armedSite m).core (armedSite m).ctx .read m.addr.toNat = .ok ph ∧
    (armed m).heldElsewhere (armedSite m).core [ph] = false ∧
    m.ends (armed m).clk (bytesToNat (((armed m).pushOut (armedSite m).core [ph]).readPath .core ph 4)) = some late

theorem witness_MonitorWord :
    (∃ f : MwaitF, (mem0.site? = some memSite ∧ memSite.unperformed = false ∧ f.ty.is64 = false ∧ f.cmp.holds 0 0 = true ∧
      mem0.heldElsewhere memSite.core [phys 8] = false) ∧ memSite.devPhys mem0 .read 4
        (memSite.g.r.rdS64 f.a.toNat + BitVec.ofNat 64 (8 * f.off.toNat)) = .ok (phys 8)) ∧
    (∃ f : MwaitF, (f.ty.is64 = true ∧ memSite.g.r.rdS f.c.toNat ≠ 0 ∧
      f.cmp.holds (f.ty.value (bytesToNat ((mem0.pushOut memSite.core [phys 8]).readPath .core (phys 8) 8)))
        (f.ty.value (memSite.g.r.rdS64 f.b.toNat).toNat) = false) ∧ memSite.devPhys mem0 .read 8
        (memSite.g.r.rdS64 f.a.toNat + BitVec.ofNat 64 (8 * f.off.toNat)) = .ok (phys 8)) ∧
    (endsNow (mon false true 100) (phys 0) false ∧ (mon false true 100).fired = true) ∧
    (endsNow (mon false false 2000) (phys 0) true ∧ (mon false false 2000).limit ≠ 0xFFFFFFFF ∧
      (mon false false 2000).limit.toNat ≤ (armed (mon false false 2000)).clk - (mon false false 2000).t0) ∧
    (endsNow (mon true false 9999) (hostPhys 0) false ∧ (mon true false 9999).host = true ∧
      1024 ≤ (armed (mon true false 9999)).clk - (mon true false 9999).lastPoll) :=
  ⟨⟨⟨0, .n32, .eq, 1, 1, 4, 0, 6, 8⟩, by decide +kernel, ok1 (by decide +kernel)⟩,
   ⟨⟨0, .n64, .ne, 1, 1, 4, 0, 6, 1⟩, by decide +kernel, ok1 (by decide +kernel)⟩,
   ⟨⟨by decide +kernel, ok1 (by decide +kernel), by decide +kernel⟩, rfl⟩, ⟨⟨by decide +kernel, ok1 (by decide +kernel), by decide +kernel⟩, by decide +kernel⟩,
   ⟨⟨by decide +kernel, ok1 (by decide +kernel), by decide +kernel⟩, by decide +kernel⟩⟩

/-- In the handler. -/
def trapped (t : TrapRegs → TrapRegs) (g : Group) : Group := { g with t := t { g.t with inh := true } }

/-- The nest of the team is persistent. -/
def persistent (s : State) : State := s.updNest 0 fun n => { n with launch := { n.launch with persist := true } }

theorem witness_BarrierWords :
    (boot.site? = some site ∧ site.unperformed = false ∧ site.g.t.inh = false ∧ site.blocked = false) ∧
    (∃ s1, site.releaseAt boot 2 = .ok s1) ∧
    (∃ s1 x, (persistent boot).nests.find? site.tm.nest = some x ∧ x.launch.persist = true ∧
      site.releaseAt (persistent boot) 3 = .ok s1) ∧
    (∃ x, boot.nests.find? site.tm.nest = some x ∧ x.launch.persist = false) ∧
    ((siteT id (trapped id)).g.t.inh = true ∧ (siteT id (trapped id)).blocked = false ∧
      (bootT id (trapped id)).site? = some (siteT id (trapped id))) ∧
    (∃ tm : Team, (bootT id fun g => { g with w0 := some (.barrier .bar) }).teams.find? 0 = some tm ∧
      tm.waitsAt .bar = true ∧ tm.phase ≠ .saved ∧ ∀ g ∈ tm.groups, g.st.ended = false ∧ g.pend = [] ∧
        ((g.r.slot false).live || (g.r.slot true).live) = true ∧
        ∀ b, g.wait b = if (g.r.slot b).live then some (.barrier .bar) else none) ∧
    (let s := holdsLine (bootT id fun g => { g with w0 := some (.barrier .cbar) })
     ∃ tm : Team, s.teams.find? 0 = some tm ∧ tm.waitsAt .cbar = true ∧ tm.peers = [] ∧ tm.phase ≠ .saved ∧
      (∀ g ∈ tm.groups, g.st.ended = false ∧ g.pend = [] ∧ ((g.r.slot false).live || (g.r.slot true).live) = true ∧
        ∀ b, g.wait b = if (g.r.slot b).live then some (.barrier .cbar) else none) ∧
      ∀ e ∈ s.m.l1Of tm.core, e.2.ctx = tm.ctx ∧ s.refusal tm.core e.1 e.2 = none) :=
  ⟨by decide, ⟨_, rfl⟩, ⟨_, _, rfl, rfl, rfl⟩, ⟨_, rfl, rfl⟩, by decide, ⟨_, rfl, by decide⟩, ⟨_, rfl, by decide +kernel⟩⟩

theorem witness_ObjectWords :
    (let o : BarObj := ⟨false, false, 0, false, 4, 2⟩; o.expect ≠ 0 ∧ o.arrived + 1 < o.expect) ∧
    (let o : BarObj := ⟨false, false, 0, false, 4, 2⟩; o.expect ≤ o.arrived + 2 ∧ o.arrived + 2 < 2 * o.expect) ∧
    (let o : BarObj := ⟨false, false, 0, false, 0, 0⟩; o.expect = 0) ∧
    (mem0.site? = some memSite ∧ memSite.unperformed = false ∧ memSite.g.spec = none ∧ mem0.padAbsent memSite.team 0 8 = false ∧
      ((memSite.tm.objects.find? (0 / 8)).elim false (·.spoiled)) = false ∧ 0 % 8 = 0) ∧
    (∃ f : BinitF, memSite.objAt mem0 f.a = .ok 0 ∧ mem0.hasWaiters memSite.team 0 = false ∧
      (BarObj.ofWord (BitVec.ofNat 64 (bytesToNat (mem0.padRead memSite.team 0 8)))).pend = 0 ∧
      (memSite.g.r.rdS f.b.toNat).toNat % 65536 ≠ 0) ∧
    (∃ (f : BarvF) (h : SReg), memSite.objAt mem0 f.a = .ok 0 ∧ memSite.objAt mem0 h.a = .ok 0 ∧
      (BarObj.ofWord (BitVec.ofNat 64 (bytesToNat (mem0.padRead memSite.team 0 8)))).inv = false) ∧
    (∃ f : BwaitF, memSite.objAt mem0 f.a = .ok 0 ∧
      (BarObj.ofWord (BitVec.ofNat 64 (bytesToNat (mem0.padRead memSite.team 0 8)))).phase ≠ f.ph) ∧
    (∃ f : BwaitF, memSite.objAt mem0 f.a = .ok 0 ∧
      (BarObj.ofWord (BitVec.ofNat 64 (bytesToNat (mem0.padRead memSite.team 0 8)))).phase = f.ph) :=
  ⟨by decide, by decide, by decide, by decide +kernel, ⟨⟨1, 0, 1⟩, rfl, by decide +kernel⟩,
    ⟨⟨0, 3⟩, ⟨0⟩, rfl, rfl, by decide +kernel⟩, ⟨⟨1, 0, true⟩, rfl, by decide +kernel⟩,
    ⟨⟨1, 0, false⟩, rfl, by decide +kernel⟩⟩

theorem witness_FenceAndSignalWords :
    (boot.site? = some site ∧ site.unperformed = false ∧ site.g.spec = none) ∧
    (∃ f : FenceF, (let s := bootT id fun g => { g with held0 := [5] }
      let t : State := { s with m := { s.m with holders := [(5, 7)] } }
      let w := siteT id fun g => { g with held0 := [5] }
      t.site? = some w ∧ w.unperformed = false ∧ w.fenceWaits t (w.scopeRun t f.scope) = true)) ∧
    (∃ f : FenceF, f.spec = false ∧ NoClipTrap boot site f.scope ∧ f.scope.code < 2 ∧
      site.fenceWaits boot (site.scopeRun boot f.scope) = false ∧
      Released boot site true (site.scopeRun boot f.scope) boot) ∧
    (∃ f : FenceF, f.spec = false ∧ NoClipTrap boot site f.scope ∧ 2 ≤ f.scope.code ∧ site.fenceWaits boot (site.scopeRun boot f.scope) = false ∧
      (boot.m.l1Of site.core).sorted = true ∧ site.scopeRun boot f.scope ≠ 5 ∧
      ∃ s1, Released boot site true (site.scopeRun boot f.scope) s1) ∧
    (∃ f : FenceF, f.spec = true ∧ NoClipTrap boot site f.scope ∧ site.fenceWaits boot (site.scopeRun boot f.scope) = false ∧ ∃ s1, Released boot site true (site.scopeRun boot f.scope) s1) ∧
    (∃ f : XfenceF, boot.m.hostHeld = [] ∧ f.src.getLsbD 0 = true ∧ f.dst.getLsbD 0 = true ∧
      ∀ e ∈ boot.m.l1Of site.core, e.2.unwritable = false ∧
        boot.portAllows (corePort site.core) (128 * keyLine e.1) = true) ∧
    (∃ f : SigopF, mem0.site? = some memSite ∧ f.sys = false ∧ NoClipTrap mem0 memSite .dev ∧
      mem0.m.collapses = [] ∧ (phys 0).repl = false ∧
      (mem0.m.l1Of memSite.core).sorted = true ∧ mem0.hostHolds (lineOf (phys 0).pa) = false ∧
      (∀ x ∈ mem0.releaseLines memSite.core (memSite.scopeRun mem0 .dev), mem0.hostHolds x = false) ∧
      memSite.devPhys mem0 .write 8 (memSite.g.r.rdS64 f.a.toNat) = .ok (phys 0) ∧
      ∃ s1, Released mem0 memSite true (memSite.scopeRun mem0 .dev) s1 ∧
        ∀ b < 4, ∀ e ∈ s1.m.buffer b .core, e.line ≠ lineOf (phys 0).pa) ∧
    (∃ f : SigopF, host0.site? = some hostSite ∧ f.sys = true ∧ NoClipTrap host0 hostSite .sys ∧
      (host0.m.l1Of hostSite.core).sorted = true ∧
      (∀ x ∈ host0.releaseLines hostSite.core (hostSite.scopeRun host0 .sys), host0.hostHolds x = false) ∧
      hostSite.devPhys host0 .write 8 (hostSite.g.r.rdS64 f.a.toNat) = .ok (hostPhys 0) ∧
      ∃ s1, Released host0 hostSite true (hostSite.scopeRun host0 .sys) s1) :=
  ⟨by decide, ⟨⟨.dev, false⟩, by decide⟩, ⟨⟨.team, false⟩, rfl, by decide, by decide, by decide, rfl⟩,
    ⟨⟨.clus, false⟩, rfl, by decide, by decide, by decide, by decide, by decide, _, rfl⟩,
    ⟨⟨.sys, true⟩, rfl, by decide, by decide, _, rfl⟩,
    ⟨⟨0xFF, 0xFF⟩, by decide⟩,
    ⟨⟨.add, false, 0, 2⟩, by decide, rfl, by decide, rfl, rfl, by decide, by decide, by decide, ok1 (by decide +kernel), _, rfl, by decide +kernel⟩,
    ⟨⟨.set, true, 0, 2⟩, by decide, rfl, by decide, by decide, by decide, ok1 (by decide +kernel), _, rfl⟩⟩

theorem witness_SpecialRegisterWords :
    (boot.site? = some site ∧ site.blocked = false ∧ site.g.t.inh = false) ∧
    (∃ f : SrdF, f.sel.toNat = 0x000) ∧ (∃ f : SrdF, f.sel.toNat = 0x021) ∧ (∃ f : SrdF, f.sel.toNat = 0x071) ∧
    (∃ f : SrdF, f.sel.toNat = 0x010 + 3 ∧ site.tm.ix[3]? = some 0) ∧ (∃ f : SrdF, f.sel.toNat = 0x040) ∧
    (∃ (f : SrdF) (x : Nest), boot.nests.find? site.tm.nest = some x ∧ x.amax[7]? = some 0 ∧ f.sel.toNat = 0x060 + 7) ∧
    (∃ (f : SrdF) (x : Nest), boot.nests.find? site.tm.nest = some x ∧ x.amaxst[7]? = some 0 ∧ f.sel.toNat = 0x068 + 7) ∧
    (∃ f : SrdF, f.sel.toNat = 0x043) ∧
    (∃ (f : SwrF) (x : W32), f.sel.toNat = 0x020 ∧ x &&& 0xFFFFFF18 = 0 ∧ (x &&& 7).toNat < 5 ∧
      (siteT id (regs fun r => r.wrS f.a.toNat x)).g.r.rdS f.a.toNat = x) ∧
    (∃ (f : SwrF) (x : W32), f.sel.toNat = 0x020 ∧ 5 ≤ (x &&& 7).toNat ∧
      (siteT id (regs fun r => r.wrS f.a.toNat x)).g.r.rdS f.a.toNat = x) ∧
    (∃ (f : SwrF) (x : W32), f.sel.toNat = 0x021 ∧ x.toNat ∈ [2, 4, 8, 16, 32] ∧
      (siteT id (regs fun r => r.wrS f.a.toNat x)).g.r.rdS f.a.toNat = x) ∧
    (∃ f : SwrF, f.sel.toNat = 0x021 ∧ (site.g.r.rdS f.a.toNat).toNat ∉ [2, 4, 8, 16, 32]) ∧ (∃ f : SwrF, f.sel.toNat = 0x050) ∧
    (∃ f : SwrF, 0x040 ≤ f.sel.toNat ∧ f.sel.toNat ≤ 0x044) ∧
    (let t := bootT id (trapped id); let w := siteT id (trapped id)
     (t.site? = some w ∧ w.blocked = false ∧ w.g.t.inh = true) ∧ (∃ f : SwrF, f.sel.toNat = 0x040) ∧
      (∃ f : SwrF, f.sel.toNat = 0x041 ∧ w.g.r.rdS64 f.a.toNat &&& 7 = 0) ∧ (∃ f : SwrF, f.sel.toNat = 0x042) ∧
      (∃ f : SwrF, f.sel.toNat = 0x043) ∧ ∃ f : SwrF, f.sel.toNat = 0x044) ∧
    (∃ f : SwrF, f.sel.toNat = 0x041 ∧ (siteT id fun g => trapped id (regs (fun r => r.wrS64 0 4) g)).g.r.rdS64 f.a.toNat &&& 7 ≠ 0) :=
  ⟨by decide, ⟨⟨all, false, 1, 0⟩, rfl⟩, ⟨⟨all, true, 1, 0x21⟩, rfl⟩, ⟨⟨all, true, 1, 0x71⟩, rfl⟩,
    ⟨⟨all, false, 1, 0x13⟩, rfl, rfl⟩, ⟨⟨all, true, 1, 0x40⟩, rfl⟩, ⟨⟨all, true, 1, 0x67⟩, _, rfl, rfl, rfl⟩,
    ⟨⟨all, true, 1, 0x6F⟩, _, rfl, rfl, rfl⟩, ⟨⟨all, true, 2, 0x43⟩, rfl⟩, ⟨⟨1, 0x20⟩, 0xE4, by decide⟩,
    ⟨⟨1, 0x20⟩, 5, by decide⟩, ⟨⟨1, 0x21⟩, 32, by decide⟩, ⟨⟨1, 0x21⟩, by decide⟩, ⟨⟨1, 0x50⟩, rfl⟩, ⟨⟨1, 0x44⟩, by decide⟩,
    ⟨by decide, ⟨⟨1, 0x40⟩, rfl⟩, ⟨⟨0, 0x41⟩, by decide⟩, ⟨⟨1, 0x42⟩, rfl⟩, ⟨⟨0, 0x43⟩, rfl⟩, ⟨⟨0, 0x44⟩, rfl⟩⟩,
    ⟨⟨0, 0x41⟩, by decide⟩⟩

theorem witness_TrapWords :
    (boot.site? = some site ∧ (handled boot).site? = some site ∧ site.blocked = false ∧ site.g.t.inh = false ∧
      site.g.noneOut = true ∧ (boot.ctx site.ctx).handler = 0) ∧
    (∃ f : TrapF, site.active f.g = 0) ∧
    (∃ f : TrapF, site.active f.g ≠ 0 ∧ ((handled boot).ctx site.ctx).handler ≠ 0 ∧
      (handled boot).fetchError site.core site.ctx ((handled boot).ctx site.ctx).handler = none) ∧
    (let w := siteT id fun g => { g with pend := [owed] }
     (bootT id fun g => { g with pend := [owed] }).site? = some w ∧ w.blocked = false ∧ w.g.t.inh = false ∧ w.g.noneOut = false ∧
      w.active all ≠ 0) ∧
    (let w := siteT id (trapped id)
     (bootT id (trapped id)).site? = some w ∧ w.blocked = false ∧ w.g.t.inh = true ∧ w.active all ≠ 0 ∧
      (w.g.r.slot (!w.slot)).live = false ∧ w.g.r.join.length = w.g.t.depth) ∧
    (let w := siteT id (trapped fun t => { t with depth := 1 })
     (bootT id (trapped fun t => { t with depth := 1 })).site? = some w ∧ w.g.r.join.length ≠ w.g.t.depth ∧ w.blocked = false) ∧
    (let req : TrapReq := ⟨.nan, 0, 0, 8, 0, 0⟩
     let s := handled (bootT id fun g => { g with t := { g.t with pend0 := some req } })
     let w := siteT id fun g => { g with t := { g.t with pend0 := some req } }
     s.siteAt 0 0 false = some w ∧ w.g.t.pend? false = some req ∧ w.g.spec = none ∧ w.g.noneOut = true ∧ w.g.t.inh = false ∧
      w.tm.issues = true ∧ (s.ctx w.ctx).handler ≠ 0 ∧ s.fetchError w.core w.ctx (s.ctx w.ctx).handler = none) :=
  ⟨by decide, ⟨⟨never, 0⟩, by decide⟩, ⟨⟨all, 7⟩, by decide⟩, by decide, by decide, by decide, by decide⟩

/-- Queue 3 belongs to the context, with its header at the start of the mapped page and its packets at 0x400 of it. -/
def queued (s : State) : State := s.updQueue 3 fun q =>
  { q with ctx := 1, enable := true, state := .active, hdr := BitVec.ofNat 64 bootVa, base := BitVec.ofNat 64 (bootVa + 0x400),
           header := BitVec.ofNat 64 bootVa, logsize := 4 }

theorem witness_NestWords :
    (∃ (f : NqryF) (x : Nest), boot.site? = some site ∧ boot.nests.find? site.tm.nest = some x ∧ f.what.toNat = 0) ∧
    (∃ f : NqryF, f.what.toNat = 1) ∧ (∃ f : NqryF, f.what.toNat = 2) ∧ (∃ f : NqryF, f.what.toNat = 3) ∧
    (∃ f : NbndF, f.dim = 0) ∧ (∃ f : NbndF, f.dim ≠ 0 ∧ site.blocked = false) ∧
    (∃ (f : NlaunchF) (s1 : State), site.unperformed = false ∧ site.releaseAt boot 5 = .ok s1 ∧
      (boot.queue (site.g.r.rdS f.b.toNat).toNat).state ≠ .active) ∧
    (∃ (f : NlaunchF) (s1 : State), (queued boot).site? = some site ∧ site.releaseAt (queued boot) 5 = .ok s1 ∧
      (let s := queued (bootT id (regs fun r => r.wrS 2 3))
       let w := siteT id (regs fun r => r.wrS 2 3)
       let q := (w.g.r.rdS f.b.toNat).toNat
       let x := s.queue q
       (s.site? = some w ∧ q ≤ 255 ∧ x.state = .active ∧ x.ctx = w.ctx ∧
        w.devPhys s .write 8 (x.header + 0x10) = .ok (phys 0x10)) ∧
       ∃ s1, w.releaseAt s 5 = .ok s1 ∧ w.admission s1 [(phys 0x10).page] true = none ∧
         (s1.headerIdx w.core (phys 0x10)).1 < 2 ^ 32 ∧ (s1.headerIdx w.core (phys 0x10)).2 < 2 ^ 32 ∧
         ((s1.headerIdx w.core (phys 0x10)).1 + 2 ^ 32 - (s1.headerIdx w.core (phys 0x10)).2) % 2 ^ 32 < 2 ^ x.logsize ∧
         w.devPhys s .write 64 (BitVec.ofNat 64 (x.base.toNat +
           64 * ((s1.headerIdx w.core (phys 0x10)).1 % 2 ^ x.logsize))) = .ok (phys 0x400) ∧
         w.admission s1 [(phys 0x400).page] true = none ∧
         s1.pieceWaits w.ctx w.act [(phys 0x10, 8), (phys 0x400, 64)] = none ∧ lineOf (phys 0x10).pa ≠ lineOf (phys 0x400).pa)) :=
  ⟨⟨⟨0, 0, 8⟩, _, rfl, rfl, rfl⟩, ⟨⟨0, 1, 8⟩, rfl⟩, ⟨⟨0, 2, 8⟩, rfl⟩, ⟨⟨0, 3, 8⟩, rfl⟩, ⟨⟨1, 0, 4⟩, rfl⟩,
    ⟨⟨1, 3, 4⟩, by decide⟩, ⟨⟨1, 4, 5, 6, 0⟩, _, rfl, rfl, by decide⟩,
    ⟨⟨1, 4, 2, 6, 0⟩, _, rfl, rfl, ⟨by decide, by decide, by decide, by decide, ok1 (by decide +kernel)⟩, _, rfl, by decide +kernel,
      by decide +kernel, by decide +kernel, by decide +kernel, ok1 (by decide +kernel), by decide +kernel, by decide +kernel, by decide⟩⟩

/-- The context holds one residency of four blocks by eight groups, under handle 0x0100. -/
def resd (x : Residency) (s : State) : State := { s.updCtx 1 fun c => { c with handles := c.handles.put 0 ⟨1, some x⟩ } with
  quotas := [(0, 12)] }
def res0 : Residency := ⟨4, 8, 8, false, true, none, 1, 1, 0, [], 0, [], []⟩

/-- An instance of it on core 0. -/
def inst0 : MacroCopy := ⟨1, 0, 1, 1, 8, [], [], 0, false⟩
def loaded (s : State) : State := s.updCore 0 fun c => { c with copies := [inst0] }

/-- v0 names the handle, v1 rows at 0 (or at 4), v2 and v3 a shape of one row, one block and one group; p1 holds lane 0. -/
def mxRegs (h rows shape : W32) (p : W32) : GroupRegs → GroupRegs := fun r =>
  let r := allLanes.foldl (fun r L => ((r.wrV 0 L h).wrV 1 L rows).wrV 2 L shape) r
  { r with p := r.p.put 1 p }
def mxs (h rows shape p : W32) : State := slots 8 (loaded (resd res0 (bootT id (regs (mxRegs h rows shape p)))))
def mxw (h rows shape p : W32) : Site := siteT id (regs (mxRegs h rows shape p))
def mxF : MxRunF := ⟨⟨false, 1⟩, 0, 1, 2, 0⟩
def mxOp (dist : Bool) : RunOp := ⟨dist, res0.use 0, 0, 0, 0, 1, 0, 1, 0, 1, 8⟩

theorem witness_MatrixRunWords :
    ((mxs 0x100 0 0 0x01010101).site? = some (mxw 0x100 0 0 0x01010101) ∧ (mxw 0x100 0 0 0x01010101).unperformed = false ∧
      ((mxw 0x100 0 0 0x01010101).quarters mxF.g).length = 4 ∧
      (∀ L ∈ (mxw 0x100 0 0 0x01010101).quarters mxF.g, ((mxw 0x100 0 0 0x01010101).runTiles mxF L).1 +
        ((mxw 0x100 0 0 0x01010101).runTiles mxF L).2 ≤ (mxw 0x100 0 0 0x01010101).tm.shape.tiles) ∧
      (mxw 0x100 0 0 0x01010101).canPost (mxs 0x100 0 0 0x01010101)
        (((mxw 0x100 0 0 0x01010101).quarters mxF.g).map fun _ => 0) = true) ∧
    (∀ L ∈ (mxw 0x100 0 0 0x01010101).quarters mxF.g,
      (mxw 0x100 0 0 0x01010101).quarter (mxs 0x100 0 0 0x01010101) false mxF L = .ok (mxOp false, 0, none)) ∧
    (let s := mxs 0x100 0 0 1; let w := mxw 0x100 0 0 1
     (s.site? = some w ∧ w.unperformed = false ∧ w.blocked = false ∧ w.quarters mxF.g = [0] ∧
       s.live? w.ctx 0x100 = some (0, res0) ∧ s.resState w.core w.ctx 0 res0 ≠ 4 ∧ w.canPost s [0] = true) ∧
     (∃ x, s.padAt w.team w.tm 0 (mxOp false).bytes = .ok x) ∧ w.barAt s 0 = .ok 0) ∧
    (let s := handled (slots 8 (resd { res0 with marks := 1 } (bootT id (regs (mxRegs 0x100 0 0 1))))); let w := mxw 0x100 0 0 1
     s.site? = some w ∧ w.g.t.inh = false ∧ w.g.noneOut = true ∧ (w.slot = true → w.g.t.pend0 = none) ∧ s.live? w.ctx 0x100 = some (0, { res0 with marks := 1 }) ∧
       s.resState w.core w.ctx 0 { res0 with marks := 1 } = 4 ∧ (s.ctx w.ctx).handler ≠ 0 ∧
       s.fetchError w.core w.ctx (s.ctx w.ctx).handler = none) ∧
    (let s := mxs 0x100 0 0x1000 1; let w := mxw 0x100 0 0x1000 1
     s.site? = some w ∧ w.quarters mxF.g = [0] ∧ s.live? w.ctx 0x100 = some (0, res0) ∧ w.blocked = false ∧ ¬ (4 + 1 ≤ res0.k32)) ∧
    (let s := mxs 0x100 4 0 1; let w := mxw 0x100 4 0 1
     s.site? = some w ∧ w.quarters mxF.g = [0] ∧ w.blocked = false ∧ (w.g.r.rdV 1 0).toNat % 16 ≠ 0) ∧
    (let s := mxs 0x200 0 0 1; let w := mxw 0x200 0 0 1
     s.site? = some w ∧ w.quarters mxF.g = [0] ∧ w.blocked = false ∧ s.live? w.ctx 0x200 = none) :=
  ⟨by decide +kernel, oks (by decide +kernel), ⟨by decide +kernel, ⟨_, ok1 rfl⟩, rfl⟩, by decide +kernel, by decide +kernel,
    by decide +kernel, by decide +kernel⟩

theorem witness_EpilogueWords :
    (boot.site? = some site ∧ site.unperformed = false ∧ site.blocked = false ∧ site.barAt boot 0 = .ok 0 ∧
      site.canPost boot [0] = true ∧ site.tm.shape.tiles = 64) ∧
    (∃ f : SPairReg, site.g.r.rdS64 f.a.toNat = 0 ∧ site.g.r.rdS f.b.toNat = 0) ∧
    (let x : W64 := 0x0002000000004000
     (∃ f : SPairReg, (siteT id (regs (base x.toNat))).g.r.rdS64 f.a.toNat = x) ∧
       (x.extractLsb' 48 16).toNat = 2 ∧ (x.extractLsb' 14 7).toNat + 1 = 2 ∧
       ∃ y, (bootT id (regs (base x.toNat))).padAt 0 (siteT id (regs (base x.toNat))).tm 0 1 = .ok y) ∧
    (∃ y z, boot.padAt 0 site.tm 0 2 = .ok y ∧ boot.padAt 0 site.tm 512 4 = .ok z) ∧
    (∃ x : W64, x.extractLsb' 21 43 ≠ 0) ∧ (∃ x : W64, x.extractLsb' 11 3 ≠ 0 ∧ (x.extractLsb' 14 7).toNat + 1 < 8) :=
  ⟨⟨rfl, by decide, by decide, rfl, by decide, rfl⟩, ⟨⟨0, 2⟩, by decide⟩,
    ⟨⟨⟨0, 2⟩, by decide⟩, by decide, by decide, _, ok1 rfl⟩, ⟨_, _, ok1 rfl, ok1 rfl⟩, ⟨0x200000, by decide⟩, ⟨0x800, by decide⟩⟩

/-- An entry of the array of core 0. -/
def entry0 (op : ArrayOp) (rows : List Byte) : ArrayEntry := ⟨0, 0, 0, 1, 0, op, 0, false, none, (0, 0, 0), [], rows⟩

theorem witness_ResidencyWords :
    (let c := (loaded (resd res0 boot)).core 0
     c.lastLoad 1 0 = none ∧ c.copy? 1 0 = some inst0 ∧ res0.loadGen ≤ inst0.loadGen) ∧
    (({ res0 with marks := 1 } : Residency).seen.getD 0 0 < ({ res0 with marks := 1 } : Residency).marks) ∧
    (let c := ((resd res0 boot).updCore 0 fun c => { c with fifo := [entry0 (.rload (res0.use 0) ⟨0, 0, 64, 64, 8⟩ false 0) []] }).core 0
     res0.marks ≤ res0.seen.getD 0 0 ∧ c.lastLoad 1 0 = some (res0.use 0)) ∧
    (let u := ({ res0 with loadGen := 0 } : Residency).use 0
     let c := ((resd res0 boot).updCore 0 fun c => { c with
       fifo := [entry0 (.run { mxOp false with use := u }) []], copies := [{ inst0 with loadGen := 0 }] }).core 0
     res0.marks ≤ res0.seen.getD 0 0 ∧ c.lastLoad 1 0 = none ∧ c.copy? 1 0 = some { inst0 with loadGen := 0 } ∧ 0 < res0.loadGen ∧
       c.lastUpTo 1 0 0 = some u) ∧
    (∃ f : LaDA, boot.site? = some site ∧ site.unperformed = false ∧
      (let s := resd res0 boot
       s.site? = some site ∧ (site.g.r.rdS f.a.toNat).extractLsb' 15 17 = 0 ∧ 1 ≤ (s.core site.core).freeMacros ∧
       s.macrosUsed (s.tenantOf site.ctx) + 1 ≤ s.quota (s.tenantOf site.ctx) ∧
       ((s.ctx site.ctx).handle 1).res.isNone = true ∧ ∀ j, j < 1 → ((s.ctx site.ctx).handle j).res.isSome = true)) ∧
    (let s := (resd res0 boot).updCore 0 fun c => { c with copies := [{ inst0 with macros := 12, ctx := 2 }] }
     s.site? = some site ∧ (s.core site.core).freeMacros < 1 ∧ s.victim site.core site.ctx 256 = none) ∧
    (boot.quota (boot.tenantOf site.ctx) < boot.macrosUsed (boot.tenantOf site.ctx) + 1 ∧ 1 ≤ (boot.core site.core).freeMacros) ∧
    (let s := { boot.updCtx 1 fun c => { c with handles := (List.range 256).map fun i => (i, ⟨1, some res0⟩) } with
       quotas := [(0, 12)] }
     s.site? = some site ∧ 1 ≤ (s.core site.core).freeMacros ∧
       s.macrosUsed (s.tenantOf site.ctx) + 1 ≤ s.quota (s.tenantOf site.ctx) ∧
       ∀ i, i < 256 → ((s.ctx site.ctx).handle i).res.isSome = true) ∧
    (∃ f : LaDA, ¬ ((siteT id (regs fun r => r.wrS f.a.toNat 0x40)).g.r.rdS f.a.toNat).extractLsb' 6 2 = 0) ∧
    (∃ (f : MxRloadF) (s : State) (w : Site), (s.site? = some w ∧ w.unperformed = false ∧ w.g.r.rdS f.a.toNat = 0x100 ∧
      0 + 32 ≤ w.tm.padBytes ∧ (w.g.r.rdS f.b.toNat).toNat < 0x80000 ∧ s.padAbsent w.team 0 32 = false ∧
      s.padRead w.team 0 32 = natToBytes 8 0 ++ natToBytes 8 0 ++ natToBytes 8 0 ++ natToBytes 8 (false.toNat) ∧
      s.live? w.ctx 0x100 = some (0, res0) ∧ (s.fslotWord w.tm.nest f.slot.toNat &&& 0xF).toNat ∈ [8, 9, 10, 11] ∧
      w.canPost s [0] = true) ∧ w.padPhys s 8 (w.g.r.rdS f.b.toNat) = .ok (w.team, 0) ∧
      w.barAt s (w.g.r.rdS f.c.toNat) = .ok 0) ∧
    (∃ (a : BitVec 8) (h : BitVec 16), (let s := resd res0 (bootT id (regs fun r => r.wrS 4 0x100))
      let w := siteT id (regs fun r => r.wrS 4 0x100)
      s.site? = some w ∧ w.g.r.rdS a.toNat = h.setWidth 32 ∧ s.live? w.ctx h = some (0, res0) ∧
        ∀ e ∈ s.cores, e.2.busy w.ctx 0 = false)) ∧
    (∃ (a : BitVec 8) (h : BitVec 16), site.g.r.rdS a.toNat = h.setWidth 32 ∧ boot.live? site.ctx h = none ∧
      site.blocked = false) :=
  ⟨by decide +kernel, by decide, by decide +kernel, by decide +kernel,
    ⟨⟨0, 8, 4⟩, by decide +kernel⟩, by decide +kernel, by decide +kernel, by decide +kernel, ⟨⟨0, 8, 4⟩, by decide⟩,
    ⟨⟨4, 5, 6, 0⟩, slots 8 (resd res0 (bootT id (regs fun r => r.wrS 4 0x100))), siteT id (regs fun r => r.wrS 4 0x100),
      by decide +kernel, rfl, rfl⟩, ⟨4, 0x100, by decide +kernel⟩, ⟨4, 0, by decide +kernel⟩⟩

/-- The array of core 0 with its FIFO, pass and instances. -/
def array (fifo pass : List ArrayEntry) (copies : List MacroCopy) : State :=
  (resd res0 boot).updCore 0 fun c => { c with fifo := fifo, pass := pass, copies := copies }

theorem witness_ArraySteps :
    (let e := entry0 (.run (mxOp false)) []
     let c := (array [e] [] []).core 0
     c.pass = [] ∧ c.fifo = e :: [] ∧ e.served c = false ∧ e.firstUse? = some (res0.use 0, none) ∧
       (∀ m ∈ c.copies, m.is e.ctx 0 = false) ∧ resMacros 4 8 ≤ c.freeMacros ∧
       (array [e] [] []).macrosUsed 0 + resMacros 4 8 ≤ (array [e] [] []).quota 0 ∧ (array [e] [] []).tenantOf e.ctx = 0 ∧
       (array [e] [] []).cores.sorted = true) ∧
    (let e := entry0 (.run (mxOp false)) []
     let m := { inst0 with loading := true }
     let c := (array [e] [] [m]).core 0
     c.pass = [] ∧ c.fifo = e :: [] ∧ e.served c = false ∧ e.firstUse? = some (res0.use 0, none) ∧ c.copies = [m] ∧
       m.is e.ctx 0 = true) ∧
    (let e := entry0 (.zero 2 1) []
     ((array [e] [] []).core 0).pass = [] ∧ ((array [e] [] []).core 0).fifo = e :: []) ∧
    (let e := entry0 (.run (mxOp true)) []
     ((array [e] [] [inst0]).core 0).fifo = e :: [] ∧ e.served ((array [e] [] [inst0]).core 0) = true ∧
       ((array [e] [] [inst0]).rowsOf e (mxOp true)).isSome = true) ∧
    (let e := entry0 (.zero 2 1) []
     ∃ tm, ((array [] [e] []).core 0).pass = e :: [] ∧ (array [] [e] []).teams.find? e.team = some tm ∧
       ((array [] [e] []).object e.team e.bar).inv = false ∧ (array [] [e] []).hasWaiters e.team e.bar = false) ∧
    (let e := entry0 (.run (mxOp false)) (List.replicate 48 0x38)
     ∃ tm, e.spoiled = [] ∧ ((array [] [e] [inst0]).core 0).pass = e :: [] ∧ (array [] [e] [inst0]).teams.find? e.team = some tm ∧
       ((array [] [e] [inst0]).core 0).copy? e.ctx (mxOp false).use.handle = some inst0 ∧
       ((array [] [e] [inst0]).object e.team e.bar).inv = false ∧ (array [] [e] [inst0]).hasWaiters e.team e.bar = false ∧
       (mxOp false).row0 + (mxOp false).m ≤ 32) ∧
    (let m := { inst0 with loadGen := 0 }
     ((array [] [] [m]).core 0).copy? 1 0 = some m ∧ (((array [] [] [m]).ctx 1).handle 0).res = some res0 ∧
       m.loadGen < res0.loadGen ∧ ((array [] [] [m]).core 0).lastUpTo 1 0 m.loadGen = none) :=
  ⟨by decide +kernel, by decide +kernel, by decide +kernel, by decide +kernel, ⟨_, rfl, rfl, rfl, rfl⟩,
    ⟨_, rfl, rfl, rfl, rfl, rfl, rfl, by decide⟩,
    by decide +kernel⟩

/-- A Sluice context of the team, whose w1 holds an address. -/
def slC (f : SlCtx → SlCtx) : SlCtx :=
  f { SlCtx.reset with
    state := .running
    pc := BitVec.ofNat 64 bootVa
    ctx := 1
    owner := .team 0 0
    w := [(1, BitVec.ofNat 64 bootVa)] }
def slS (f : SlCtx → SlCtx) : State := { boot.updSl 0 0 fun _ => slC f with cur := some (.sluice 0 0) }

/-- Descriptors 0 and 1 name n elements of a size in the mapped page. -/
def descs (n : W32) (e0 e1 : Byte) (c : SlCtx) : SlCtx :=
  { c with desc := [⟨BitVec.ofNat 64 bootVa, [n, 1, 1, 1, 1], [8, 0, 0, 0, 0], e0⟩,
    ⟨BitVec.ofNat 64 (bootVa + 0x800), [n, 1, 1, 1, 1], [8, 0, 0, 0, 0], e1⟩, SlDescr.start, SlDescr.start] }

/-- The same with descriptor 1 in the team's scratchpad. -/
def padDescs (n : W32) (c : SlCtx) : SlCtx :=
  let c := descs n 3 3 c
  { c with desc := listUpd (fun d => { d with base := 0x400, ctrl := 11 }) 1 c.desc }

theorem witness_ForkWords :
    (∃ f : ForkF, boot.site? = some site ∧ site.unperformed = false ∧ site.blocked = false ∧ site.grp = site.tm.shape.producer ∧
      (site.g.r.rdS64 f.a.toNat).toNat % 8 = 0 ∧ ((boot.core site.core).sl 0).state = .free) ∧
    (let s := boot.updCore 0 fun c => { c with sl0 := slC id, sl1 := slC id, sl2 := slC id, sl3 := slC id }
     s.site? = some site ∧ (∀ k, k < 4 → ((s.core site.core).sl k).state ≠ .free)) ∧
    (let w := siteT (fun t => { t with shape := { t.shape with producer := 1 } }) id
     (bootT (fun t => { t with shape := { t.shape with producer := 1 } }) id).site? = some w ∧ w.grp ≠ w.tm.shape.producer ∧
      w.blocked = false) ∧
    (∃ f : ForkF, let w := siteT id (regs (base 4))
     (bootT id (regs (base 4))).site? = some w ∧ w.grp = w.tm.shape.producer ∧ (w.g.r.rdS64 f.a.toNat).toNat % 8 ≠ 0 ∧
      w.blocked = false) ∧
    (∃ f : RdvF, (let s := (bootT id (regs (base 0x100))).updSl 0 0 fun _ => slC fun c => { c with serial := 1 }
      let w := siteT id (regs (base 0x100))
      let x := w.g.r.rdS f.a.toNat
      let c := (s.core w.core).sl (x.extractLsb' 0 2).toNat
      (s.site? = some w ∧ x.extractLsb' 2 6 = 0 ∧ c.state ≠ .free ∧ c.serial = x.extractLsb' 8 24 ∧ c.state = .running) ∧
        ∃ k, c.owner = .team w.team k)) ∧
    (∃ f : RdvF, (let s := (bootT id (regs (base 0x100))).updSl 0 0 fun _ => slC fun c => { c with serial := 1, state := .ended }
      let w := siteT id (regs (base 0x100))
      let x := w.g.r.rdS f.a.toNat
      let c := (s.core w.core).sl (x.extractLsb' 0 2).toNat
      (s.site? = some w ∧ x.extractLsb' 2 6 = 0 ∧ c.state = .ended ∧ c.serial = x.extractLsb' 8 24) ∧
        ∃ k, c.owner = .team w.team k)) ∧
    (∃ f : RdvF, ((boot.core site.core).sl ((site.g.r.rdS f.a.toNat).extractLsb' 0 2).toNat).state = .free) :=
  ⟨⟨⟨0, 8, 0, 2⟩, by decide⟩, by decide, by decide, ⟨⟨0, 8, 0, 2⟩, by decide⟩, ⟨⟨1, 0⟩, by decide, 0, rfl⟩,
    ⟨⟨1, 0⟩, by decide, 0, rfl⟩, ⟨⟨1, 0⟩, by decide⟩⟩

theorem witness_SluiceWords :
    ((slS id).slSite? = some ⟨0, 0, slC id⟩) ∧
    (∃ f : SlSetdF, f.field.toNat = 0) ∧ (∃ f : SlSetdF, 1 ≤ f.field.toNat ∧ f.field.toNat ≤ 5 ∧
      ((slC id).rd f.a.toNat).toNat < 2 ^ 32) ∧ (∃ f : SlSetdF, f.field.toNat = 10) ∧
    (∃ f : SlSetdF, f.field.toNat = 11 ∧ ((slC id).rd f.a.toNat).toNat < 128) ∧
    (∃ f : SlSetdF, 1 ≤ f.field.toNat ∧ f.field.toNat ≤ 5 ∧ 2 ^ 32 ≤ ((slC id).rd f.a.toNat).toNat) ∧
    (∃ f : SlAB, ((slC id).rd f.a.toNat).toNat % 8 = 0) ∧ (∃ f : SlSignalF, ((slC id).rd f.a.toNat).toNat % 8 = 0) ∧
    (∃ (f h : SlWaitF), (slS id).slObj (slC id) ((slC id).rd f.a.toNat) = .ok (0, 0) ∧ ((slS id).object 0 0).inv = false ∧
      ((slS id).object 0 0).phase ≠ f.ph ∧ (slS id).slObj (slC id) ((slC id).rd h.a.toNat) = .ok (0, 0) ∧
      ((slS id).object 0 0).phase = h.ph) ∧
    (∃ (f : SlWaitF) (s : State), s.slSite? = some ⟨0, 0, slC id⟩ ∧ s.slObj (slC id) ((slC id).rd f.a.toNat) = .ok (0, 0) ∧
      (s.object 0 0).inv = true) ∧
    (∃ f : SlArriveF, f.n ≠ 0 ∧ (slS id).slObj (slC id) ((slC id).rd f.a.toNat) = .ok (0, 0) ∧ ((slS id).object 0 0).pend < 8191) ∧
    (∃ f : SlIdxF, (((slC id).rd f.a.toNat + f.off.signExtend 64).toNat % 2 ^ f.size.toNat = 0 ∧ (slC id).work = [] ∧
      (slS id).needWalk 0 (slC id).ctx (((slC id).rd f.a.toNat + f.off.signExtend 64).toNat / 4096) = false) ∧
      (slS id).resolve 0 (slC id).ctx .read ((slC id).rd f.a.toNat + f.off.signExtend 64).toNat = .ok (phys 8)) ∧
    (∃ (f : SlDA) (s : State), (s.slSite? = some ⟨0, 0, slC id⟩ ∧ f.d ≠ f.a ∧ ((slC id).rd f.a.toNat).toNat % 4 = 0 ∧
      ((slC id).rd f.a.toNat).toNat + 4 < 2 ^ 64 ∧ s.needWalk 0 (slC id).ctx (((slC id).rd f.a.toNat).toNat / 4096) = false ∧
      s.needWalk 0 (slC id).ctx (((slC id).rd f.a.toNat + 4).toNat / 4096) = false) ∧ s.resolve 0 (slC id).ctx .read ((slC id).rd f.a.toNat).toNat = .ok (phys 0) ∧
      s.resolve 0 (slC id).ctx .read (((slC id).rd f.a.toNat).toNat + 4) = .ok (phys 4) ∧
      bytesToNat (s.readPath .sluice (phys 0) 4) ≤ bytesToNat (s.readPath .sluice (phys 4) 4)) ∧
    (∃ (f : SlDA) (s : State), (s.slSite? = some ⟨0, 0, slC id⟩ ∧ f.d ≠ f.a ∧
      s.needWalk 0 (slC id).ctx (((slC id).rd f.a.toNat).toNat / 4096) = false) ∧
      s.resolve 0 (slC id).ctx .read ((slC id).rd f.a.toNat).toNat = .ok (phys 0) ∧
      s.resolve 0 (slC id).ctx .read (((slC id).rd f.a.toNat).toNat + 4) = .ok (phys 4) ∧
      bytesToNat (s.readPath .sluice (phys 4) 4) < bytesToNat (s.readPath .sluice (phys 0) 4)) ∧
    (∃ f : SlXferF, let c := slC (descs 600 3 3)
      (slS (descs 600 3 3)).slSite? = some ⟨0, 0, c⟩ ∧ f.src ≠ f.dst ∧ (c.descr f.src).space = false ∧
      (c.descr f.dst).space = false ∧ SlSite.modeOk ⟨0, 0, c⟩ (slS (descs 600 3 3)) f.mode (c.descr f.src) (c.descr f.dst) = true ∧
      c.todo = [] ∧ c.inFlight < 64 ∧ f.mode ≠ .decode) ∧
    (∃ f : SlXferF, let c := slC (descs 2 0 4); let s := (slS (descs 2 0 4)).updCore 0 fun x => { x with book := ⟨some c.owner, 2, []⟩ }
      s.slSite? = some ⟨0, 0, c⟩ ∧ f.src ≠ f.dst ∧ f.mode = .decode ∧
      SlSite.modeOk ⟨0, 0, c⟩ s f.mode (c.descr f.src) (c.descr f.dst) = true ∧ (s.core 0).book.tag = some c.owner) ∧
    (∃ f : SlXferF, f.src = f.dst ∧ (slC id).todo = []) ∧
    (∃ f : SlXferF, let c := slC fun c => { descs 2 3 3 c with todo := [[(some 0, 0)]] }
      (slS fun _ => c).slSite? = some ⟨0, 0, c⟩ ∧ c.todo = [(some 0, 0)] :: [] ∧ (c.descr f.src).space = false ∧
      (c.descr f.dst).space = false ∧ c.inFlight < 64 ∧ f.mode ≠ .decode) ∧
    (let c := slC fun c =>
       { descs 2 3 3 c with todo := [[(some 0, 0)]], work := List.replicate 64 (.xfer 0 .copy 8 8 false false [] []) }
     (slS fun _ => c).slSite? = some ⟨0, 0, c⟩ ∧ c.todo ≠ [] ∧ 64 ≤ c.inFlight) ∧
    (∃ f : SlXferF, let c := slC fun c => { descs 2 3 3 c with work := List.replicate 64 (.xfer 0 .copy 8 8 false false [] []) }
      (slS fun _ => c).slSite? = some ⟨0, 0, c⟩ ∧ f.src ≠ f.dst ∧
      SlSite.modeOk ⟨0, 0, c⟩ (slS fun _ => c) f.mode (c.descr f.src) (c.descr f.dst) = true ∧ c.todo = [] ∧ 64 ≤ c.inFlight) ∧
    (∃ f : SlXferF, let c := slC (padDescs 2)
      ((slS (padDescs 2)).slSite? = some ⟨0, 0, c⟩ ∧ f.src ≠ f.dst ∧ (c.descr f.dst).space = true ∧ (c.descr f.dst).count = 2 ∧
        SlSite.modeOk ⟨0, 0, c⟩ (slS (padDescs 2)) f.mode (c.descr f.src) (c.descr f.dst) = true ∧ c.todo = [] ∧ c.inFlight < 64 ∧
        f.mode ≠ .decode) ∧
      ∀ j ∈ List.range 2, (slS (padDescs 2)).slPad c ((c.descr f.dst).addr j) (c.descr f.dst).esize = .ok (0, 0x400 + 8 * j)) ∧
    (∃ f : SlXferF, let c := slC fun c => { padDescs 2 c with todo := [[(some (va 0), 0x400)]] }
      ((slS fun _ => c).slSite? = some ⟨0, 0, c⟩ ∧ (c.descr f.dst).space = true ∧ c.todo = [(some (va 0), 0x400)] :: [] ∧
        c.inFlight < 64 ∧ f.mode ≠ .decode) ∧
      (slS fun _ => c).slPad c 0x400 (c.descr f.dst).esize = .ok (0, 0x400)) ∧
    (∃ f : SlBmexpF, let c := slC fun c => { padDescs 9 c with w := [(1, 9)] }
      let a := c.descr f.src; let b := c.descr f.dst
      ((slS fun _ => c).slSite? = some ⟨0, 0, c⟩ ∧ f.src ≠ f.dst ∧ (c.rd f.a.toNat).toNat = 9 ∧ 9 * b.esize ≤ 4096 ∧ a.esizeCode ≤ 4 ∧
        b.usable = true ∧ b.count = 9 ∧ a.esizeCode = b.esizeCode ∧ a.base.toNat % 8 = 0 ∧ b.space = true ∧ c.inFlight < 64 ∧
        c.todo = [] ∧ ∀ j, j < 2 → (slS fun _ => c).needWalk 0 c.ctx ((a.base + BitVec.ofNat 64 j).toNat / 4096) = false) ∧
      SlSite.bitmap ⟨0, 0, c⟩ (slS fun _ => c) a 2 = .ok (0, false) ∧
      ∀ j ∈ List.range 9, (slS fun _ => c).slPad c (b.addr j) b.esize = .ok (0, 0x400 + 8 * j)) ∧
    (∃ f : SlBmexpF, let c := slC fun c => { descs 9 3 3 c with w := [(1, 9)] }
      let a := c.descr f.src; let b := c.descr f.dst; let k := (c.rd f.a.toNat).toNat
      ((slS fun _ => c).slSite? = some ⟨0, 0, c⟩ ∧ f.src ≠ f.dst ∧ 1 ≤ k ∧ k ≤ 4096 ∧ k * b.esize ≤ 4096 ∧ a.esizeCode ≤ 4 ∧
        b.usable = true ∧ b.count = k ∧ a.esizeCode = b.esizeCode ∧ a.base.toNat % 8 = 0 ∧ a.space = false ∧ b.space = false ∧
        c.inFlight < 64 ∧ c.todo = [] ∧ ∀ j, j < (k + 7) / 8 →
          (slS fun _ => c).needWalk 0 c.ctx ((a.base + BitVec.ofNat 64 j).toNat / 4096) = false) ∧ SlSite.bitmap ⟨0, 0, c⟩ (slS fun _ => c) a ((k + 7) / 8) = .ok (0, false)) ∧
    (∃ f : SlDesc, let c := slC (descs 1 4 4); let s := slS (descs 1 4 4)
      (let d := c.descr f.desc
       d.usable = true ∧ d.esizeCode = 4 ∧ d.count ≤ 256 ∧ (s.core 0).decoding = false ∧
         ∀ k, k < d.count → s.needWalk 0 c.ctx ((d.addr k).toNat / 4096) = false) ∧
      ∃ bytes, s.bookBytes 0 c (c.descr f.desc) (List.range (c.descr f.desc).count) = .ok bytes) :=
  ⟨by decide, ⟨⟨0, 0, 0⟩, rfl⟩, ⟨⟨0, 5, 0⟩, by decide⟩, ⟨⟨0, 10, 0⟩, rfl⟩, ⟨⟨0, 11, 0⟩, by decide⟩, ⟨⟨0, 1, 1⟩, by decide⟩,
    ⟨⟨1, 0⟩, by decide⟩, ⟨⟨.add, true, 1, 0⟩, by decide⟩,
    ⟨⟨0, true⟩, ⟨0, false⟩, ok1 (by decide +kernel), by decide +kernel, by decide +kernel, ok1 (by decide +kernel), by decide +kernel⟩,
    ⟨⟨0, false⟩, (slS id).updTeam 0 fun t => { t with pad := (List.range 8).map fun k => (k, 0xFF) }, by decide +kernel,
      ok1 (by decide +kernel), by decide +kernel⟩,
    ⟨⟨0, 3⟩, by decide, ok1 (by decide +kernel), by decide +kernel⟩, ⟨⟨3, 2, 1, 8⟩, by decide +kernel, ok1 (by decide +kernel)⟩,
    ⟨⟨2, 1⟩, slS id, by decide +kernel, ok1 (by decide +kernel), ok1 (by decide +kernel), by decide +kernel⟩,
    ⟨⟨2, 1⟩, { slS id with m := { (slS id).m with mem := [(bootPa, 1)] } }, by decide +kernel, ok1 (by decide +kernel),
      ok1 (by decide +kernel), by decide +kernel⟩,
    ⟨⟨0, 1, .copy⟩, by decide +kernel⟩, ⟨⟨0, 1, .decode⟩, by decide +kernel⟩, ⟨⟨0, 0, .copy⟩, by decide⟩,
    ⟨⟨0, 1, .copy⟩, by decide +kernel⟩, by decide +kernel, ⟨⟨0, 1, .copy⟩, by decide +kernel⟩,
    ⟨⟨0, 1, .copy⟩, by decide +kernel, oks (by decide +kernel)⟩, ⟨⟨0, 1, .copy⟩, by decide +kernel, ok1 (by decide +kernel)⟩,
    ⟨⟨0, 1, 1⟩, by decide +kernel, ok1 (by decide +kernel), oks (by decide +kernel)⟩,
    ⟨⟨0, 1, 1⟩, by decide +kernel, ok1 (by decide +kernel)⟩,
    ⟨⟨0⟩, by decide +kernel, ex1 (by decide +kernel)⟩⟩

/-- A context with one work item or wait. -/
def works (x : SlWork) (c : SlCtx) : SlCtx := { c with work := [x] }

theorem witness_SluiceSteps :
    ((slS fun c => { c with wait := some (.load [(3, 7)]) }).slAt 0 0 =
      some ⟨0, 0, slC fun c => { c with wait := some (.load [(3, 7)]) }⟩) ∧
    (slC fun c => { c with wait := some (.load [(3, 7), (1, 9)]) }).wait = some (.load [(3, 7), (1, 9)]) ∧
    (let c := slC (works (.xfer 0 .copy 8 8 false true [(some (va 8), 16)] [(0, 16 / 128)]))
     ((slS fun _ => c).slAt 0 0 = some ⟨0, 0, c⟩ ∧ c.faulted = none ∧ (va 8).toNat % 8 = 0 ∧
       (slS fun _ => c).needWalk 0 c.ctx ((va 8).toNat / 4096) = false ∧ ((slS fun _ => c).homeOf 0 c.ctx (va 8).toNat).getD (phys 8).pa < 2 ^ 45 ∧
       ((slS fun _ => c).teams.find? 0).isSome) ∧ (slS fun _ => c).resolve 0 c.ctx .read (va 8).toNat = .ok (phys 8) ∧
       (slS fun _ => c).slPad c 16 8 = .ok (0, 16)) ∧
    (let c := slC (works (.arrive 0 8 1))
     (slS fun _ => c).slAt 0 0 = some ⟨0, 0, c⟩ ∧ c.owner = .team 0 0 ∧ ((slS fun _ => c).object 0 8).inv = false ∧
       (slS fun _ => c).hasWaiters 0 8 = false) ∧
    (let c := slC (works (.arrive 0 0 1))
     (((slS fun _ => c).updTeam 0 fun t => { t with pad := (List.range 8).map fun k => (k, 0xFF) }).object 0 0).inv = true) ∧
    (let c := slC (works (.stamp 0 (va 8) 7))
     ((slS fun _ => c).slAt 0 0 = some ⟨0, 0, c⟩ ∧ (slS fun _ => c).hostHolds (lineOf (phys 8).pa) = false ∧
       (slS fun _ => c).needWalk 0 c.ctx ((va 8).toNat / 4096) = false ∧ (slS fun _ => c).m.collapses = []) ∧
       (slS fun _ => c).resolve 0 c.ctx .write (va 8).toNat = .ok (phys 8)) ∧
    (let c := slC (works (.signal 0 .add true (va 8) 7))
     ((slS fun _ => c).slAt 0 0 = some ⟨0, 0, c⟩ ∧ (slS fun _ => c).hostHolds (lineOf (phys 8).pa) = false ∧
       (slS fun _ => c).needWalk 0 c.ctx ((va 8).toNat / 4096) = false ∧ (slS fun _ => c).m.collapses = [] ∧
       ∀ k < 4, (slS fun _ => c).m.buffer k .sluice = []) ∧
       (slS fun _ => c).resolve 0 c.ctx .write (va 8).toNat = .ok (phys 8)) ∧
    (let c := slC fun c => { c with wait := some .ending }
     (slS fun _ => c).slAt 0 0 = some ⟨0, 0, c⟩ ∧ c.work = [] ∧ c.faulted = none ∧ c.owner = .team 0 0) ∧
    (let c := slC fun c => { c with wait := some .ending, owner := .packet 3 0 }
     (slS fun _ => c).slAt 0 0 = some ⟨0, 0, c⟩ ∧ c.owner = .packet 3 0) ∧
    (let c := slC fun c => { c with faulted := some (.desc, 0, 0, 9), owner := .packet 3 0 }
     (slS fun _ => c).slAt 0 0 = some ⟨0, 0, c⟩ ∧ ∃ s1, (slS fun _ => c).writeRecord
       (.event (.sluicePacketFault 0 0)) c.ctx 0 (packetFault .desc 0 0 0 9) false = .ok s1) :=
  ⟨by decide, rfl, ⟨by decide +kernel, ok1 (by decide +kernel), ok1 (by decide +kernel)⟩, by decide +kernel, by decide +kernel,
    ⟨by decide +kernel, ok1 (by decide +kernel)⟩, ⟨by decide +kernel, ok1 (by decide +kernel)⟩, by decide, by decide,
    by decide +kernel, ex1 (by decide +kernel)⟩

/-- Bytes of the mapped page. -/
def holds (b : List (Nat × Byte)) (s : State) : State := { s with m := { s.m with mem := b.map fun x => (bootPa + x.1, x.2) } }

/-- The 64 bytes of the mapped page that a core reads, as doublewords. -/
def descAt (s : State) : List W64 := dwords ((List.range 64).map fun i => s.coreByte 0 (phys 0) i)

/-- A device with one communicator of two ranks, and word 0 of it under way, with n more. -/
def comm0 : Comm := ⟨[10, 11], 0, 1000, 0, []⟩
def eng (k : EngineKind) (d : List W64) (st : EngineStage) : EngineWord :=
  ⟨k, d, 0, 0, 0, 1, 0, 0, 0, [0, 0, 0, 0], 0, st, [], [], 8, 0, 0, 0⟩
def engS (e : EngineWord) : State := { mem0 with engines := [(0, e)], comms := [(0, comm0)], time := 5000 }

theorem witness_EngineWords :
    (mem0.site? = some memSite ∧ memSite.unperformed = false ∧ memSite.blocked = false ∧ mem0.engineCount memSite.core < 32 ∧
      memSite.rejects mem0 (missLines (fun x => mem0.l1Hit memSite.core x 64) [phys 0]).length = false) ∧
    (memSite.devPhysIf mem0 .read (fun x => mem0.l1Hit memSite.core x 64) 64 (memSite.g.r.rdS64 (0 : BitVec 8).toNat) = .ok (phys 0)) ∧
    (let s := holds [(48, 1)] mem0
     checkEsort (descAt s) = none ∧ memSite.devPhysIf s .read (fun x => s.l1Hit memSite.core x 64) 64 (memSite.g.r.rdS64 0) = .ok (phys 0)) ∧
    (let s := holds [(40, 1), (44, 16)] mem0; checkGather (descAt s) 1 = none ∧ checkGather (descAt s) 3 = none) ∧
    (checkA2av (descAt mem0) = none ∧ mem0.comms.find? (commNo (descAt mem0)) = none ∧
      ({ mem0 with comms := [(0, comm0)] } : State).comms.find? (commNo (descAt mem0)) = some comm0) ∧
    (let s := slots 8 (holds [(48, 32)] mem0)
     checkAredc (descAt s) (s.fslotWord memSite.tm.nest (slotField (descAt s))) = none) ∧
    32 ≤ ({ mem0 with engines := (List.range 32).map fun k => (k, eng .esort [] .issued) } : State).engineCount memSite.core ∧
    (checkEsort (descAt mem0) = some (.illegal, 0) ∧ checkGather (descAt mem0) 3 = some (.illegal, 0) ∧
      checkAredc (descAt mem0) 8 = some (.illegal, 0)) ∧
    (let s := holds [(56, 1)] mem0; checkA2av (descAt s) = some (.illegal, 0)) ∧
    (let s := bootT id (regs (base (bootVa + 8))); let w := siteT id (regs (base (bootVa + 8)))
     (s.site? = some w ∧ w.unperformed = false ∧ w.blocked = false ∧ s.engineCount w.core < 32) ∧
       w.devPhysIf s .read (fun x => s.l1Hit w.core x 64) 64 (w.g.r.rdS64 (0 : BitVec 8).toNat) =
         .error (.misalign, BitVec.ofNat 64 (bootVa + 8))) :=
  ⟨by decide +kernel, ok1 (by decide +kernel), ⟨by decide +kernel, ok1 (by decide +kernel)⟩, by decide +kernel, by decide +kernel,
    by decide +kernel, by decide +kernel, by decide +kernel, by decide +kernel, ⟨by decide +kernel, err1 (by decide +kernel)⟩⟩

theorem witness_EngineSteps :
    (∃ c : Comm, (0 : Nat) < 256 ∧ (engS (eng .a2av [] .issued)).comms.find? (256 * 0 + 0) = some c ∧ (1 : Nat) < c.ranks ∧ 1 ≠ c.rank ∧
      c.seq ≤ 4 ∧ ∀ m ∈ c.msgs, m.rank ≠ 1 ∨ m.seq ≠ 4) ∧
    (let e := eng .gather [va 8, 1, va 0, va 0, va 0, 0x1000000001, 1, 0] .issued
     let s := (engS e).updTeam 0 fun t => { t with groups := [{ grp0 with pend := [⟨0, false, none, false, [], .count 0 8, [], 0, 0⟩] }] }
     (s.engines.find? 0 = some e ∧ ∃ g, s.group? e.team e.grp = some g ∧
        g.pending? e.pend = some ⟨0, false, none, false, [], .count 0 8, [], 0, 0⟩) ∧ ∃ idx, s.readIndices e = .ok (some idx)) ∧
    (let e := eng .esort [va 8, 1, 0, 0, 0, 0, 1, 0] (.written true)
     ((engS e).engines.find? 0 = some e ∧ (engS e).spoiledComm e = none ∧ (dstamp e.desc).toNat % 8 = 0 ∧
       (engS e).needWalk e.core e.ctx ((dstamp e.desc).toNat / 4096) = false ∧ (engS e).m.collapses = [] ∧
       (engS e).hostHolds (lineOf (phys 8).pa) = false) ∧
       (engS e).resolve e.core e.ctx .write (dstamp e.desc).toNat = .ok (phys 8)) ∧
    (let e := eng .a2av [va 8, 1, 0, 0, 0, 0, 0, 0] .issued
     (engS e).engines.find? 0 = some e ∧ e.collective = true ∧ (engS e).commOf e = some comm0 ∧ (engS e).runs e = true ∧
       comm0.others.contains 1 = true ∧ comm0.msg? e 1 = none ∧ comm0.timeout ≤ (engS e).time - e.since ∧
       (engS e).engines = [(0, e)]) ∧
    (let e := eng .a2av [va 8, 1, 0, 0, 0, 0, 0, 0] (.written true)
     let c : Comm := { comm0 with msgs := [⟨1, 0, [], []⟩] }
     let s : State := { engS e with comms := [(0, c)] }
     s.engines.find? 0 = some e ∧ e.collective = true ∧ s.commOf e = some c ∧ c.spoils e = true ∧ s.runs e = true ∧
       c.others.contains 1 = true ∧ s.engines = [(0, e)]) ∧
    (let e := eng .esort [BitVec.ofNat 64 (2 ^ 48), 1, 0, 0, 0, 0, 1, 0] (.written true)
     ((engS e).engines.find? 0 = some e ∧ (engS e).spoiledComm e = none ∧ (dstamp e.desc).toNat % 8 = 0 ∧
       (engS e).needWalk e.core e.ctx ((dstamp e.desc).toNat / 4096) = false ∧ ∃ tm g x, (engS e).teams.find? e.team = some tm ∧
       tm.groups[e.grp]? = some g ∧ (engS e).nests.find? tm.nest = some x ∧ x.fault = none) ∧
       (engS e).resolve e.core e.ctx .write (dstamp e.desc).toNat = .error .xlateNp) :=
  ⟨⟨comm0, by decide +kernel⟩, ⟨⟨by decide +kernel, _, rfl, by decide +kernel⟩, _, ok1 (v := some [0]) (by decide +kernel)⟩,
    ⟨by decide +kernel, ok1 (by decide +kernel)⟩, by decide +kernel, by decide +kernel,
    ⟨by decide +kernel, by decide +kernel, by decide +kernel, by decide +kernel, _, _, _, rfl, rfl, rfl, rfl⟩, err1 (by decide +kernel)⟩

/-- A GATHER of two positions, of which the second lies outside the table. -/
def gath (d5 : W64) : EngineWord :=
  { eng .gather [va 8, 1, va 0x100, va 0x200, if d5.getLsbD 29 then 0 else va 0x400, d5, 1, 0] .counted with indices := [0, 5] }
/-- A SCATTER of one position, and an ESORT of one pair for one expert. -/
def scat (op : Nat) : EngineWord :=
  eng .scatter [va 8, 1, va 0x100, va 0x200, va 0x400, BitVec.ofNat 64 (0x1000000001 + op * 0x1000000), 1, 0] .issued
def esort1 : EngineWord := eng .esort [va 8, 1, va 0x100, va 0x200, va 0x300, va 0x400, 1, 0] .issued

theorem witness_CisternMakes :
    (let e := gath 0x1020000002; let s := engS e
     (e.stage = .counted ∧ e.indices.length = positions e.desc ∧ dataPad e.desc = true ∧ s.teams.find? e.team = some memSite.tm ∧
       rowBytes e.desc ≤ dpitch e.desc ∧ e.posAt (positions e.desc) ≤ memSite.tm.padBytes ∧
       e.posAt (positions e.desc) ≤ 0x80000) ∧
     ∀ r ∈ e.indices.filter (· < tableRows e.desc), s.engineRange e (s.resolveNear (s.engineBasin e (dword e.desc 2)) e.core e.ctx)
       (e.rowAt r) (rowBytes e.desc) = .ok [(phys 0x100, 16)]) ∧
    (let e := gath 0x1000000002; let s := engS e
     (dataPad e.desc = false ∧ Roomy s e ∧ Writable s ((List.range (positions e.desc)).flatMap fun i => [(phys (0x400 + 16 * i), 16)])) ∧
     ∀ i ∈ List.range (positions e.desc), s.engineDst e (e.posAt i) (rowBytes e.desc) = .ok [(phys (0x400 + 16 * i), 16)]) ∧
    (∀ op ∈ [0, 2], let e := scat op; let s := engS e
     (e.kind = .scatter ∧ e.stage = .issued ∧ Roomy s e ∧ (dword e.desc 2).toNat % 16 = 0 ∧ e.rows [0] = [0] ∧
       Writable s ((e.rows [0]).flatMap fun _ => [(phys 0x100, 16)]) ∧ ∀ x ∈ e.scatOverlaps, (common x.1 x.2).2 = 0)) ∧
    (∀ op ∈ [0, 2], (engS (scat op)).readIndices (scat op) = .ok (some [0])) ∧
    (∀ op ∈ [0, 2], (engS (scat op)).engineRead .cistern ((engS (scat op)).engineBasin (scat op) (dword (scat op).desc 2)) (scat op)
      (dataPad (scat op).desc) ((scat op).posAt 0) (rowBytes (scat op).desc) = .ok (some (List.replicate 16 0))) ∧
    (∀ op ∈ [0, 2], (engS (scat op)).engineDst (scat op) ((scat op).rowAt 0) (rowBytes (scat op).desc) =
      .ok [(phys 0x100, 16)]) ∧
    (let e := esort1; let s := engS e; let base := fun (k : Nat) => (dword e.desc k).toNat
     (e.kind = .esort ∧ e.stage = .issued ∧ Roomy s e ∧ pairCount e.desc = 1 ∧ experts e.desc = 1 ∧
       Writable s [(phys 0x200, 4), (phys 0x300, 8), (phys 0x400, 8)] ∧
       ([(base 2, 8), (base 3, 4), (base 4, 8), (base 5, 8)].Pairwise fun y z => (common y z).2 = 0)) ∧
     s.engineRead .cistern (s.engineBasin e (dword e.desc 2)) e false (base 2) 8 = .ok (some (List.replicate 8 0)) ∧
     s.engineDst e (base 3) 4 = .ok [(phys 0x200, 4)] ∧ s.engineDst e (base 4) 8 = .ok [(phys 0x300, 8)] ∧
     s.engineDst e (base 5) 8 = .ok [(phys 0x400, 8)]) :=
  ⟨⟨by decide +kernel, oks (by decide +kernel)⟩, ⟨by decide +kernel, oks (by decide +kernel)⟩, by decide +kernel,
    oks (by decide +kernel), oks (by decide +kernel), oks (by decide +kernel), by decide +kernel, ok1 (by decide +kernel),
    ok1 (by decide +kernel), ok1 (by decide +kernel), ok1 (by decide +kernel)⟩

/-- An A2AV whose own counts are 4 and 4, and an AREDC of one block, whose other rank has joined. -/
def a2avE : EngineWord := eng .a2av [va 8, 1, va 0x300, va 0x100, va 0x380, va 0x200, 8, 0] .issued
def aredcE : EngineWord := { eng .aredc [va 8, 1, va 0x100, va 0x200, 0, 0, 32, 0] .issued with fmt := 8 }
def joined (e : EngineWord) (cmd : List Nat) (b : List Byte) : State :=
  holds [(0x100, 4), (0x104, 4)] { engS e with comms := [(0, { comm0 with msgs := [⟨1, 0, cmd, b⟩] })] }

theorem witness_CollMakes :
    (∀ k ∈ [2, 4], let e := a2avE; let m : CollMsg := ⟨1, 0, [0, 0, k, 0], [1, 2, 3, 4]⟩; let s := joined e m.cmd m.data
     AllJoined s e { comm0 with msgs := [m] } (fun _ => m) ∧ Roomy s e ∧ Writable s [(phys 0x380, 8), (phys 0x200, 8)]) ∧
    (let e := a2avE; let s := joined e [0, 0, 4, 0] [1, 2, 3, 4]; let own : List Byte := [4, 0, 0, 0, 4, 0, 0, 0]
     s.engineRead .coll (coreBasin e.core) e false (dword e.desc 3).toNat 8 = .ok (some own) ∧
       s.engineDst e (dword e.desc 5).toNat 8 = .ok [(phys 0x200, 8)] ∧
       s.engineRead .coll (coreBasin e.core) e false (dword e.desc 2).toNat 8 = .ok (some (List.replicate 8 0)) ∧
       s.engineDst e (dword e.desc 4).toNat 8 = .ok [(phys 0x380, 8)]) ∧
    (let e := aredcE; let m : CollMsg := ⟨1, 0, [1, 0, 32, 0, 8], []⟩; let s := joined e m.cmd m.data
     (AllJoined s e { comm0 with msgs := [m] } (fun _ => m) ∧ Roomy s e ∧ elemCount e.desc % 32 = 0 ∧
       Writable s [(phys 0x100, 128), (phys 0x200, 128)] ∧
       (common ((dword e.desc 2).toNat, 128) ((dword e.desc 3).toNat, 128)).2 = 0) ∧
     s.engineRead .coll (coreBasin e.core) e false (dword e.desc 2).toNat 128 =
       .ok (some ([4, 0, 0, 0, 4] ++ List.replicate 123 0)) ∧
     s.engineRead .coll (coreBasin e.core) e false (dword e.desc 3).toNat 128 = .ok (some (List.replicate 128 0)) ∧
     s.engineDst e (dword e.desc 2).toNat 128 = .ok [(phys 0x100, 128)] ∧
     s.engineDst e (dword e.desc 3).toNat 128 = .ok [(phys 0x200, 128)]) :=
  ⟨by decide +kernel, ⟨ok1 (by decide +kernel), ok1 (by decide +kernel), ok1 (by decide +kernel), ok1 (by decide +kernel)⟩,
    by decide +kernel, ok1 (by decide +kernel), ok1 (by decide +kernel), ok1 (by decide +kernel), ok1 (by decide +kernel)⟩

/-- Page tables that map page 0 of the context to a replicable frame 0. -/
def paged (s : State) : State :=
  { s.updCtx 1 fun c => { c with root := 0x20000 } with
    m := { s.m with mem := [(0x20000, 1), (0x20001, 0x10), (0x20002, 2), (0x21000, 1), (0x21001, 0x20), (0x21002, 2), (0x22000, 0x19)] } }
def leaf0 : Leaf := ⟨0, 512, 0, 0, false, false, true⟩

/-- The group with a window in its slot. -/
def winW (conflict : Bool) (stores : List HeldStore) : SpecWindow :=
  { slot := false, scope := .team, clipped := false, saved := grp0.r, savedPend := [], marks := [], padMarks := [], stores := stores,
    amax := [], amaxRead := [], left := 3, waits := false, conflict := conflict, closed := false }
def window (conflict : Bool) (stores : List HeldStore) (g : Group) : Group :=
  { g with spec := some { winW conflict stores with saved := g.r } }
/-- A window that has read an AMAX register. -/
def readWin (x : W32) (g : Group) : Group := { g with spec := some { winW false [] with saved := g.r, amaxRead := [(5, x, 0)] } }
def closedWin (g : Group) : Group := { g with spec := some { winW true [] with closed := true, saved := g.r } }

theorem witness_CacheAndWindowSteps :
    (let f := fun g : Group => { g with w0 := some (.rejected 0 false) }
     (bootT id f).siteAt 0 0 false = some (siteT id f) ∧ (siteT id f).g.wait false = some (.rejected 0 false) ∧
       (bootT id f).entriesUsed 0 < 8192 ∧ (∀ t ∈ (bootT id f).agedSince (· == 0), false = true ∧ 0 ≤ t) ∧
       256 ≤ ({ bootT id f with clk := 256 } : State).clk - 0 ∧ ({ bootT id f with clk := 255 } : State).clk - 0 < 256) ∧
    (∃ tm, (bootT (fun t => { t with absent := [(3, 0)] }) id).teams.find? 0 = some tm ∧ tm.absent.find? 3 = some 0) ∧
    (let x : Walk := ⟨0, 1, 0, .issue (.grp 0 0 false), []⟩
     let s : State := { paged boot with m := { (paged boot).m with walks := [(0, [x])] } }
     ((s.walksOf 0).find? (fun y => y.isOf 0 1 0) = some x ∧ s.tlb? 0 1 0 = none) ∧
       s.walkCtx (s.portAllows (corePort 0)) 1 (0 * 4096) = .ok leaf0) ∧
    (let x : Walk := ⟨0, 1, 0, .issue (.grp 0 0 false), []⟩
     let s : State := { boot with m := { boot.m with walks := [(0, [x])] } }
     ((s.walksOf 0).find? (fun y => y.isOf 0 1 0) = some x ∧ s.tlb? 0 1 0 = none) ∧
       s.walkCtx (s.portAllows (corePort 0)) 1 (0 * 4096) = .error .xlateNp) ∧
    (let s : State := { boot with m := { boot.m with holders := [(7, 0)] } }
     s.m.holders.find? 7 = some 0 ∧ (s.m.l1Of 0).sorted = true ∧ ∀ e ∈ s.m.l1Of 0, s.refusal 0 e.1 e.2 = none) ∧
    (let e : IngressEntry := ⟨2, 0, 7, 0, 1, 9, none, none, none⟩
     let s : State := { boot with m := { boot.m with ingress := [(8, [e])] } }
     (s.m.ingress.getD (8 * 1 + 0) []).find? (fun e => e.slice == 2) = some e ∧ e.upd = none ∧ e.key ≠ noKey ∧
       s.rewritten e.line = false ∧ s.hostHolds e.line = false) ∧
    (let c : Collapse := ⟨1, 0, 512, 0, false, []⟩
     let s : State := { paged boot with m := { (paged boot).m with collapses := [c] } }
     (s.m.collapses.find? fun x => x.ctx == c.ctx && x.page == c.page && !x.cleared) = some c ∧
       s.replEntries c = [0x22000] ∧ ∀ a ∈ s.replEntries c, s.hostHolds (lineOf a) = false) ∧
    (let c : Collapse := ⟨1, 0, 512, 0, true, []⟩
     let s : State := { paged boot with m := { (paged boot).m with collapses := [c] } }
     (s.m.collapses.find? fun x => x.ctx == c.ctx && x.page == c.page && x.cleared) = some c ∧
       s.usesRange c.ctx c.page (c.page + c.pages) = false ∧ ∀ b < 4, ∀ p ∈ devicePaths, s.m.buffer b p = []) ∧
    ((paged boot).walkCtx (fun _ => true) 1 (0 * 4096) = .ok leaf0 ∧ leaf0.repl = true ∧
      (let s := paged boot; let e := leaf0.entry 1 0; let frame := 3 * 2 ^ 31
       (3 : Nat) < 4 ∧ 3 ≠ basinOf (e.home * 4096) ∧ frame % e.pages = 0 ∧ frame / 2 ^ 31 = 3 ∧
         (frame % 2 ^ 31 + e.pages) * 4096 ≤ lpddrSize ∧
         (∀ i, i < 32 * e.pages → s.hostHolds (32 * frame + i) = false) ∧ (∀ b ∈ s.m.ingress, ∀ x ∈ b.2, x.line / 32 < e.home ∨ e.home + e.pages ≤ x.line / 32) ∧ s.m.replicas = [] ∧
         s.m.collapses = [])) ∧
    ((bootT id (window true [])).siteAt 0 0 (winW true []).slot = some (siteT id (window true [])) ∧
      (siteT id (window true [])).g.spec = some (winW true []) ∧ (winW true []).scope = .team ∧ (winW true []).clipped = false) ∧
    ((bootT id closedWin).siteAt 0 0 false = some (siteT id closedWin) ∧
      ∃ w, (siteT id closedWin).g.spec = some w ∧ w.closed = true ∧ w.scope = .team ∧ w.clipped = false) ∧
    (∃ win, (bootT id (readWin 7)).siteAt 0 0 false = some (siteT id (readWin 7)) ∧ (siteT id (readWin 7)).g.spec = some win ∧
      win.slot = false ∧ win.closed = false ∧ win.conflict = false ∧
      ∃ x ∈ win.amaxRead, (bootT id (readWin 7)).amaxPair 0 x.1 ≠ x.2) ∧
    (∃ win, (siteT id (readWin 0)).g.spec = some win ∧ win.closed = false ∧ win.conflict = false ∧ win.stores = [] ∧ win.amax = [] ∧
      win.amaxRead ≠ [] ∧ ∀ x ∈ win.amaxRead, (bootT id (readWin 0)).amaxPair 0 x.1 = x.2) ∧
    ((siteT id (window false [])).g.spec = some (winW false []) ∧ (winW false []).stores = [] ∧ (winW false []).amax = []) ∧
    (let h : HeldStore := ⟨some 0, 16, 0, 0, 0, false, [1, 2, 3, 4]⟩
     (bootT id (window false [h])).siteAt 0 0 false = some (siteT id (window false [h])) ∧
       (siteT id (window false [h])).g.spec = some (winW false [h]) ∧ ((bootT id (window false [h])).teams.find? 0).isSome) ∧
    (let f := fun g : Group => { g with w0 := some (.hostSignal .add (va 0) (2 ^ 42) 5 false) }
     (bootT id f).siteAt 0 0 false = some (siteT id f) ∧
       (siteT id f).g.wait false = some (.hostSignal .add (va 0) (2 ^ 42) 5 false) ∧ 2 ^ 42 % 8 = 0 ∧
       ∀ p ∈ (siteT id f).g.pend, ∀ h, p.kind ≠ .host h) :=
  ⟨by decide +kernel, ⟨_, rfl, by decide⟩, ⟨by decide +kernel, ok1 (by decide +kernel)⟩,
    ⟨by decide +kernel, err1 (by decide +kernel)⟩, by decide +kernel, by decide +kernel,
    by decide +kernel, by decide +kernel, ⟨ok1 (by decide +kernel), rfl, by decide, by decide, by decide, by decide, by decide, fun _ _ => rfl, by decide +kernel⟩,
    by decide +kernel, ⟨by decide +kernel, _, rfl, by decide⟩, ⟨_, rfl, rfl, by decide +kernel⟩, ⟨_, rfl, by decide +kernel⟩,
    by decide +kernel, by decide +kernel, by decide +kernel, by decide +kernel, by decide,
    fun p hp => nomatch hp⟩

/-- A fault that waits for its record, of the team. -/
def fault0 : FaultInfo := { packetFault .desc 0 0 0 0 with team := some 0 }
def faulting (s : State) : State := s.updNest 0 fun n => { n with fault := some fault0, phase := .faulted }

/-- Page tables that map the first 2 MiB of the context to themselves, with the fault area at 0x40000. -/
def flat (s : State) : State :=
  { s.updCtx 1 fun c => { c with root := 0x20000, fault := 0x40000 } with
    m := { s.m with mem := [(0x20000, 1), (0x20001, 0x10), (0x20002, 2), (0x21000, 1), (0x21001, 0x20), (0x21002, 2), (0x22000, 0x13)] } }
def flatPhys (a : Nat) : Phys := ⟨a, a / 4096, 0, 0, false, false⟩

/-- Its group has been reached by the halt. -/
def reached (g : Group) : Group := { g with st := { g.st with reached := true } }
def aborting : State := faulting (bootT (fun t => { t with phase := .halted }) id)

theorem witness_AbortSteps :
    (let s := faulting (bootT (fun t => { t with phase := .halting }) reached)
     ∃ tm x, s.teams.find? 0 = some tm ∧ tm.phase = .halting ∧ s.nests.find? tm.nest = some x ∧
       (∀ g ∈ tm.groups, g.st.reached = true ∧ ∀ p ∈ g.pend, p.out = false ∨ p.endless = true) ∧ x.fault = some fault0 ∧
       fault0.team = some 0) ∧
    (∃ tm, (bootT (fun t => { t with phase := .halting }) id).teams.find? 0 = some tm ∧ tm.phase = .halting ∧
      ∃ g ∈ tm.groups, g.st.reached = false) ∧
    (∃ x, aborting.nests.find? 0 = some x ∧ x.fault = some fault0 ∧ aborting.halted fault0 = true ∧
       ∃ s1, aborting.writeRecord (.event (.nestAbort 0)) x.ctx 0 fault0 x.multi = .ok s1 ∧ s1.nests = aborting.nests) ∧
    (let s := flat boot
     s.fwNat 1 (s.ctx 1).faultArea 8 = .ok 0 ∧
       s.rangeFw 1 .write (s.ctx 1).faultArea (64 + 16 * fault0.groups.length) = .ok [(flatPhys 0x40000, 64)] ∧
       (0x40000 % 128 = 0 ∧ s.m.collapses = [] ∧ s.hostHolds (lineOf 0x40000) = false)) ∧
    boot.mgmt.log.length < 4096 ∧
    (∃ tm g x, boot.teams.find? 0 = some tm ∧ tm.groups[0]? = some g ∧ tm.nest = 0 ∧ boot.nests.find? 0 = some x ∧
      x.fault = none) ∧
    (let l : L1Line := ⟨5, 1, 1, 0, true, 1, 0, []⟩
     let s : State := { boot with m := { boot.m with l1 := [(0, [(l1Key 7 0, l)])] } }
     (s.m.l1Of 0).find? (l1Key 7 0) = some l ∧ (s.m.l1Of 0).sorted = true ∧ keyLine (l1Key 7 0) = 7 ∧
       s.refusal 0 (l1Key 7 0) l = some .releaseWb ∧ (∀ e ∈ s.m.l1Of 0, keyLine e.1 = 7 → e.1 = l1Key 7 0) ∧
       ∃ x tm, s.nests.find? 0 = some x ∧ x.ctx = l.ctx ∧ x.fault = none ∧ s.teams.find? 0 = some tm ∧ tm.nest = 0 ∧ tm.core = 0 ∧
         tm.phase ≠ .retired ∧ tm.phase ≠ .saved) :=
  ⟨⟨_, _, rfl, rfl, rfl, by decide, rfl, rfl⟩, ⟨_, rfl, rfl, _, .head _, rfl⟩,
    ⟨_, rfl, rfl, by decide +kernel, exP (fun s1 : State => s1.nests = aborting.nests) (by decide +kernel)⟩,
    ⟨ok1 (by decide +kernel), ok1 (by decide +kernel), by decide +kernel⟩, by decide, ⟨_, _, _, rfl, rfl, rfl, rfl, rfl⟩,
    ⟨by decide +kernel, by decide +kernel, by decide +kernel, by decide +kernel, by decide +kernel, _, _, rfl, rfl, rfl, rfl, rfl, rfl,
      by decide, by decide⟩⟩

/-- Device 0 is enabled with weight 1 and quantum 100 in partition 0, which runs its slice. -/
def running (s : State) : State :=
  { s with
    parts := [(0, { PartSched.reset with slice := some ⟨0, 0, 100000, true, false, []⟩ })]
    vds := [(0, { VirtDev.reset with cfg := 0x100640180, liveCfg := 0x100640180 })] }

/-- A nest with its launch changed. -/
def withNest (f : Nest → Nest) (s : State) : State := s.updNest 0 f

/-- A launch of two clustered points, with groups of a shape, and a unit of it. -/
def pair (groups : Nat) (n : Nest) : Nest :=
  { n with launch := { n.launch with cw := 2, ch := 1, shape := ⟨groups, 4, 0, 0, 0⟩, hi := [⟨2, 0, 0, 0⟩] } }
def unit2 : List ReadyPoint := [⟨[0], 0, 0⟩, ⟨[1], 1, 0⟩]

theorem witness_WalkerSteps :
    (let s := withNest (fun n => { n with proposals := [⟨0, 0, false, 5, []⟩] })
       (bootT id fun g => { g with w0 := some (.nbnd 1) })
     ∃ x w, s.nests.find? 0 = some x ∧ x.proposals = ⟨0, 0, false, 5, []⟩ :: [] ∧ x.phase = .active ∧
       s.siteAt 0 0 false = some w ∧ w.g.wait false = some (.nbnd 1) ∧ w.tm.issues = true) ∧
    (let s := running (withNest (fun n => { n with rows := [⟨[], 0, 1, 0, 0, 0⟩], maxIx0 := none }) boot)
     ∃ x r k, s.nests.find? 0 = some x ∧ x.firstReady = some (r, k) ∧ s.cursorPart x = some 0 ∧ s.nextNest = some 0 ∧
       s.nests.sorted = true) ∧
    (let e : ReadyEntry := ⟨0, [⟨[0], 0, 0⟩], 7⟩
     let s : State := { running boot with ready := [(0, [e])] }
     ∃ x post, (1 : Nat) < 384 ∧ s.queueOrder (corePort 1) = [] ++ 0 :: post ∧ s.headOf 0 = some (e, x) ∧
       x.launch.clustered = false ∧ s.open x.ctx x.vd 1 = true ∧ s.claims 1 (s.time + 1) = [] ∧
       ((s.useOf 1).add x.launch.shape 1).fits = true) ∧
    (let s : State := { boot with reservations := [(2, ⟨⟨0, [], 7⟩, [], 1, 0, false⟩)], time := 256000 }
     ∃ r, s.reservations.find? 2 = some r ∧ 256000 ≤ s.time - r.since) ∧
    (let s : State := { boot with gangs := [(9, ⟨3, 0, 1, 0, bootNest.launch, [0], [], 0⟩)], time := 100001 }
     ∃ g, s.gangs.find? 9 = some g ∧ 100000 < s.time - g.since) ∧
    (let s := bootT id fun g => { g with st := { g.st with ended := true } }
     ∃ tm x, s.teams.find? 0 = some tm ∧ s.nests.find? tm.nest = some x ∧ tm.phase = .running ∧ x.phase = .active ∧
       s.busyTeam 0 tm = false ∧ (∀ e ∈ s.m.l1Of tm.core, e.2.dirty = 0) ∧
       (∀ b < 4, s.m.buffer b .core = [] ∧ s.m.buffer b .sluice = [] ∧ s.m.buffer b .array = []) ∧ tm.peers = [] ∧
       (x.retire ((tm.ix.take x.depth).map BitVec.toInt)).done = true) ∧
    (let e : ReadyEntry := ⟨0, unit2, 7⟩
     let s : State := { running (withNest (pair 200) boot) with ready := [(0, [e])] }
     ∃ x, s.headOf (readyKey 0 0 0) = some (e, x) ∧ x.launch.clustered = true ∧
       (∀ port ∈ s.portsOf 0, ∀ c ∈ corners x.launch.cw x.launch.ch,
         s.rectFits x (s.time + 1) (rectCores port c x.launch.cw e.points) = false) ∧
       ∃ port ∈ s.portsOf 0, ∃ c ∈ corners x.launch.cw x.launch.ch,
         s.reservations.find? (corePort (pgCore port c.1 c.2)) = none) ∧
    (let s : State := { running (withNest (pair 1) boot) with reservations := [(0, ⟨⟨0, unit2, 7⟩, [], 0, 0, false⟩)], teams := [] }
     ∃ x r, s.reservations.find? (corePort 0) = some r ∧ s.nests.find? r.entry.nest = some x ∧ r.core = 0 ∧ r.teams = [] ∧ x.phase = .active ∧
       ∃ cores, s.rectAt x r.entry.points 0 = some cores ∧ s.rectFits x r.since cores = true) ∧
    (let s : State := { running (withNest (fun n => { n with started := false, since := 5 }) boot) with teams := [] }
     ∃ x, s.nests.find? 0 = some x ∧ x.started = false ∧ x.phase = .active ∧ x.plan = [] ∧
       ∃ pl, s.reserve x (s.vdNow x.vd).owned = some pl) ∧
    (let pl : Plan := [([⟨[0], 0, 0⟩], [0])]
     let s : State := { running (withNest (fun n => { n with started := false, since := 5, plan := pl }) boot) with teams := [] }
     ∃ x, s.nests.find? 0 = some x ∧ x.started = false ∧ x.phase = .active ∧ x.plan ≠ [] ∧
       s.planIn (s.vdNow x.vd).owned x.plan = true ∧ s.planHeld x.ctx x.vd x.since x.launch.shape x.plan = true) ∧
    (let g : Gang := ⟨3, 0, 1, 0, { bootNest.launch with persist := true, gang := true }, [0], [([⟨[0], 0, 0⟩], [0])], 0⟩
     let s : State := { running boot with
       gangs := [(9, g)], teams := [], nests := [], time := 100000
       parts := [(0, { PartSched.reset with slice := some ⟨0, 90000, 100000, true, false, []⟩ })] }
     s.gangs.find? 9 = some g ∧ s.time - g.since ≤ 100000 ∧ s.planHeld g.ctx g.vd g.since g.launch.shape g.plan = true) ∧
    (∃ tm, (boot.startTeam 0 bootNest ⟨[0], 0, 0⟩ 5).2.teams.find? boot.serial = some tm) :=
  ⟨⟨_, _, rfl, rfl, rfl, rfl, rfl, rfl⟩, ⟨_, ⟨[], 0, 1, 0, 0, 0⟩, 0, rfl, by decide +kernel⟩,
    ⟨bootNest, _, by decide, rfl, by decide +kernel⟩, ⟨_, rfl, by decide⟩, ⟨_, rfl, by decide⟩,
    ⟨_, _, rfl, rfl, by decide +kernel⟩, ⟨pair 200 bootNest, by decide +kernel⟩,
    ⟨_, _, rfl, rfl, rfl, rfl, rfl, [0, 1], by decide +kernel⟩,
    ⟨_, rfl, rfl, rfl, rfl, Option.isSome_iff_exists.mp (by decide +kernel)⟩, ⟨_, rfl, rfl, rfl, by decide, by decide +kernel⟩,
    by decide +kernel, ⟨_, rfl⟩⟩

theorem witness_PreemptSteps :
    (let s := { running boot with time := 100000 }
     (0 : Nat) < 384 ∧ (∃ x, (s.part (s.partOf 0)).slice = some x ∧ x.vd = (s.ctx 1).vd ∧ s.stopDue x 1 = true ∧
       x.ended.contains (0, 1) = false) ∧ (s.core 0).draining.find? 1 = none ∧ s.present 0 1 = true) ∧
    (let s : State := { bootT (fun t => { t with phase := .stopping 0 }) id with time := 50000 }
     ∃ tm g, s.teams.find? 0 = some tm ∧ tm.groups[0]? = some g ∧ tm.phase = .stopping 0 ∧ g.reconverged = true ∧
       g.stoppable = true ∧ 50000 ≤ s.time - 0 ∧ g.rollback.stoppable = true ∧ g.st.stopped = false) ∧
    (let s : State := { bootT (fun t => { t with phase := .stopping 0, shape := ⟨1, 4, 0, 0, 0⟩ })
         fun g => { g with st := { g.st with stopped := true } } with
       cores := [(0, { Core.reset with draining := [(1, (0, false))] })] }
     s.savable 0 = some 1 ∧ (s.core 0).draining.find? 1 = some (0, false) ∧
       s.pieceWaits 1 (.event (.contextSave 0))
         (s.controlPieces 0 1 ++ (s.savePieces 0 1 (s.slabImage 0 1)).flatMap (·.1)) = none ∧
       ∃ tm, s.teams.find? 0 = some tm ∧ tm.core = 0 ∧ tm.ctx = 1 ∧ tm.phase = .stopping 0) ∧
    (let s : State := { running boot with cores := [(0, { Core.reset with draining := [(1, (0, true))] })] }
     (s.core 0).draining = [(1, (0, true))] ∧ ∃ x, (s.part (s.partOf 0)).slice = some x ∧ x.vd = (s.ctx 1).vd ∧ x.stopped = false ∧
       s.ticksSince x.start < x.length ∧ ∃ k ∈ s.ctxs, k.2.vd = x.vd ∧ k.2.state = .live ∧
         s.ticksSince x.start + k.2.drain * 1500 < x.length ∧ s.ctx k.1 = k.2) ∧
    (let s : State := { running boot with time := 100000, teams := [] }
     (∀ d ∈ (s.core 0).draining, d.2.2 = false) ∧ ∃ x, (s.part (s.partOf 0)).slice = some x ∧ x.length ≤ s.ticksSince x.start ∧
       s.drainsLeft (s.partOf 0) x = false) ∧
    (let s := running (bootT (fun t => { t with phase := .saved, sluice := [(0, slC id)] }) id)
     ∃ tm x, s.teams.find? 0 = some tm ∧ s.nests.find? tm.nest = some x ∧ tm.phase = .saved ∧ x.phase = .active ∧
       x.launch.persist = false ∧ x.launch.clustered = false ∧ tm.peers = [] ∧ s.resumeFits x (s.time + 1) tm 5 = true ∧
       tm.sluice = [(0, slC id)]) ∧
    (let s : State := { running boot with
       parts := [(0, { PartSched.reset with visit := 0, inVisit := true, cfg := 0x100640180 })]
       vds := [(0, { VirtDev.reset with cfg := 0x100640180, liveCfg := 0x100640180, deficit := 9 })] }
     (s.part 0).slice = none ∧ s.gangSlice 0 = none ∧ (s.part 0).inVisit = true ∧ s.scheduled 0 (s.part 0).visit = true ∧
       0 < (s.vd (s.part 0).visit).deficit ∧ s.hasWork 0 (s.part 0).visit = true ∧ (s.vd (s.part 0).visit).held = [] ∧
       s.gangParts 0 (s.part 0).visit = none) ∧
    (let s : State := { running boot with parts := [] }
     let v := ((s.part 0).visit + 1) % 128
     (s.part 0).slice = none ∧ (s.part 0).inVisit = false ∧
       ({ s with vds := s.vds.put v { s.vd v with liveCfg := (s.vd v).cfg, livePolicy := (s.vd v).policy } } : State).scheduled 0 v =
         true ∧ (s.vd v).weight ≠ 0 ∧ s.hasWork 0 v = true ∧
       0 < (s.vd v).deficit + ((s.vd v).weight * (s.vd v).quantum * 1500 : Nat) ∧ (s.vd v).held = [] ∧ s.gangParts 0 v = none ∧
       (s.vd v).overrunOk = false) ∧
    (let s : State := { running boot with parts := [(0, { PartSched.reset with slice := some ⟨5, 0, 9, false, false, []⟩ })] }
     ∃ x, (s.part 0).slice = some x ∧ x.charged = false ∧ s.weightedWork 0 = true) :=
  ⟨⟨by decide, ⟨_, rfl, by decide +kernel⟩, by decide +kernel⟩, ⟨_, _, rfl, rfl, by decide +kernel⟩,
    ⟨by decide +kernel, by decide +kernel, by decide +kernel, _, rfl, rfl, rfl, rfl⟩, ⟨rfl, _, rfl, rfl, rfl, by decide +kernel, _, .head _, by decide +kernel⟩,
    ⟨by decide +kernel, _, rfl, by decide +kernel⟩, ⟨_, bootNest, rfl, by decide +kernel⟩, by decide +kernel, by decide +kernel,
    ⟨_, rfl, by decide +kernel⟩⟩

/-- Queue 3 of the context, whose header and ring lie in the first 2 MiB. -/
def lane (f : Queue → Queue) (s : State) : State := (flat (running s)).updQueue 3 fun q => f { q with
  qctx := 1
  ctx := 1
  enable := true
  state := .active
  hdr := 0x50000
  header := 0x50000
  base := 0x50400
  logsize := 6 }
def packet (work : PktWork) (compl : W64) : Packet := ⟨0, 0, 1, 0, 1, false, 0, compl, work, none, 0, [], [], []⟩

/-- More bytes of memory. -/
def with_ (b : List (Nat × Byte)) (s : State) : State := { s with m := { s.m with mem := s.m.mem ++ b } }

/-- The queue with a packet at RIDX and the bytes of another place. -/
def atHead (pkt : List (Nat × Byte)) (b : List (Nat × Byte)) : State :=
  with_ ((pkt.map fun x => (0x50400 + x.1, x.2)) ++ b) (lane (fun q => { q with w := 1 }) boot)

theorem only_queue {f : Queue → Queue} {s : State} {k : Nat} (hs : s.queues = (lane f boot).queues) (h : k ≠ 3) :
    (s.queue k).state = .disabled ∧ (s.queue k).inflight = [] ∧ (s.queue k).failing = [] := by
  have h0 : s.queues.find? k = none := hs ▸ if_neg h
  have hq : s.queue k = Queue.reset := congrArg (·.getD Queue.reset) h0
  exact hq ▸ ⟨rfl, rfl, rfl⟩

theorem atHead_lane (pkt b : List (Nat × Byte)) : OnlyLane (atHead pkt b) 3 :=
  ⟨rfl, rfl, rfl, rfl, (by decide : 1 ≤ idxAhead 0 1), (by decide : idxAhead 0 1 < 2 ^ 31), fun _ h _ => only_queue (f := fun q => { q with w := 1 }) rfl h⟩

/-- The packet as the slot holds it, and the state after the acquire of its step. -/
def pktOf (pkt : List (Nat × Byte)) : List Byte := (List.range 64).map fun i => ((pkt.find? fun x => x.1 == i).map (·.2)).getD 0
def acquired (s : State) (pkt : List (Nat × Byte)) : State :=
  let a0 := s.fwAcquire (s.fwScope (s.queue 3).vd (recBits (pktOf pkt) 0 9 2))
  { a0 with serial := a0.serial + 1 }

/-- The slot is read and may be written, and the packet has no reserved bit and no signal. -/
def readableAt (s : State) (pkt : List (Nat × Byte)) : Prop :=
  s.fwRead (s.queue 3).ctx (slotAddr (s.queue 3)) 64 = .ok (pktOf pkt) ∧
    (∃ l, s.rangeFw (s.queue 3).ctx .write (slotAddr (s.queue 3)) 64 = .ok l) ∧ pktReserved (pktOf pkt) = false ∧
    pktCompl (pktOf pkt) = 0

theorem exMoves {x : Except State State} {f : State → State}
    (h : (match x with | .ok a => decide (MovesOn (f a) 3) | .error _ => false) = true) : ∃ a, x = .ok a ∧ MovesOn (f a) 3 := by
  cases x with
  | error e => exact nomatch h
  | ok a => exact ⟨a, rfl, of_decide_eq_true h⟩
theorem twoMove {x : Except State State} {f : State → Except State State} {g : State → State}
    (h : (match x with
      | .ok a => (match f a with | .ok b => decide (MovesOn (g b) 3) | .error _ => false)
      | .error _ => false) = true) :
    ∃ a, x = .ok a ∧ ∃ b, f a = .ok b ∧ MovesOn (g b) 3 := by
  cases x with
  | error e => exact nomatch h
  | ok a => exact ⟨a, rfl, exMoves h⟩

/-- The packet in flight with its work. -/
def flying (s : State) (pkt : List (Nat × Byte)) (work : PktWork) (nest : Option Nat) : State :=
  (acquired s pkt).updQueue 3 fun y => { y with inflight := [{ packet work 0 with
    id := (s.fwAcquire (s.fwScope (s.queue 3).vd (recBits (pktOf pkt) 0 9 2))).serial, vd := 0, ty := pktType (pktOf pkt), nest := nest
    amax := List.replicate 8 0, amaxst := List.replicate 8 0 }] }

/-- A packet whose record, signal or program lies at 0x60000, and a launch record of so many points. -/
def toRec (ty : Byte) (more : List (Nat × Byte)) : List (Nat × Byte) := [(0, ty), (0x12, 6)] ++ more
def recOf (n flags : Byte) : List (Nat × Byte) := [(0x60002, 0x10 + flags), (0x60003, 1), (0x60058, n)]
def rec_ (s : State) (pkt : List (Nat × Byte)) : Option (List Byte) :=
  ((acquired s pkt).fwRead (s.queue 3).ctx (pktDword (pktOf pkt) 0x10).toNat 256).toOption

/-- What the launch of the record gives: its code, whether it has no point, and whether there is room for another nest. -/
def launchOf (s : State) (pkt : List (Nat × Byte)) (gang : Bool) : Option (Option Nat × Bool × Bool) :=
  (rec_ s pkt).map fun b =>
    let n := (LaunchRec.ofBytes b).nest 1 0 3 (acquired s pkt).serial (if gang then [0] else []) s.time
    ((acquired s pkt).launchCode b n gang [0], n.open.done, decide (s.nests.length + s.gangs.length < 64))

/-- Sixty-four nests. -/
def crowded (s : State) : State := { s with nests := (List.range 64).map fun k => (k, bootNest) }

/-- A slot that the tables do not map, or map for reading alone. -/
def unmapped (s : State) : State := s.updQueue 3 fun q => { q with base := 0x40000000 }
def readOnly : State :=
  (atHead [] [(0x22008, 0x11), (0x2200A, 0x20), (0x200000, 0x7F)]).updQueue 3 fun q => { q with base := 0x200000 }
/-- The packet at the head fails, with no signal, and the queue enters ERROR and moves on. -/
def failsOn (s : State) (f : Failing) : Prop :=
  ∃ s2, (s.updQueue 3 fun y => { y with failing := [f] }).queueError (.event (.fountainheadStep (3 / 64))) 3 0x18 0 = .ok s2 ∧
    MovesOn (s2.updQueue 3 fun y => { y with failing := [{ f with recorded := true }] }) 3

theorem witness_PacketSteps :
    (OnlyLane (unmapped (atHead [] [])) 3 ∧ (let s := unmapped (atHead [] [])
     (match s.fwRead 1 (slotAddr (s.queue 3)) 64 with | .ok _ => false | .error _ => true) = true ∧
       idxAhead (s.queue 3).ridx (s.queue 3).w = 1 ∧ failsOn s ⟨none, 0, 1, 0, 0, some 0x18, true, false⟩)) ∧
    (let s := readOnly
     s.fwRead 1 (slotAddr (s.queue 3)) 64 = .ok (pktOf [(0, 0x7F)]) ∧
       (match s.rangeFw 1 .write (slotAddr (s.queue 3)) 64 with | .ok _ => false | .error _ => true) = true ∧
       pktType (pktOf [(0, 0x7F)]) ≠ 0 ∧ pktCompl (pktOf [(0, 0x7F)]) = 0 ∧
       failsOn s ⟨none, 0, 1, 0, 0, some 0x18, true, false⟩) ∧
    (readableAt (atHead (toRec 1 []) (recOf 1 0)) (toRec 1 []) ∧ launchOf (atHead (toRec 1 []) (recOf 1 0)) (toRec 1 []) false =
      some (none, false, true) ∧ MovesOn (flying (atHead (toRec 1 []) (recOf 1 0)) (toRec 1 []) (.nest 9) (some 9)) 3) ∧
    launchOf (atHead (toRec 1 []) (recOf 0 0)) (toRec 1 []) false = some (none, true, true) ∧
    launchOf (atHead (toRec 1 []) [(0x60000, 4)]) (toRec 1 []) false = some (some 1, true, true) ∧
    launchOf (crowded (atHead (toRec 1 []) (recOf 1 0))) (toRec 1 []) false = some (none, false, false) ∧
    (let pkt := toRec 2 [(0x18, 1)]
     readableAt (atHead pkt (recOf 1 3)) pkt ∧ pktParts (pktOf pkt) = [0] ∧
       ((atHead pkt (recOf 1 3)).vdNow 0).owned = [0] ∧ launchOf (atHead pkt (recOf 1 3)) pkt true = some (none, false, true)) ∧
    (let pkt := [(0, 1), (0x16, (1 : Byte))]
     readableAt (atHead pkt []) pkt ∧ rec_ (atHead pkt []) pkt = none) ∧
    (let pkt := toRec 5 []; let s := atHead pkt []
     readableAt s pkt ∧ (acquired s pkt).slotBlock 1 0 = .ok [] ∧ (acquired s pkt).findSluice [0] 0 = some (0, 0)) ∧
    (let pkt := toRec 5 []
     let s : State := { atHead pkt [] with ports := (List.range 32).map fun i => (i, ⟨0xFFFFFFFF, 1⟩) }
     readableAt s pkt ∧ (acquired s pkt).findSluice [0] 0 = none) ∧
    (let pkt := toRec 4 [(0x18, 7), (0x20, 1)]; let s := atHead pkt []
     readableAt s pkt ∧ (acquired s pkt).resolveFw 1 .write (pktDword (pktOf pkt) 0x10).toNat = .ok (flatPhys 0x60000) ∧
       (let a := acquired s pkt
        let x := s.queue 3
        a.pieceWaits 1 (.event (.fountainheadStep (3 / 64))) (a.storePieces 1 (pktDword (pktOf pkt) 0x10).toNat 8 ++
          a.storePieces 1 (slotAddr x) 1 ++ a.storePieces 1 (x.header.toNat + 0x14) 4) = none) ∧
       (acquired s pkt).pieceWaits 1 (.event (.fountainheadStep (3 / 64))) [(flatPhys 0x60000, 8)] = none ∧
       recBits (pktOf pkt) 0x20 0 2 = 1) ∧
    readableAt (atHead [(0, 0x7F)] []) [(0, 0x7F)] ∧
    (let pkt := toRec 3 []
     readableAt (atHead pkt []) pkt ∧ (atHead pkt []).readSignals 1 (pktDeps (pktOf pkt)) = some [0] ∧
       (atHead pkt [(0x60000, 1)]).readSignals 1 (pktDeps (pktOf pkt)) = some [1]) ∧
    (let pkt : List (Nat × Byte) := [(0, 9), (0xA, 7)]; let s := atHead pkt []
     s.fwRead 1 (slotAddr (s.queue 3)) 64 = .ok (pktOf pkt) ∧ (pktType (pktOf pkt) = 9 ∧ pktCompl (pktOf pkt) = 0x70000) ∧
       (let f : Failing := ⟨none, 0, 1, 0, 0x70000, some 0x10, false, false⟩
        let act : Action := .event (.fountainheadStep (3 / 64))
        ∃ s1, (s.updQueue 3 fun y => { y with failing := [f] }).complete act 0 ⟨3, 0, 0, 1, 0x70000, false, 2, none⟩ = .ok s1 ∧
          ∃ s2, (s1.updQueue 3 fun y => { y with failing := [{ f with signalled := true }] }).queueError act 3 0x10 0 = .ok s2 ∧
            MovesOn (s2.updQueue 3 fun y => { y with failing := [{ f with signalled := true, recorded := true }] }) 3)) ∧
    (((lane id boot).findSluice [0] 1) = some (96, 0)) :=
  ⟨⟨⟨rfl, rfl, rfl, rfl, by decide, by decide, fun _ h _ => only_queue (f := fun q => { q with w := 1, base := 0x40000000 }) rfl h⟩,
      by decide +kernel, by decide +kernel, exMoves (by decide +kernel)⟩,
    ⟨ok1 (by decide +kernel), by decide +kernel, by decide +kernel, by decide +kernel, exMoves (by decide +kernel)⟩,
    ⟨⟨ok1 (by decide +kernel), ex1 (by decide +kernel), by decide +kernel⟩, by decide +kernel, by unfold MovesOn; decide +kernel⟩,
    by decide +kernel, by decide +kernel, by decide +kernel,
    ⟨⟨ok1 (by decide +kernel), ex1 (by decide +kernel), by decide +kernel⟩, by decide +kernel⟩,
    ⟨⟨ok1 (by decide +kernel), ex1 (by decide +kernel), by decide +kernel⟩, by decide +kernel⟩,
    ⟨⟨ok1 (by decide +kernel), ex1 (by decide +kernel), by decide +kernel⟩, ok1 (by decide +kernel), by decide +kernel⟩,
    ⟨⟨ok1 (by decide +kernel), ex1 (by decide +kernel), by decide +kernel⟩, by decide +kernel⟩,
    ⟨⟨ok1 (by decide +kernel), ex1 (by decide +kernel), by decide +kernel⟩, ok1 (by decide +kernel), by decide +kernel⟩,
    ⟨ok1 (by decide +kernel), ex1 (by decide +kernel), by decide +kernel⟩,
    ⟨⟨ok1 (by decide +kernel), ex1 (by decide +kernel), by decide +kernel⟩, by decide +kernel⟩,
    ⟨ok1 (by decide +kernel), by decide +kernel, twoMove (by decide +kernel)⟩, by decide +kernel⟩

theorem witness_QueueSteps :
    (let s : State := { lane id boot with time := 50000 }
     (3 : Nat) < 256 ∧ (s.queue 3).state ≠ .disabled ∧ 50000 ≤ s.time - (s.queue 3).reconciled ∧
       s.fwNat (s.queue 3).ctx ((s.queue 3).header.toNat + 0x10) 4 = .ok 0) ∧
    ((boot.queue 3).state = .disabled ∧ (boot.queue 3).enable = false ∧ (0x10001 : W64).getLsbD 0 = true ∧
      ((lane id boot).queue 3).enable = true) ∧
    (let s := (with_ [(0x50001, 0x04), (0x50002, 5), (0x50008, 6)] (flat boot)).updQueue 3 fun q => { q with hdr := 0x50000 }
     let ctx := (1 : BitVec 16).toNat
     ctx ≠ 0 ∧ (s.ctx ctx).state = .live ∧ (s.queue 3).hdr.toNat % 64 = 0 ∧
     ∃ b, s.fwRead ctx (s.queue 3).hdr.toNat 64 = .ok b ∧ ((pktDword b 0).toNat % 64 = 0 ∧ 6 ≤ recBits b 8 0 5 ∧
       recBits b 8 0 5 ≤ 16)) ∧
    (let s := (with_ [(0x50001, 0x04), (0x50002, 5), (0x50008, 5)] (flat boot)).updQueue 3 fun q => { q with hdr := 0x50000 }
     ((s.ctx 1).state = .live ∧ (s.queue 3).hdr.toNat % 64 = 0 ∧
       ((s.rangeFw 1 .write ((s.queue 3).hdr.toNat + 0x18) 8).toOption.elim true fun l =>
         (s.pieceWaits 1 (.event (.queueEnable 3 1 0)) l).isNone) = true) ∧
     ∃ b, s.fwRead 1 (s.queue 3).hdr.toNat 64 = .ok b ∧ recBits b 8 0 5 < 6) ∧
    (0 : BitVec 16).toNat = 0 ∧
    (let s := (flat boot).updQueue 3 fun q => { q with hdr := 0x50008 }
     (s.ctx 1).state = .live ∧ (s.queue 3).hdr.toNat % 64 ≠ 0 ∧
       ((s.rangeFw 1 .write ((s.queue 3).hdr.toNat + 0x18) 8).toOption.elim true fun l =>
         (s.pieceWaits 1 (.event (.queueEnable 3 1 0)) l).isNone) = true) ∧
    (let p := packet (.outcome none) 0x60000
     let s := lane (fun q => { q with inflight := [p] }) boot
     ((s.queue 3).inflight.find? (fun y => y.id == p.id) = some p ∧ p.work = .outcome none ∧ p.block = 0 ∧ p.compl ≠ 0 ∧
       s.descheduled p.vd = false ∧
       s.needHost (s.fwLines p.nest ++ s.signalLine p.ctx p.compl) [.event (.packetComplete 3 p.id)] = none) ∧ ∃ s1, s.fwRelease (.event (.packetComplete 3 p.id)) p.nest = .ok s1 ∧
       (s1.resolveFw p.ctx .write p.compl.toNat).toOption = some (flatPhys 0x60000) ∧
       s1.pieceWaits p.ctx (.event (.packetComplete 3 p.id)) [(flatPhys 0x60000, 8)] = none) ∧
    OnlyLane (atHead [(0, 1)] []) 3 ∧ boot.mgmt.booted = true :=
  ⟨⟨by decide, by decide +kernel, by decide +kernel, ok1 (by decide +kernel)⟩, by decide +kernel,
    ⟨by decide +kernel, by decide +kernel, by decide +kernel, exP (fun b : List Byte =>
      (pktDword b 0).toNat % 64 = 0 ∧ 6 ≤ recBits b 8 0 5 ∧ recBits b 8 0 5 ≤ 16) (by decide +kernel)⟩,
    ⟨by decide +kernel, exP (fun b : List Byte => recBits b 8 0 5 < 6) (by decide +kernel)⟩, by decide, by decide +kernel,
    ⟨by decide +kernel, _, rfl, by decide +kernel⟩, atHead_lane _ _, by decide⟩

/-- Tables of a FREE context 2 that map the first 3 GiB to themselves. -/
def giant (s : State) : State :=
  { s.updCtx 2 fun c => { c with root := 0x20000, fault := 0x40000 } with
    m := { s.m with mem := [(0x20000, 1), (0x20001, 0x10), (0x20002, 2), (0x21000, 0x13), (0x21008, 0x13), (0x2100B, 0x40),
      (0x21010, 0x13), (0x21013, 0x80)] } }

/-- Regions of basin 3 changed, and a shootdown channel busy. -/
def regions (f : Regions → Regions) : State := boot.updBasin 3 fun b => { b with regions := f b.regions }

theorem witness_RegionAndContextSteps :
    ((3 : Nat) < 4 ∧ (15 : Nat) < 16 ∧ (2 : Nat) < 3 ∧ (boot.basin 3).regions.busy = false ∧
      (1 : W64).getLsbD 0 = true ∧ commitOk (boot.basin 3).regions.staging = true) ∧
    (((regions fun r => { r with busy := true }).basin 3).regions.busy = true ∧
      ∀ b ∈ (regions fun r => { r with busy := true }).m.ingress, b.2 = []) ∧
    commitOk ((regions fun r => { r with staging := [⟨0x20001, 0, 0x700⟩] }).basin 3).regions.staging = false ∧
    ((7 : Nat) < 8 ∧ (boot.chan 7).busy = false ∧ (0x100010001 : W64).getLsbD 0 = true ∧
      (0x100010001 : W64).extractLsb' 32 32 ≠ 0 ∧ (0x100010001 : W64).getLsbD 30 = false ∧
      (boot.ctx ((0x100010001 : W64).extractLsb' 16 12).toNat).state = .live) ∧
    (let s := boot.setChan 7 ⟨0, 0x100010001, true⟩
     (s.chan 7).busy = true ∧ s.usesRange (s.chan 7).ctx (s.chan 7).span.1 (s.chan 7).span.2 = false ∧
       ∃ s1, s.performAll (.event (.shootdownComplete 7)) = .ok s1) ∧
    (({ boot with cmd := ⟨0, true, 1⟩ } : State).cmd.busy = true ∧ (4095 : Nat) < 4096) ∧
    (boot.cmd.busy = false ∧ (boot.ctx 1).state ≠ .free ∧ (boot.ctx 0).state = .free) ∧
    ((boot.ctx 2).state = .free ∧ 10 ≤ (boot.ctx 2).drain ∧ (boot.ctx 2).drain ≤ 10000 ∧ boot.drainOk 2 = true ∧
      boot.areasOk 2 = false) ∧
    (let s := { boot with vds := [(0, { VirtDev.reset with cfg := 0x100010080 })] }.updCtx 2 fun c => { c with cfg := 0x2710 <<< 16 }
     s.cmd.busy = false ∧ (s.ctx 2).state = .free ∧ 10 ≤ (s.ctx 2).drain ∧ (s.ctx 2).drain ≤ 10000 ∧ s.drainOk 2 = false) ∧
    ((giant boot).cmd.busy = false ∧ ((giant boot).ctx 2).state = .free ∧ (giant boot).drainOk 2 = true ∧
      (giant boot).areasOk 2 = true) ∧
    boot.ctxActive 1 = true ∧
    (({ boot with teams := [], nests := [] } : State).ctxActive 1 = false ∧ (boot.ctx 1).state = .live) ∧
    (let s : State := { boot.updCtx 2 fun c => { c with state := .dying } with cmd := ⟨0, true, 2⟩ }
     s.cmd.busy = true ∧ s.cmd.ctx = 2 ∧ (s.ctx 2).state = .dying ∧ s.usesRange 2 0 (2 ^ 36) = false ∧
       ∃ s1, s.performAll (.event (.ctxDestroyComplete 2)) = .ok s1) :=
  ⟨by decide +kernel, by decide +kernel, by decide +kernel, by decide +kernel,
    ⟨by decide +kernel, by decide +kernel, ex1 (by decide +kernel)⟩, by decide, by decide +kernel, by decide +kernel,
    by decide +kernel, by decide +kernel, by decide +kernel, by decide +kernel,
    ⟨rfl, rfl, by decide +kernel, by decide +kernel, ex1 (by decide +kernel)⟩⟩

theorem witness_ControlRegisterWrites :
    ((31 : Nat) < 32 ∧ (127 : Nat) < 128) ∧
    ((0x80 : W64).getLsbD 7 = true ∧ ((0x80 : W64).extractLsb' 16 16).toNat = 0) ∧
    (¬ ((0x10080 : W64).getLsbD 7 = true ∧ ((0x10080 : W64).extractLsb' 16 16).toNat = 0) ∧
      (boot.vd 0).policy.getLsbD 2 = false ∧ ((0x10080 : W64).extractLsb' 16 16).toNat < boot.drainOf 0) ∧
    (¬ ((0xA0080 : W64).getLsbD 7 = true ∧ ((0xA0080 : W64).extractLsb' 16 16).toNat = 0) ∧
      boot.drainOf 0 ≤ ((0xA0080 : W64).extractLsb' 16 16).toNat) ∧
    (¬ ((boot.vd 0).cfg.getLsbD 7 = true ∧ ((boot.vd 0).cfg.extractLsb' 16 16).toNat = 0) ∧ (4 : W64).getLsbD 2 = true) ∧
    (∀ k, k < 128 → k ≠ 5 → ((boot.updBasin 2 fun b => { b with ways := [(0, 0xFF00), (5, 3)] }).basin 2).waysOf k &&&
      (BitVec.setWidth 16 (4 : W64) : BitVec 16) = 0) ∧
    ((3 : Nat) ≠ 5 ∧ ((boot.updBasin 2 fun b => { b with ways := [(0, 0xFF00), (5, 3)] }).basin 2).waysOf 5 &&&
      (BitVec.setWidth 16 (1 : W64) : BitVec 16) ≠ 0) ∧
    ((255 : Nat) < 256 ∧ (7 : Nat) < 8 ∧ ((4608 : W64).extractLsb' 0 13).toNat ≤ 4608) ∧
    ((boot.ctx 4095).state = .free ∧ (boot.ctx 1).state ≠ .free ∧ (boot.chan 7).busy = false) ∧
    (1 ≤ 1024 ∧ 1023 < 1024 ∧ (60000 : Nat) ≤ 60000) ∧
    (((0x10001 : W64).extractLsb' 0 2).toNat = 1 ∧ ((0x10002 : W64).extractLsb' 0 2).toNat = 2 ∧
      ((0x10000 : W64).extractLsb' 0 2).toNat = 0 ∧ ((0x10003 : W64).extractLsb' 0 2).toNat = 3) := by
  refine ⟨by decide, by decide, by decide, by decide +kernel, by decide +kernel, by decide +kernel, by decide +kernel, by decide +kernel, by decide, by decide +kernel, by decide⟩

/-- The mapped page, replicated in basin 3. -/
def replicated (s : State) : State := { paged s with m := { (paged s).m with replicas := [⟨1, 0, 512, 0, 3, 3 * 2 ^ 31⟩] } }

theorem witness_HostRequests :
    hostRangeOk (2 ^ 45) 1 = false ∧
    (hostRangeOk bootPa 4 = true ∧ bootPa % 128 + ([1, 2, 3, 4] : List Byte).length ≤ 128 ∧
      boot.replOf (hostPieces bootPa 4) = [] ∧ boot.m.collapses = []) ∧
    (boot.ingressFull .host = false ∧ boot.agedFirst Path.host.code = false) ∧
    (let s : State := { boot with turned := [(5, .event (.hostWrite 0 [2]), 0)], clk := 256 }
     hostRangeOk bootPa 4 = true ∧ s.replOf (hostPieces bootPa 4) = [] ∧ s.m.collapses = [] ∧ placeOf bootPa ≠ .host ∧
       s.agedFirst Path.host.code = true) ∧
    (hostRangeOk (2 ^ 42) 4 = true ∧ placeOf (2 ^ 42) = .host) ∧
    (hostRangeOk 64 4 = true ∧ (replicated boot).replOf (hostPieces 64 4) ≠ []) ∧
    (placeOf bootPa ≠ .host ∧ boot.m.backInv.find? (lineOf bootPa) = none) ∧
    ((1 : Nat) ≤ 4095 ∧ (4095 : Nat) < 4096 ∧ (255 : Nat) < 256 ∧ (7 : Nat) < 8) ∧
    hostAtomicOk .and bootPa 4 = false ∧
    (bootPa % 8 = 0 ∧ bootPa % 2 ^ 43 < 192 * 2 ^ 30 ∧ bootPa < 2 ^ 45 ∧
      boot.replOf [(⟨bootPa, 0, noKey, 0, false, false⟩, 8)] = []) ∧
    (∀ e ∈ boot.teams, ∀ g ∈ e.2.groups, g.hostPending 7 = false) ∧
    (let s : State := { boot with m := { boot.m with backInv := [(7, [.event (.hostWrite 0 [1])])], hostHeld := [7] } }
     (s.m.backInv.find? 7).isSome = true ∧ s.hostHolds 7 = true ∧ s.m.backInv.sorted = true ∧
       ∀ e ∈ s.m.backInv, e.1 ≠ 7 → s.hostHolds e.1 = true → ∀ a ∈ s.m.backInv.getD 7 [], a ∉ e.2) := by
  decide +kernel

theorem witness_ManagementSteps :
    (({ boot with mgmt := { boot.mgmt with sampled := some 0 } } : State).time - 0 < 1000000) ∧
    (boot.mgmt.sampled = none ∧ boot.mgmt.log.length < 4096) ∧
    (2400 * ((2401 :: boot.mgmt.power).take 10).length < ((2401 :: boot.mgmt.power).take 10).foldl (· + ·) 0 ∧
      boot.mgmt.lowered = false) ∧
    ({ boot.mgmt with lowered := true } : Mgmt).lowered = true ∧
    ((2399 :: boot.mgmt.power).take 10).foldl (· + ·) 0 < 2400 * ((2399 :: boot.mgmt.power).take 10).length ∧
    (boot.mgmt.image boot.mgmt.marked).sigOk = true ∧
    (let m : Mgmt := { boot.mgmt with imgA := ⟨1, false⟩ }
     (m.image m.marked).sigOk = false ∧ (m.image (!m.marked)).sigOk = true) ∧
    (let m : Mgmt := { boot.mgmt with imgA := ⟨1, false⟩, imgB := ⟨1, false⟩ }
     (m.image m.marked).sigOk = false ∧ (m.image (!m.marked)).sigOk = false) ∧
    boot.mgmt.leaves < 32768 ∧ 32768 ≤ ({ boot.mgmt with leaves := 32768 } : Mgmt).leaves := by
  decide +kernel

theorem witness_EncodeDecode : WellFormed (.movi ⟨all, false, 20, 0x3F800000⟩) = true ∧
    (Instr.movi ⟨all, false, 20, 0x3F800000⟩).isEvent = false := by decide

theorem witness_DecodeEncode :
    (match decode (encode (.movi ⟨all, false, 20, 0x3F800000⟩)) with
      | .ok i => i == .movi ⟨all, false, 20, 0x3F800000⟩
      | .error _ => false) = true := by decide

/-- The state whose next step issues a word of the first slot. -/
def next (word : W64) (f : Team → Team) (g : Group → Group) : State :=
  (State.reset.place word).updTeam 0 fun t => f { t with groups := [g grp0] }

/-- What a state of a word meets before it issues. -/
def issues (word : W64) (f : Team → Team) (g : Group → Group) : Prop :=
  (next word f g).action = .issue (.grp 0 0 false) ∧ (next word f g).turn.siteAt 0 0 false = some (siteT f g) ∧
  (siteT f g).g.st.owedNan = none ∧ (siteT f g).unstopped (next word f g).turn = true ∧
  (next word f g).turn.needWalk (siteT f g).core (siteT f g).ctx ((siteT f g).pc.toNat / 4096) = false ∧
  ((next word f g).turn.fetch (siteT f g).core (siteT f g).ctx (siteT f g).pc).toOption = some word

/-- MOVI v20, #0x3F800000, and the word of a half pair that breaks the bank rule. -/
def movi : W64 := encode (.movi ⟨all, false, 20, 0x3F800000⟩)
def iadd : W64 := encode (.iadd ⟨all, false, false, .i32, false, 4, 5, 6⟩)

/-- A result outstanding into v4 with its window open. -/
def waiting (slot : Bool) (g : Group) : Group :=
  { g with pend := [⟨0, slot, none, false, [⟨.v, 4, 1, true⟩], .value, [], 3, 0⟩] }

/-- The slot has a repeat of its word under way: 3 left, 1 done, with strides 1, 1, 1 and 0. -/
def repeating : Group → Group := regs fun r => { r with s0 := { r.s0 with repc := 0x02480103 } }

theorem witness_StepRunsWord :
    (issues movi id id ∧ (siteT id id).ready = true ∧ (siteT id id).ps.repc = 0 ∧
      (match decodeCore movi with
        | .ok i => i.allocOk (siteT id id).tm.shape.vregs && !(siteT id id).tileBad i && !(siteT id id).lookahead i &&
            !(siteT id id).crossWait i && ((siteT id id).pages i).isEmpty && !Instr.writesDevice i
        | .error _ => false) = true ∧ (siteT id id).g.spec = none) ∧
    (issues iadd id repeating ∧ (siteT id repeating).ready = true ∧ (siteT id repeating).ps.repc ≠ 0 ∧
      repLegal iadd (repcStrides (siteT id repeating).ps.repc) = true ∧
      (match stepWord iadd (repcStrides (siteT id repeating).ps.repc) (repcDone (siteT id repeating).ps.repc) with
        | some x => (match decodeCore x with
          | .ok i => i.allocOk (siteT id repeating).tm.shape.vregs && !(siteT id repeating).tileBad i &&
              !(siteT id repeating).lookahead i && !(siteT id repeating).crossWait i
          | .error _ => false)
        | none => false) = true) ∧
    (let s := State.reset.place (encode (.slMov ⟨1, .imm 5⟩))
     s.action = .issue (.sluice 0 0) ∧ ∃ w, s.turn.slAt 0 0 = some w ∧ w.waits s.turn = false ∧
       s.turn.needWalk w.core w.c.ctx (w.c.pc.toNat / 4096) = false ∧
       (s.turn.slFetchAt 0 w.c.ctx w.c.pc).toOption = some (phys 0) ∧
       (let line := ((s.turn.core 0).cached? (phys 0)).getD (s.turn.readPath .core { phys 0 with pa := 128 * lineOf (phys 0).pa } 128)
        (decodeSluice (BitVec.ofNat 64 (bytesToNat ((line.drop ((phys 0).pa % 128)).take 8)))).toOption =
          some (.slMov ⟨1, .imm 5⟩))) ∧
    (({ State.reset with agenda := [.event .deviceReset] } : State).action = .event .deviceReset ∧
      Instr.deviceReset.isEvent = true ∧ throughBar .deviceReset = false ∧ throughBar (.queueEnable 0 1 0) = true ∧
      (Instr.queueEnable 0 1 0).isEvent = true) := by
  refine ⟨?_, ?_, ⟨rfl, _, rfl, ?_⟩, ?_⟩ <;> (try unfold issues) <;> decide +kernel

/-- A pair word whose halves break a bank rule. -/
def badPair : W64 := encode (.halfIadd ⟨⟨4, 5, false, all⟩, .iadd, ⟨4, 5, false, all⟩⟩)

/-- The slot stands at page 0, which the tables map and no TLB holds. -/
def atPage0 : Group → Group := regs fun r => { r with s0 := { r.s0 with pc := 0 } }
def walking (l : List Walk) : State :=
  { paged (next movi id atPage0) with m := { (paged (next movi id atPage0)).m with walks := [(0, l)] } }

/-- What a state meets whose slot begins a walk. -/
def needs (l : List Walk) : Prop :=
  (walking l).action = .issue (.grp 0 0 false) ∧ (walking l).turn.siteAt 0 0 false = some (siteT id atPage0) ∧
  (siteT id atPage0).ready = true ∧ (siteT id atPage0).unstopped (walking l).turn = true ∧
  (siteT id atPage0).g.st.owedNan = none ∧ (walking l).turn.needWalk 0 1 0 = true ∧ (walking l).turn.walksOf 0 = l

/-- A walk of a page that a core has under way. -/
def walk0 (core page : Nat) : Walk := ⟨core, 1, page, .issue (.grp 0 0 false), []⟩

/-- MX.ZERO of 64 tiles from tile 63. -/
def mxz : W64 := encode (.mxZero ⟨0, 2⟩)
def tile63 : Group → Group := regs (base (63 + 63 * 2 ^ 14))

theorem witness_WalksAndTiles :
    (needs [] ∧ needs [walk0 0 0] ∧ needs ((List.range 64).map fun k => walk0 1 k) ∧
      (∀ x ∈ (List.range 64).map (walk0 1), ¬ (x.core = 0 ∧ x.ctx = 1 ∧ x.page = 0)) ∧ (siteT id atPage0).g.wait false = none ∧
      (walking []).turn.agedIn 0 = false ∧ (walking []).turn.agedFirst (walkersOf 0) = false) ∧
    (issues mxz id tile63 ∧ (siteT id tile63).ready = true ∧ (siteT id tile63).blocked = false ∧
      (match decodeCore mxz with
        | .ok i => i.allocOk (siteT id tile63).tm.shape.vregs && (siteT id tile63).tileBad i && !(siteT id tile63).crossWait i
        | .error _ => false) = true) := by
  refine ⟨⟨?_, ?_, ?_, ?_⟩, ?_⟩ <;> (try unfold needs) <;> (try unfold issues) <;> decide +kernel

/-- A store whose lanes name the mapped page, while an aged request waits for the CORE buffers. -/
def stw : W64 := encode (.st ⟨all, .b32, .grp, .plain, true, 0, 2, 0⟩)
def crowding : State := { next stw id (regs (base bootVa)) with turned := [(0, .event (.hostWrite 0 [2]), 0)], clk := 256 }

theorem witness_StoreTurnedAway :
    (crowding.action = .issue (.grp 0 0 false) ∧ crowding.turn.siteAt 0 0 false = some memSite ∧ memSite.ready = true ∧
      memSite.unstopped crowding.turn = true ∧ memSite.g.st.owedNan = none ∧
      crowding.turn.needWalk memSite.core memSite.ctx (memSite.pc.toNat / 4096) = false ∧
      (crowding.turn.fetch memSite.core memSite.ctx memSite.pc).toOption = some stw ∧
      (match decodeCore stw with
        | .ok i => i.allocOk memSite.tm.shape.vregs && !memSite.crossWait i && !memSite.tileBad i && !memSite.lookahead i &&
            Instr.writesDevice i && (memSite.pages i).all fun p => !crowding.turn.needWalk memSite.core memSite.ctx p
        | .error _ => false) = true ∧ memSite.g.spec = none ∧ memSite.g.wait false = none) ∧
    crowding.turn.agedFirst Path.core.code = true := by
  refine ⟨by decide +kernel, List.any_eq_true.mpr ⟨(0, .event (.hostWrite 0 [2]), 0), by decide +kernel, ?_⟩⟩
  have h : agedAfter ≤ crowding.turn.clk - 0 := by show 256 ≤ 256 + _ - 0; omega
  exact (Bool.and_eq_true _ _).mpr ⟨(Bool.and_eq_true _ _).mpr ⟨rfl, decide_eq_true h⟩, rfl⟩

theorem witness_IssueChecks :
    (let f := fun g : Group => { g with w0 := some .itemq }
     (next movi id f).action = .issue (.grp 0 0 false) ∧ (next movi id f).turn.siteAt 0 0 false = some (siteT id f) ∧
       (siteT id f).ready = false) ∧
    (let f := regs fun r => { r with s0 := { r.s0 with pc := 0x1000000000000 } }
     (next movi id f).action = .issue (.grp 0 0 false) ∧ (next movi id f).turn.siteAt 0 0 false = some (siteT id f) ∧
       (siteT id f).ready = true ∧ (siteT id f).blocked = false ∧ (siteT id f).unstopped (next movi id f).turn = true ∧
       (siteT id f).g.st.owedNan = none ∧
       (next movi id f).turn.needWalk (siteT id f).core (siteT id f).ctx ((siteT id f).pc.toNat / 4096) = false ∧
       (next movi id f).turn.fetch (siteT id f).core (siteT id f).ctx (siteT id f).pc = .error .xlateNp) ∧
    (issues 0 id id ∧ (siteT id id).ready = true ∧ (siteT id id).ps.repc = 0 ∧ (siteT id id).blocked = false ∧
      decodeCore 0 = .error .opcode) ∧
    (issues badPair id id ∧ decodeCore badPair = .error .pairRule ∧
      (pairCand badPair).any (fun i => i.allocOk (siteT id id).tm.shape.vregs) = true) ∧
    (let f := fun t : Team => { t with shape := { t.shape with vregs := 16 } }
     issues movi f id ∧ (siteT f id).ready = true ∧ (siteT f id).blocked = false ∧
       (match decodeCore movi with
         | .ok i => !i.allocOk (siteT f id).tm.shape.vregs
         | .error _ => false) = true) ∧
    (issues iadd id (waiting false) ∧ (siteT id (waiting false)).ready = true ∧ (siteT id (waiting false)).blocked = false ∧
      (match decodeCore iadd with
        | .ok i => i.allocOk (siteT id (waiting false)).tm.shape.vregs && (siteT id (waiting false)).lookahead i &&
            !(siteT id (waiting false)).crossWait i && !(siteT id (waiting false)).tileBad i
        | .error _ => false) = true) ∧
    (issues iadd id (waiting true) ∧ (siteT id (waiting true)).ready = true ∧
      (match decodeCore iadd with
        | .ok i => i.allocOk (siteT id (waiting true)).tm.shape.vregs && !(siteT id (waiting true)).lookahead i &&
            !(siteT id (waiting true)).tileBad i && (siteT id (waiting true)).crossWait i
        | .error _ => false) = true) ∧
    (let word := encode .bar
     issues word id (window false []) ∧ (siteT id (window false [])).ready = true ∧
       (siteT id (window false [])).g.spec = some (winW false []) ∧
       (match decodeCore word with
         | .ok i => (siteT id (window false [])).endsWindow i && !(siteT id (window false [])).lookahead i &&
             !(siteT id (window false [])).crossWait i && !(siteT id (window false [])).tileBad i
         | .error _ => false) = true) := by
  refine ⟨?_, ⟨?_, ?_, ?_, ?_, ?_, ?_, ?_, err1 ?_⟩, ⟨?_, ?_, ?_, ?_, err1 ?_⟩, ⟨?_, err1 ?_, ?_⟩, ?_, ?_, ?_, ?_⟩ <;>
    (try unfold issues) <;> decide +kernel

theorem witness_MemoryCanonicalKept : MemoryCanonical (State.reset.place movi) ∧
    (match step (State.reset.place movi) with
      | .next _ => true
      | _ => false) = true := by unfold MemoryCanonical; decide +kernel

/-! ### Single steps -/

/-- A fact about the group after a word of a small state. -/
def after (i : Instr) (s : State) (f : State → Group → Bool) : Bool :=
  match exec i s with
  | .next t => (t.group? 0 0).any (f t)
  | _ => false

/-- Registers that are set in every lane, or in the s file. -/
def v (l : List (Nat × W32)) (r : GroupRegs) : GroupRegs :=
  l.foldl (fun r x => allLanes.foldl (fun r L => r.wrV x.1 L x.2) r) r
def s (l : List (Nat × W32)) (r : GroupRegs) : GroupRegs := l.foldl (fun r x => r.wrS x.1 x.2) r
def on (f : GroupRegs → GroupRegs) : State := bootT id (regs f)

/-- A placed MOVI runs as the first word: v20 holds 1.0 in lane 31, and the PC has moved on by 8 (22 R376, 04 R65). -/
theorem test_step_movi :
    (match step (State.reset.withFetchWord 64 0x0A038A1FC0000000) with
      | .next t => (t.group? 0 0).any fun g => g.r.rdV 20 31 == 0x3F800000 && g.r.s0.pc == BitVec.ofNat 64 (bootVa + 8)
      | _ => false) = true := by decide +kernel

/-- Sums wrap without SAT and clamp with it (21 R364). -/
theorem test_iadd_wraps : after (.iadd ⟨all, true, false, .i32, false, 4, 1, 2⟩) (on (s [(1, 0x7FFFFFFF), (2, 1)]))
    (fun _ g => g.r.rdS 4 == 0x80000000) = true := by decide
theorem test_iadd_clamps : after (.iadd ⟨all, true, false, .i32, true, 4, 1, 2⟩) (on (s [(1, 0x7FFFFFFF), (2, 1)]))
    (fun _ g => g.r.rdS 4 == 0x7FFFFFFF) = true := by decide

/-- IMULH of −2 and 3 holds the sign of −6; BFX.I32 extends its field; a shift by 32 leaves 0, and SAR the sign (21 R364, 20 R326,
22 R405). -/
theorem test_imulh_sign : after (.imulh ⟨all, true, false, .i32, 4, 1, 2⟩) (on (s [(1, 0xFFFFFFFE), (2, 3)]))
    (fun _ g => g.r.rdS 4 == 0xFFFFFFFF) = true := by decide
theorem test_bfx_sign : after (.bfx ⟨all, true, true, 4, 1, 4, 8⟩) (on (s [(1, 0xF80)])) (fun _ g => g.r.rdS 4 == 0xFFFFFFF8) =
    true := by decide
theorem test_shr_32 : after (.shr ⟨all, true, .b32, 4, 1, .reg false 2⟩) (on (s [(1, 0xFFFFFFFF), (2, 32)]))
    (fun _ g => g.r.rdS 4 == 0) = true := by decide
theorem test_sar_32 : after (.sar ⟨all, true, .i32, 4, 1, .reg false 2⟩) (on (s [(1, 0x80000000), (2, 32)]))
    (fun _ g => g.r.rdS 4 == 0xFFFFFFFF) = true := by decide

/-- A guarded word writes its active lanes alone, and a uniform source is read once for every lane (02 R41, 04 R69). -/
theorem test_guarded_lanes : after (.iadd ⟨⟨true, 1⟩, false, true, .i32, false, 4, 4, 2⟩)
    (on fun r => { s [(2, 5)] (v [(4, 1)] r) with p := r.p.put 1 0xFFFF }) (fun _ g => g.r.rdV 4 15 == 1 && g.r.rdV 4 16 == 6) =
    true := by decide

/-- 1 + 2^−24 is a tie that rounds to even; 0 × ∞ is the canonical NaN (05). -/
theorem test_fadd_tie : after (.fadd ⟨all, true, false, .rne, 4, 1, 2⟩) (on (s [(1, 0x3F800000), (2, 0x33800000)]))
    (fun _ g => g.r.rdS 4 == 0x3F800000) = true := by decide
theorem test_fadd_up : after (.fadd ⟨all, true, false, .rup, 4, 1, 2⟩) (on (s [(1, 0x3F800000), (2, 0x33800000)]))
    (fun _ g => g.r.rdS 4 == 0x3F800001) = true := by decide
theorem test_ffma_single_rounding : after (.ffma ⟨all, true, false, .rne, 4, 1, 1, 2⟩) (on (s [(1, 0x3F800001), (2, 0xBF800002)]))
    (fun _ g => g.r.rdS 4 == 0x28800000) = true := by decide

/-- The quantisation that 20 works out after Table 20-29: 0.75 L through slot 2, which is BI8 with AMAX, is 3 L with the scale
0x7D, and AMAX2 is 23.25; the CVTD of Table 20-28 gives 0.75 L back. -/
def ramp : List W32 := [0x00000000, 0x3F400000, 0x3FC00000, 0x40100000, 0x40400000, 0x40700000, 0x40900000, 0x40A80000, 0x40C00000, 0x40D80000, 0x40F00000,
  0x41040000, 0x41100000, 0x411C0000, 0x41280000, 0x41340000, 0x41400000, 0x414C0000, 0x41580000, 0x41640000, 0x41700000, 0x417C0000,
  0x41840000, 0x418A0000, 0x41900000, 0x41960000, 0x419C0000, 0x41A20000, 0x41A80000, 0x41AE0000, 0x41B40000, 0x41BA0000]
theorem test_cvtq_ramp : after (.cvtq ⟨all, 9, 8, 10, 2⟩)
    (slots 0x208 (on fun r => allLanes.foldl (fun r L => r.wrV 8 L (ramp.getD L 0)) r))
    (fun t g => g.r.rdV 9 31 == 0x5D && g.r.rdV 9 1 == 3 && g.r.rdV 10 0 == 0x7D &&
      (t.nests.find? 0).any fun n => n.amax[2]? == some 0x41BA0000) = true := by decide +kernel
theorem test_cvtd_ramp : after (.cvtd ⟨all, false, 11, 9, 10, 2⟩)
    (slots 0x208 (on fun r => v [(10, 0x7D)] (allLanes.foldl (fun r L => r.wrV 9 L (BitVec.ofNat 32 (3 * L))) r)))
    (fun _ g => g.r.rdV 11 1 == 0x3F400000 && g.r.rdV 11 31 == 0x41BA0000) = true := by decide +kernel

/-- REDUX sums each tile; SHFL.UP keeps the lanes below its distance; BALLOT gathers a predicate (22 R401, R409, 23 R441). -/
theorem test_redux_tile : after (.redux ⟨all, .add, .n32, 4, 1⟩) (on fun r => { v [(1, 3)] r with ltile := 8 })
    (fun _ g => g.r.rdV 4 31 == 24) = true := by decide
theorem test_ballot : after (.vote ⟨all, .ballot, 4, 1⟩) (on fun r => { r with p := r.p.put 1 0x80000001 })
    (fun _ g => g.r.rdV 4 7 == 0x80000001) = true := by decide

/-- The divergent BRA of 02 Table 2-2: S0 falls through with lanes 16 to 31, and S1 takes lanes 0 to 15 at the target. -/
theorem test_bra_diverges : after (.bra ⟨⟨false, 1⟩, 2⟩) (on fun r => { r with p := r.p.put 1 0xFFFF })
    (fun _ g => g.r.s0.mask == 0xFFFF0000 && g.r.s0.pc == BitVec.ofNat 64 (bootVa + 8) && g.r.s1.mask == 0x0000FFFF &&
      g.r.s1.pc == BitVec.ofNat 64 (bootVa + 24)) = true := by decide

/-- The last JOIN of that table: the merged lanes continue in the slot that arrives last. -/
theorem test_join_merges : after .joinw (on fun r => { r with
      s0 := ⟨BitVec.ofNat 64 bootVa, 0x0000FFFF, 0⟩, join := [.mark (BitVec.ofNat 64 bootVa) 0xFFFFFFFF 0xFFFF0000 true] })
    (fun _ g => g.r.s0.mask == 0xFFFFFFFF && g.r.s0.pc == BitVec.ofNat 64 (bootVa + 8) && g.r.join == []) = true := by decide

/-- A load posts its result and writes no register before it lands; a store is read back by its core at once (04 R80, 08 R149). -/
theorem test_ld_posts : after (.ld ⟨0, ⟨false, 1⟩, .b32, .grp, .plain, true, 8, 0, 0⟩)
    (holds [(0, 0x2A)] (on fun r => { base bootVa r with p := r.p.put 1 1 }))
    (fun _ g => g.r.rdV 8 0 == 0 && g.pend.map (·.writes) == [[.v 8 0 0x2A]]) = true := by decide +kernel
theorem test_st_core : after (.st ⟨⟨false, 1⟩, .b32, .grp, .plain, true, 0, 4, 4⟩)
    (on fun r => { v [(4, 0xA1B2C3D4)] (base bootVa r) with p := r.p.put 1 1 })
    (fun t _ => t.coreByte 0 (phys 4) 0 == 0xD4 && t.coreByte 0 (phys 7) 0 == 0xA1 && t.homeByte 0 (bootPa + 4) == 0) =
    true := by decide +kernel

/-- A misaligned load faults at its word, and the team halts (04 R99, 14 R249). -/
theorem test_ld_misaligned : after (.ld ⟨0, all, .b32, .grp, .plain, true, 8, 0, 2⟩) mem0
    (fun t g => g.st.haltedAt == some (BitVec.ofNat 64 bootVa) && (t.teams.find? 0).any (·.phase == .halting) &&
      (t.nests.find? 0).any fun n => n.fault.any fun x => x.cause == .misalign && x.addr == va 2) = true := by decide +kernel

/-- TRAP enters the handler past itself, and TRET goes back (14 R254, R257). -/
theorem test_trap_enters : after (.trapw ⟨all, 7⟩) (handled boot)
    (fun _ g => g.t.inh && g.t.tpc == va 8 && g.t.tcause == 0x720 && g.r.s0.pc == va 0) = true := by decide
theorem test_tret_returns : after .tret (bootT id (trapped fun t => { t with tpc := va 16, hidden := 5 }))
    (fun _ g => !g.t.inh && g.r.s0 == ⟨va 16, 0xFFFFFFFF, 5⟩) = true := by decide

/-- An arrival that reaches EXPECT flips the phase (11 R227). -/
theorem test_barv_flips : after (.barv ⟨0, 1⟩) (bootT (fun t => { t with pad := [(0, 1), (2, 2)] }) id)
    (fun t _ => (t.object 0 0).arrived == 0 && (t.object 0 0).phase && (t.object 0 0).expect == 2) = true := by decide +kernel

/-- SL.MAD and SL.LOOP of a Sluice context (23 R419, R422). -/
theorem test_sl_mad :
    (match exec (.slMad ⟨2, 1, 1, 3⟩) (slS fun c => { c with w := [(1, 5), (3, 2)] }) with
      | .next t => ((t.core 0).sl 0).rd 2 == 27 && ((t.core 0).sl 0).pc == va 8
      | _ => false) = true := by decide
theorem test_sl_loop :
    (match exec (.slLoop ⟨1, 0xFFFFFFFE⟩) (slS fun c => { c with w := [(1, 5)] }) with
      | .next t => ((t.core 0).sl 0).rd 1 == 4 && ((t.core 0).sl 0).pc == va 0 - 8
      | _ => false) = true := by decide

end Sys2Proof
end

/-! PROOFS. A write at the home and the bytes that it leaves (00 R4, 15 R276, R277). -/

namespace Sys2Proof.Machine

/-! ### Bytes of a line listed one after another -/

/-- Memory after the bytes of a line at some offsets have been listed, each with the byte that `f` gives for its offset. -/
def Memory.listBytes (mem : Memory) (line : Nat) (f : Nat → Byte) (offs : List Nat) : Memory :=
  offs.foldl (fun m i => SMap.set m Memory.unlisted (128 * line + i) (f i)) mem

/-- Listing bytes of a line changes those bytes and no other. -/
theorem Memory.getD_listBytes (line pa : Nat) (f : Nat → Byte) : ∀ (offs : List Nat) (mem : Memory), (∀ i ∈ offs, i < 128) →
    (mem.listBytes line f offs).getD pa Memory.unlisted =
      if lineOf pa = line ∧ pa % 128 ∈ offs then f (pa % 128) else mem.getD pa Memory.unlisted
  | [], mem, _ => by simp [Memory.listBytes]
  | i :: offs, mem, h => by
    have hi : i < 128 := h i (by simp)
    have ih := Memory.getD_listBytes line pa f offs (SMap.set mem Memory.unlisted (128 * line + i) (f i))
      fun j hj => h j (by simp [hj])
    rw [Memory.listBytes, List.foldl_cons, ← Memory.listBytes, ih, SMap.getD_set]
    have hpa : pa = 128 * line + i ↔ lineOf pa = line ∧ pa % 128 = i := by unfold lineOf; omega
    by_cases hl : lineOf pa = line <;> by_cases hm : pa % 128 ∈ offs <;> by_cases he : pa % 128 = i <;>
      simp [hpa, hl, hm, he]

@[simp] theorem mem_maskBytes {mask : BitVec 128} {i : Nat} : i ∈ maskBytes mask ↔ i < 128 ∧ mask.getLsbD i = true := by
  simp [maskBytes]

/-! ### What a write at the home leaves -/

/-- Memory before the masked bytes of a line are written: the bytes that a read under the key gives, where the line was held
under another key or its contents were lost (01 R20, 15 R277). -/
def State.settledMem (s : State) (line key : Nat) : Memory :=
  if s.keyHolds line key && (s.m.lostAt line).isNone then s.m.mem
  else s.m.mem.listBytes line (fun i => s.homeByte key (128 * line + i)) (List.range 128)

theorem State.writeHome_mem (s : State) (line key : Nat) (mask : BitVec 128) (data : BitVec 1024) :
    (s.writeHome line key mask data).m.mem = (s.settledMem line key).listBytes line (lineByte data) (maskBytes mask) := rfl

@[simp] theorem State.writeHome_lineKeys (s : State) (line key : Nat) (mask : BitVec 128) (data : BitVec 1024) :
    (s.writeHome line key mask data).m.lineKeys = s.m.lineKeys.put line (s.keyTag line key) := rfl

/-- Settling changes no byte of another line. -/
theorem State.getD_settledMem_ne (s : State) {line pa : Nat} (key : Nat) (h : lineOf pa ≠ line) :
    (s.settledMem line key).getD pa Memory.unlisted = s.m.mem.getD pa Memory.unlisted := by
  unfold State.settledMem
  split
  · rfl
  · simp [Memory.getD_listBytes, h]

/-- After settling, each byte of the line is listed as a read under the key gave it. -/
theorem State.getD_settledMem (s : State) (key pa : Nat) :
    (s.settledMem (lineOf pa) key).getD pa Memory.unlisted = s.homeByte key pa := by
  unfold State.settledMem
  split
  · next h =>
    simp only [Bool.and_eq_true, Option.isNone_iff_eq_none] at h
    simp [State.homeByte, MemState.home, h]
  · have hpa : 128 * lineOf pa + pa % 128 = pa := by unfold lineOf; omega
    simp [Memory.getD_listBytes, Nat.mod_lt, hpa]

/-- A line that has just been written is held under the key id of the write. -/
theorem State.keyHolds_writeHome (s : State) (line key : Nat) (mask : BitVec 128) (data : BitVec 1024) :
    (s.writeHome line key mask data).keyHolds line key = true := by
  have hkey : (s.writeHome line key mask data).key = s.key := rfl
  unfold State.keyHolds
  simp only [State.writeHome_lineKeys, SMap.find?_put_self, hkey]
  by_cases hk : (decide (key = noKey) && s.keyHolds line noKey) = true
  · simp only [State.keyTag, hk, if_true]
    obtain ⟨rfl, hold⟩ : key = noKey ∧ s.keyHolds line noKey = true := by simpa using hk
    cases hf : s.m.lineKeys.find? line with
    | none => simp
    | some e => simpa [State.keyHolds, hf] using hold
  · simp [State.keyTag, hk]

/-- The key tag of every other line stays. -/
theorem State.keyHolds_writeHome_ne (s : State) {line line' : Nat} (key k : Nat) (mask : BitVec 128) (data : BitVec 1024)
    (h : line' ≠ line) : (s.writeHome line key mask data).keyHolds line' k = s.keyHolds line' k := by
  have hkey : (s.writeHome line key mask data).key = s.key := rfl
  unfold State.keyHolds
  rw [State.writeHome_lineKeys, SMap.find?_put_ne h, hkey]

/-- A line that has just been written is no longer lost (01 R20). -/
theorem State.lostAt_writeHome (s : State) (line key : Nat) (mask : BitVec 128) (data : BitVec 1024) :
    (s.writeHome line key mask data).m.lostAt line = none := by
  simp [MemState.lostAt]

theorem State.lostAt_writeHome_ne (s : State) {line line' : Nat} (key : Nat) (mask : BitVec 128) (data : BitVec 1024)
    (h : line' ≠ line) : (s.writeHome line key mask data).m.lostAt line' = s.m.lostAt line' := by
  have hs : (s.writeHome line key mask data).m.scrambled = s.m.scrambled := rfl
  unfold MemState.lostAt
  rw [State.writeHome_lineKeys, SMap.find?_put_ne h, hs]

/-- A read of the written line under the key id of the write. -/
theorem State.homeByte_writeHome (s : State) (key pa : Nat) (mask : BitVec 128) (data : BitVec 1024) :
    (s.writeHome (lineOf pa) key mask data).homeByte key pa =
      if mask.getLsbD (pa % 128) then lineByte data (pa % 128) else s.homeByte key pa := by
  have hm := Memory.getD_listBytes (lineOf pa) pa (lineByte data) (maskBytes mask) (s.settledMem (lineOf pa) key)
    fun i hi => (mem_maskBytes.1 hi).1
  rw [State.homeByte, State.keyHolds_writeHome, if_pos rfl, MemState.home, State.lostAt_writeHome]
  simp only [State.writeHome_mem, hm, State.getD_settledMem, mem_maskBytes, Nat.mod_lt, true_and, Nat.zero_lt_succ]

/-- What memory holds of any other line. -/
theorem State.home_writeHome_ne (s : State) {line pa : Nat} (key : Nat) (mask : BitVec 128) (data : BitVec 1024)
    (h : lineOf pa ≠ line) : (s.writeHome line key mask data).m.home pa = s.m.home pa := by
  have hm := Memory.getD_listBytes line pa (lineByte data) (maskBytes mask) (s.settledMem line key)
    fun i hi => (mem_maskBytes.1 hi).1
  rw [if_neg fun hc => h hc.1, s.getD_settledMem_ne key h] at hm
  rw [MemState.home, s.lostAt_writeHome_ne key mask data h, State.writeHome_mem, hm, MemState.home]

/-- A read of any other line. -/
theorem State.homeByte_writeHome_ne (s : State) {line pa : Nat} (key k : Nat) (mask : BitVec 128) (data : BitVec 1024)
    (h : lineOf pa ≠ line) : (s.writeHome line key mask data).homeByte k pa = s.homeByte k pa := by
  have htick : (s.writeHome line key mask data).tick = s.tick := rfl
  rw [State.homeByte, State.homeByte, s.keyHolds_writeHome_ne key k mask data h, s.home_writeHome_ne key mask data h, htick]

end Sys2Proof.Machine

namespace Sys2Proof

open Machine

/-- Settles O21: the write lists the masked bytes over the settled line and tags the line with the key of the write. -/
theorem homeWriteReads : Obligations.HomeWriteReads := by
  intro s line key mask data
  refine ⟨?_, fun pa k h => s.homeByte_writeHome_ne key k mask data h⟩
  rintro pa rfl
  exact s.homeByte_writeHome key pa mask data

end Sys2Proof

/-! PROOFS. What leaves memory alone. Each operation of the model that writes no byte of memory is named here once, in the order
of the model's files: either it leaves memory and caches alone (`_m`), or it changes caches, buffers and tables of translation
but no byte at its home (`_mem`). -/

namespace Sys2Proof.Machine

/-! ### Choices -/

@[simp] theorem State.ite_m (c : Prop) [Decidable c] (s t : State) : (if c then s else t).m = if c then s.m else t.m :=
  apply_ite State.m c s t

@[simp] theorem MemState.ite_mem (c : Prop) [Decidable c] (m n : MemState) :
    (if c then m else n).mem = if c then m.mem else n.mem := apply_ite MemState.mem c m n

/-! ### Regs -/

@[simp] theorem Site.commitAs_m (w : Site) (s : State) (skid : Bool) (r : GroupRegs) : (w.commitAs s skid r).m = s.m := rfl
@[simp] theorem Site.commitCtlAs_m (w : Site) (s : State) (skid : Bool) (r : GroupRegs) : (w.commitCtlAs s skid r).m = s.m := rfl
@[simp] theorem Site.vec_m (w : Site) (s : State) (g : Guard) (d : BitVec 8) (f : Nat → W32) : (w.vec s g d f).m = s.m := rfl
@[simp] theorem Site.res_m (w : Site) (s : State) (g : Guard) (uni : Bool) (d : BitVec 8) (f : Nat → W32) :
    (w.res s g uni d f).m = s.m := by simp [Site.res]
@[simp] theorem Site.res64_m (w : Site) (s : State) (g : Guard) (uni : Bool) (d : BitVec 8) (f : Nat → W64) :
    (w.res64 s g uni d f).m = s.m := by simp [Site.res64]
@[simp] theorem Site.pred_m (w : Site) (s : State) (g : Guard) (p : BitVec 3) (f : Nat → Bool) : (w.pred s g p f).m = s.m := rfl
@[simp] theorem SlSite.upd_m (w : SlSite) (s : State) (f : SlCtx → SlCtx) : (w.upd s f).m = s.m := rfl

/-! ### Xlate -/

@[simp] theorem State.fillTlb_mem (s : State) (core : Nat) (e : TlbEntry) : (s.fillTlb core e).m.mem = s.m.mem := rfl
@[simp] theorem State.shootTlb_mem (s : State) (ctx lo hi : Nat) : (s.shootTlb ctx lo hi).m.mem = s.m.mem := rfl

/-! ### Mem -/

@[simp] theorem State.staleRes_m (s : State) (ctx index : Nat) : (s.staleRes ctx index).m = s.m := rfl
@[simp] theorem State.unwatch_m (s : State) (ctx index : Nat) : (s.unwatch ctx index).m = s.m := rfl
@[simp] theorem State.wbCore_mem (s : State) (core : Nat) : (s.wbCore core).m.mem = s.m.mem := by simp [State.wbCore]
@[simp] theorem State.padClear_m (s : State) (team : Nat) (lines : List Nat) : (s.padClear team lines).m = s.m := rfl
@[simp] theorem State.padLanded_m (s : State) (team : Nat) (lines : List Nat) : (s.padLanded team lines).m = s.m := rfl

/-! ### Ops -/

@[simp] theorem Site.holdBack_m (w : Site) (s : State) : (w.holdBack s).m = s.m := rfl
@[simp] theorem State.haltTeam_m (s : State) (t : Nat) : (s.haltTeam t).m = s.m := rfl
@[simp] theorem Site.faultAs_m (w : Site) (s : State) (c : Cause) (pc addr : W64) (owner : Nat) :
    (w.faultAs s c pc addr owner).m = s.m := by simp [Site.faultAs]
@[simp] theorem Site.fault_m (w : Site) (s : State) (c : Cause) (addr : W64) : (w.fault s c addr).m = s.m := by simp [Site.fault]
@[simp] theorem Site.enterTrap_m (w : Site) (s : State) (req : TrapReq) : (w.enterTrap s req).m = s.m := by simp [Site.enterTrap]
/-- A trap leaves memory as one of the two states has it that it chooses between: before the word, or after it. -/
theorem Site.trap_m_or (w : Site) (s0 s1 : State) (req : TrapReq) :
    (w.trap s0 s1 req).m = s0.m ∨ (w.trap s0 s1 req).m = s1.m := by
  unfold Site.trap
  split
  · exact .inl (by simp)
  · split
    · exact .inl (by simp)
    · split
      · exact .inr rfl
      · exact .inr (by simp)

theorem Site.trap_m (w : Site) {s0 s1 : State} (req : TrapReq) (h : s0.m = s1.m) : (w.trap s0 s1 req).m = s1.m :=
  (w.trap_m_or s0 s1 req).elim (fun e => e.trans h) id

theorem Site.trap_wf (w : Site) {s0 s1 : State} (req : TrapReq) (h0 : s0.m.mem.wf = true) (h1 : s1.m.mem.wf = true) :
    (w.trap s0 s1 req).m.mem.wf = true := by
  obtain e | e := w.trap_m_or s0 s1 req <;> rwa [e]
@[simp] theorem Site.post_m (w : Site) (s : State) (la : BitVec 4) (i : Instr) (kind : PendKind) (writes : List RegWrite) (entries : Nat) :
    (w.post s la i kind writes entries).m = s.m := rfl
@[simp] theorem Site.await_m (w : Site) (s : State) (x : Wait) : (w.await s x).m = s.m := rfl
@[simp] theorem Site.awaitIssued_m (w : Site) (s : State) (x : Wait) : (w.awaitIssued s x).m = s.m := rfl
@[simp] theorem State.finish_m (s : State) (t g : Nat) (b : Bool) (f : Group → GroupRegs) : (s.finish t g b f).m = s.m := by
  unfold State.finish; split <;> rfl
@[simp] theorem State.finishCtl_m (s : State) (t g : Nat) (b : Bool) : (s.finishCtl t g b).m = s.m := by
  unfold State.finishCtl; split <;> rfl

/-! ### Flags -/

theorem Site.reportNan_m (w : Site) {s0 s1 : State} (nanOut nanIn : Bool) (h : s0.m = s1.m) :
    (w.reportNan s0 s1 nanOut nanIn).m = s1.m := by
  unfold Site.reportNan
  split
  · dsimp only
    split
    · exact w.trap_m _ h
    · rfl
  · rfl
@[simp] theorem Site.commitNan_m (w : Site) (s : State) (r : GroupRegs) (nanOut nanIn : Bool) :
    (w.commitNan s r nanOut nanIn).m = s.m := w.reportNan_m nanOut nanIn rfl
@[simp] theorem Site.rounded_m (w : Site) (s : State) (g : Guard) (uni : Bool) (d : BitVec 8) (rm : RM) (draws : Nat)
    (f : Nat → W32 → FRes) : (w.rounded s g uni d rm draws f).m = s.m := by simp [Site.rounded]
theorem Site.clip_wf (w : Site) {s0 s1 : State} (c : Scope) (h0 : s0.m.mem.wf = true) (h1 : s1.m.mem.wf = true) :
    (w.clip s0 s1 c).m.mem.wf = true := by
  unfold Site.clip
  split
  · dsimp only
    split
    · exact w.trap_wf _ h0 (by simpa using h1)
    · simpa using h1
  · exact h1
@[simp] theorem State.amaxNest_m (s : State) (nest n : Nat) (mag : Option W32) (inf : Bool) (bad : Nat) :
    (s.amaxNest nest n mag inf bad).m = s.m := rfl
@[simp] theorem Site.amax_m (w : Site) (s : State) (n : Nat) (mag : Option W32) (inf : Bool) (bad : Nat) :
    (w.amax s n mag inf bad).m = s.m := by simp [Site.amax]

/-! ### Admission -/

@[simp] theorem Site.reject_m (w : Site) (s : State) : (w.reject s).m = s.m := by
  unfold Site.reject; split <;> rfl
@[simp] theorem State.turnAway_m (s : State) (k : Nat) (act : Action) : (s.turnAway k act).m = s.m := by simp [State.turnAway]
theorem State.beginWalk_mem {s t : State} {x : Walk} (h : s.beginWalk x = some t) : t.m.mem = s.m.mem := by
  unfold State.beginWalk at h
  dsimp only at h
  split at h
  · cases h; rfl
  · split at h
    · cases h
    · cases h; rfl
@[simp] theorem State.walkOr_mem (s : State) (core ctx page : Nat) (act : Action) :
    (s.walkOr core ctx page act).m.mem = s.m.mem := by
  unfold State.walkOr
  split
  · rfl
  · split
    · simp
    · cases h : s.beginWalk (s.walkFor core ctx page act) with
      | none => simp
      | some t => exact State.beginWalk_mem h
theorem State.awaitWalk_mem {s t : State} {core ctx : Nat} {act : Action} {pages : List Nat}
    (h : s.awaitWalk core ctx act pages = some t) : t.m.mem = s.m.mem := by
  obtain ⟨p, _, rfl⟩ := Option.map_eq_some_iff.1 h
  simp
theorem State.awaitRoom_m {s t : State} {p : Path} {act : Action} (h : s.awaitRoom p act = some t) : t.m = s.m := by
  unfold State.awaitRoom at h
  split at h
  · cases h; simp
  · cases h
theorem Site.admission_mem {w : Site} {s t : State} {pages : List Nat} {writes : Bool}
    (h : w.admission s pages writes = some t) : t.m.mem = s.m.mem := by
  unfold Site.admission at h
  split at h
  · next page _ =>
    split at h
    · cases h; rfl
    · split at h
      · cases h; simp
      · cases h
        cases hb : s.beginWalk (s.walkFor w.core w.ctx page w.act) with
        | none => simp
        | some t => exact State.beginWalk_mem hb
  · split at h
    · cases h; simp
    · cases h

/-! ### Issue -/

@[simp] theorem State.fetched_mem (s : State) (core ctx : Nat) (pc : W64) : (s.fetched core ctx pc).m.mem = s.m.mem := by
  unfold State.fetched; split <;> simp
@[simp] theorem Site.payNan_m (w : Site) (s : State) (info : W32) : (w.payNan s info).m = s.m := by
  unfold Site.payNan
  dsimp only
  split
  · rfl
  · exact w.trap_m _ rfl
@[simp] theorem State.slFault_m (s : State) (core n : Nat) (sub : SubCause) (pc addr : W64) :
    (s.slFault core n sub pc addr).m = s.m := by
  unfold State.slFault; dsimp only; (repeat' split) <;> simp
@[simp] theorem SlSite.fault_m (w : SlSite) (s : State) (sub : SubCause) (addr : W64) : (w.fault s sub addr).m = s.m := by
  simp [SlSite.fault]
@[simp] theorem State.slFetched_mem (s : State) (core ctx : Nat) (pc : W64) : (s.slFetched core ctx pc).m.mem = s.m.mem := by
  unfold State.slFetched; split <;> simp
@[simp] theorem State.freshCode_m (s : State) : (s.freshCode).m = s.m := rfl

/-! ### Control -/

@[simp] theorem State.settleEnd_m (s : State) (t n : Nat) : (s.settleEnd t n).m = s.m := rfl
theorem Site.endGroup_m (w : Site) {s s1 : State} (h : s1.m = s.m) : (w.endGroup s s1).m = s.m := by
  unfold Site.endGroup; (repeat' split) <;> simp [h]
@[simp] theorem Site.refill_m (w : Site) (s : State) (skid : Bool) (r : GroupRegs) (at_ label : W64) (d : Nat) :
    (w.refill s skid r at_ label d).m = s.m := rfl
@[simp] theorem Site.resume_m (w : Site) (s : State) (r : GroupRegs) (head : W64) : (w.resume s r head).m = s.m := by
  unfold Site.resume; (repeat' split) <;> simp

/-! ### Integer -/

@[simp] theorem Site.intRes_m (w : Site) (s : State) (g : Guard) (uni : Bool) (ty : Ty) (d : BitVec 8) (f : Nat → Nat) :
    (w.intRes s g uni ty d f).m = s.m := by simp [Site.intRes]
@[simp] theorem Site.logic_m (w : Site) (s : State) (f : Bin) (op : W32 → W32 → W32) : (w.logic s f op).m = s.m := by
  simp [Site.logic]
@[simp] theorem Site.logicImm_m (w : Site) (s : State) (f : ImmB) (op : W32 → W32 → W32) : (w.logicImm s f op).m = s.m := by
  simp [Site.logicImm]
@[simp] theorem Site.unary_m (w : Site) (s : State) (f : Un) (op : W32 → W32) : (w.unary s f op).m = s.m := by simp [Site.unary]
@[simp] theorem Site.shift_m (w : Site) (s : State) (f : Shift) (op : W32 → W32 → W32) : (w.shift s f op).m = s.m := by
  simp [Site.shift]
@[simp] theorem Site.typed2_m (w : Site) (s : State) (f : BinT) (op : Nat → Nat → Nat) : (w.typed2 s f op).m = s.m := by
  simp [Site.typed2]
@[simp] theorem Site.typedSat_m (w : Site) (s : State) (f : BinS) (op : Nat → Nat → Nat) : (w.typedSat s f op).m = s.m := by
  simp [Site.typedSat]

/-! ### Lane -/

@[simp] theorem Site.reduced_m (w : Site) (s : State) (g : Guard) (ty : Ty) (d : BitVec 8) (node : Nat → RNode) :
    (w.reduced s g ty d node).m = s.m := by simp [Site.reduced]
@[simp] theorem State.setRdv_m (s : State) (t n : Nat) (x : RdvSlot) : (s.setRdv t n x).m = s.m := rfl

/-! ### Order -/

@[simp] theorem Site.refuse_mem (w : Site) (s : State) (core : Nat) (test : Nat → Bool) (x : Nat × Nat × Cause)
    (rest : List (Nat × Nat × Cause)) : (w.refuse s core test x rest).m.mem = s.m.mem := by
  unfold Site.refuse
  split
  · simp
  · simp only [Site.faultAs_m, State.wbWhere_mem]
    exact foldl_mem (fun s' (e : Nat × Nat × Cause) => s'.eraseL1 core e.1) (fun _ _ => rfl) _ _
/-- Writing lines back, or refusing to, changes no byte at its home. -/
theorem Site.writeBack_mem {w : Site} {s t : State} {test : Nat → Bool} {every : Bool}
    (h : w.writeBack s test every = .ok t ∨ w.writeBack s test every = .error t) : t.m.mem = s.m.mem := by
  unfold Site.writeBack at h
  split at h <;> obtain h | h := h <;> cases h <;> simp
theorem State.needHost_mem {s t : State} {lines : List Nat} {act : List Action} (h : s.needHost lines act = some t) :
    t.m.mem = s.m.mem := by
  unfold State.needHost at h
  split at h
  · cases h; rfl
  · cases h
@[simp] theorem Site.noteHeld_m (w : Site) (s : State) (ord : MemOrd) (phs : List Phys) : (w.noteHeld s ord phs).m = s.m := by
  simp [Site.noteHeld]
@[simp] theorem State.recordHolder_mem (s : State) (core sc : Nat) (phs : List Phys) :
    (s.recordHolder core sc phs).m.mem = s.m.mem := by simp [State.recordHolder]
@[simp] theorem State.pushOut_mem (s : State) (core : Nat) (phs : List Phys) : (s.pushOut core phs).m.mem = s.m.mem := by
  simp [State.pushOut]
@[simp] theorem Site.inWindow_m (w : Site) (s : State) (f : SpecWindow → SpecWindow) : (w.inWindow s f).m = s.m := by
  simp [Site.inWindow]
@[simp] theorem Site.mark_m (w : Site) (s : State) (phs : List Phys) : (w.mark s phs).m = s.m := by simp [Site.mark]
@[simp] theorem Site.padMark_m (w : Site) (s : State) (l : List (Nat × Nat)) : (w.padMark s l).m = s.m := by simp [Site.padMark]

/-! ### MemWords -/

@[simp] theorem Site.park_m (w : Site) (s : State) (l : List (Nat × Nat × Nat)) (n : Nat) : (w.park s l n).m = s.m := rfl
@[simp] theorem Site.hold_m (w : Site) (s : State) (l : List HeldStore) : (w.hold s l).m = s.m := by simp [Site.hold]
@[simp] theorem State.spoil_m (s : State) (team a n : Nat) : (s.spoil team a n).m = s.m := rfl
@[simp] theorem State.prefetch_mem (s : State) (core ctx cls : Nat) (ph : Phys) :
    (s.prefetch core ctx cls ph).m.mem = s.m.mem := by simp [State.prefetch]
@[simp] theorem State.monRead_mem (s : State) (core ctx : Nat) (ph : Phys) (n : Nat) :
    (s.monRead core ctx ph n).1.m.mem = s.m.mem := by
  simp [State.monRead]

/-! ### Sync -/

@[simp] theorem State.barRelease_m (s : State) (k : BarKind) (t : Nat) : (s.barRelease k t).m = s.m := by
  unfold State.barRelease
  split
  · refine foldl_m _ (fun s' n => ?_) _ _
    dsimp only
    (repeat' split) <;> simp
  · rfl
@[simp] theorem State.setObject_m (s : State) (team a : Nat) (o : BarObj) (by_ : Writer) : (s.setObject team a o by_).m = s.m := by
  simp [State.setObject]
@[simp] theorem State.endBwait_m (s : State) (t n : Nat) (b ok : Bool) : (s.endBwait t n b ok).m = s.m := by
  unfold State.endBwait; (repeat' split) <;> simp
@[simp] theorem State.wakeGroups_m (s : State) (team a : Nat) (ok : Bool) : (s.wakeGroups team a ok).m = s.m := by
  unfold State.wakeGroups
  split
  · refine foldl_m _ (fun s' n => foldl_m _ (fun x b => ?_) _ _) _ _
    (repeat' split) <;> simp
  · rfl
@[simp] theorem State.wake_m (s : State) (team a : Nat) (inv : Bool) : (s.wake team a inv).m = s.m := by
  unfold State.wake
  rw [foldl_m _ (fun s' x => by split <;> simp), State.wakeGroups_m]
@[simp] theorem State.arriveOn_m (s : State) (team a n : Nat) (posted : Bool) (by_ : Writer) :
    (s.arriveOn team a n posted by_).m = s.m := by simp [State.arriveOn]
theorem Site.onObject_m {w : Site} {s : State} {a : BitVec 8} {f : Nat → State} (hf : ∀ off, (f off).m = s.m) :
    (w.onObject s a f).m = s.m := by
  unfold Site.onObject; (repeat' split) <;> simp [hf]

/-! ### CoreEvents -/

@[simp] theorem Site.faultLate_m (w : Site) (s : State) (c : Cause) (pc addr : W64) : (w.faultLate s c pc addr).m = s.m := rfl
@[simp] theorem State.tableRead_mem (s : State) (ctx a : Nat) : (s.tableRead ctx a).m.mem = s.m.mem := by simp [State.tableRead]
@[simp] theorem State.again_mem (s : State) (x : Walk) (failed : List Nat) : (s.again x failed).m.mem = s.m.mem := by
  simp [State.again]
@[simp] theorem State.markUnwritable_mem (s : State) (ctx lo hi : Nat) : (s.markUnwritable ctx lo hi).m.mem = s.m.mem := rfl
@[simp] theorem State.wakeMonitors_m (s : State) (ctx lo hi : Nat) : (s.wakeMonitors ctx lo hi).m = s.m := rfl
@[simp] theorem State.shoot_mem (s : State) (ctx lo hi : Nat) : (s.shoot ctx lo hi).m.mem = s.m.mem := rfl
@[simp] theorem State.refill_mem (s : State) (ctx page : Nat) (a : Action) : (s.refill ctx page a).m.mem = s.m.mem := by
  unfold State.refill; (repeat' split) <;> simp
@[simp] theorem State.hostAtomBad_m (s : State) (team grp : Nat) (slot : Bool) (tm : Team) (g : Group) (p : Pending) (h : HostAtomic) :
    (s.hostAtomBad team grp slot tm g p h).m = s.m := rfl

/-! ### Bulk -/

@[simp] theorem State.touch_mem (s : State) (ctx : Nat) (l : List (Phys × Nat)) : (s.touch ctx l).m.mem = s.m.mem := by
  unfold State.touch
  exact foldl_mem _ (fun _ _ => by simp) _ _
@[simp] theorem State.engineFault_m (s : State) (team grp : Nat) (c : Cause) (pc addr : W64) (info : W32) :
    (s.engineFault team grp c pc addr info).m = s.m := by
  unfold State.engineFault; (repeat' split) <;> simp

/-! ### ConvWords -/

@[simp] theorem Site.amaxFor_m (w : Site) (s : State) (n : BitVec 3) (vs : List FVal) : (w.amaxFor s n vs).m = s.m := by
  simp [Site.amaxFor]
@[simp] theorem Site.noteAmax_m (w : Site) (s : State) (n : Nat) : (w.noteAmax s n).m = s.m := by simp [Site.noteAmax]

/-! ### Macros -/

@[simp] theorem State.updRes_m (s : State) (ctx i : Nat) (f : Residency → Residency) : (s.updRes ctx i f).m = s.m := rfl
@[simp] theorem State.padLoadLost_m (s : State) (core : Nat) (e : ArrayEntry) : (s.padLoadLost core e).m = s.m := by
  unfold State.padLoadLost; split <;> simp
@[simp] theorem State.evictCopy_m (s : State) (core ctx i : Nat) : (s.evictCopy core ctx i).m = s.m := rfl
@[simp] theorem State.makeRoom_m : ∀ (fuel core ctx keep n : Nat) (s : State), (State.makeRoom fuel core ctx keep n s).m = s.m
  | 0, _, _, _, _, _ => rfl
  | fuel + 1, core, ctx, keep, n, s => by
    unfold State.makeRoom
    split
    · rfl
    · split
      · rw [State.makeRoom_m, State.evictCopy_m]
      · rfl

/-! ### ArrayWords -/

@[simp] theorem Site.holdPost_m (w : Site) (s : State) (bars : List Nat) : (w.holdPost s bars).m = s.m := by
  unfold Site.holdPost; split <;> rfl
@[simp] theorem Site.pendUp_m (w : Site) (s : State) (a : Nat) : (w.pendUp s a).m = s.m := rfl
@[simp] theorem Site.postArray_m (w : Site) (s : State) (l : List (ArrayOp × Nat)) : (w.postArray s l).m = s.m := by
  simp only [Site.postArray, State.updCore_m]
  exact foldl_m _ (fun _ _ => by simp) _ _
@[simp] theorem Site.runArray_m (w : Site) (s : State) (dist : Bool) (f : MxRunF) : (w.runArray s dist f).m = s.m := by
  unfold Site.runArray
  split
  · simp
  · split
    · simp
    · split
      · exact w.trap_m _ rfl
      · split <;> simp
@[simp] theorem Site.postOne_m (w : Site) (s : State) (op : ArrayOp) (bar : Nat) (r : GroupRegs) :
    (w.postOne s op bar r).m = s.m := by simp [Site.postOne]
@[simp] theorem State.watch_m (s : State) (ctx i granule : Nat) : (s.watch ctx i granule).m = s.m := by simp [State.watch]

/-! ### ArrayEvents -/

@[simp] theorem State.headFault_m (s : State) (core : Nat) (e : ArrayEntry) (c : Cause) (addr : W64) :
    (s.headFault core e c addr).m = s.m := by simp [State.headFault]
@[simp] theorem State.arrayArrive_m (s : State) (team a : Nat) : (s.arrayArrive team a).m = s.m := by simp [State.arrayArrive]
@[simp] theorem State.arrayNan_m (s : State) (e : ArrayEntry) (info : Option W32) (seen : Bool) :
    (s.arrayNan e info seen).m = s.m := rfl
@[simp] theorem State.arrayWrite_m (s : State) (e : ArrayEntry) (a : Nat) (b : List Byte) : (s.arrayWrite e a b).m = s.m := by
  unfold State.arrayWrite; split <;> rfl
@[simp] theorem State.completeRun_m (s : State) (core : Nat) (e : ArrayEntry) (o : RunOp) : (s.completeRun core e o).m = s.m := by
  unfold State.completeRun; split <;> rfl
@[simp] theorem State.completeLoad_m (s : State) (core : Nat) (e : ArrayEntry) (u : ResUse) (fmtWord : W32) (slotNo : Nat) :
    (s.completeLoad core e u fmtWord slotNo).m = s.m := by simp [State.completeLoad]
@[simp] theorem State.completeDrain_m (s : State) (e : ArrayEntry) (dst pitch n m tile : Nat) (slot : W32) (slotNo : Nat)
    (lfsr : W32) : (s.completeDrain e dst pitch n m tile slot slotNo lfsr).m = s.m := by
  unfold State.completeDrain
  split
  · simp only [State.arrayNan_m, State.ite_m, State.amaxNest_m, ite_self]
    exact foldl_m _ (fun _ _ => by simp) _ _
  · rfl
@[simp] theorem State.completeTopk_m (s : State) (e : ArrayEntry) (dst k n m tile : Nat) :
    (s.completeTopk e dst k n m tile).m = s.m := by
  unfold State.completeTopk
  split
  · exact foldl_m _ (fun _ _ => by simp) _ _
  · rfl
@[simp] theorem State.completeZero_m (s : State) (e : ArrayEntry) (tile n : Nat) : (s.completeZero e tile n).m = s.m := rfl
@[simp] theorem State.loadArrived_m (s : State) (e : ArrayEntry) (u : ResUse) : (s.loadArrived e u).m = s.m := rfl
@[simp] theorem State.completeOp_m (s : State) (core : Nat) (e : ArrayEntry) : (s.completeOp core e).m = s.m := by
  unfold State.completeOp; split <;> simp

/-! ### Turn -/

@[simp] theorem State.turn_m (s : State) : (s.turn).m = s.m := rfl
@[simp] theorem State.evictTlb_mem (s : State) (core i : Nat) : (s.evictTlb core i).m.mem = s.m.mem := rfl

/-! ### Walker -/

@[simp] theorem State.fresh_m (s : State) : s.fresh.2.m = s.m := rfl
@[simp] theorem State.resplit_mem (s : State) (core : Nat) : (s.resplit core).m.mem = s.m.mem := by simp [State.resplit]
@[simp] theorem State.dropEntry_m (s : State) (id : Nat) : (s.dropEntry id).m = s.m := rfl
@[simp] theorem State.putRect_m (s : State) (e : ReadyEntry) (teams : List Nat) (core : Nat) :
    (s.putRect e teams core).m = s.m := rfl
@[simp] theorem State.setWork_m (s : State) (q id : Nat) (w : PktWork) : (s.setWork q id w).m = s.m := rfl
@[simp] theorem State.endNest_m (s : State) (nest : Nat) (code : Option Nat) : (s.endNest nest code).m = s.m := by
  unfold State.endNest; split <;> rfl
@[simp] theorem State.freeSluice_m (s : State) (core team : Nat) : (s.freeSluice core team).m = s.m := rfl
@[simp] theorem State.leaveCore_mem (s : State) (team : Nat) (t : Team) : (s.leaveCore team t).m.mem = s.m.mem := by
  unfold State.leaveCore
  dsimp only
  split
  · exact foldl_mem _ (fun _ _ => by simp) _ _
  · rfl

/-! ### Sluice -/

@[simp] theorem SlSite.step_m (w : SlSite) (s : State) (f : SlCtx → SlCtx) : (w.step s f).m = s.m := rfl
theorem SlSite.read_mem {w : SlSite} {s : State} {a : W64} {n : Nat} {f : Phys → Nat → State}
    (hf : ∀ ph x, (f ph x).m.mem = s.m.mem) : (w.read s a n f).m.mem = s.m.mem := by
  unfold SlSite.read
  split
  · simp
  · split
    · next h => exact State.awaitWalk_mem h
    · simp
    · split
      · rfl
      · exact hf _ _
@[simp] theorem SlSite.touch_mem (w : SlSite) (s : State) (pad : Bool) (l : List W64) : (w.touch s pad l).m.mem = s.m.mem := by
  unfold SlSite.touch
  split
  · rfl
  · exact foldl_mem _ (fun _ _ => by split <;> simp) _ _
theorem SlSite.loadBook_mem {w : SlSite} {s t : State} {d : SlDescr}
    (h : w.loadBook s d = .ok t ∨ w.loadBook s d = .error t) : t.m.mem = s.m.mem := by
  unfold SlSite.loadBook at h
  dsimp only at h
  split at h
  · next hw => obtain h | h := h <;> cases h; exact State.awaitWalk_mem hw
  · split at h <;> obtain h | h := h <;> cases h <;> simp
theorem SlSite.checkBook_mem {w : SlSite} {s t : State}
    (h : w.checkBook s = .ok t ∨ w.checkBook s = .error t) : t.m.mem = s.m.mem := by
  unfold SlSite.checkBook at h
  split at h
  · split at h <;> obtain h | h := h <;> cases h <;> simp
  · split at h
    · exact SlSite.loadBook_mem h
    · obtain h | h := h <;> cases h
      simp
@[simp] theorem State.clearLines_m (s : State) (lines : List (Nat × Nat)) : (s.clearLines lines).m = s.m := by
  unfold State.clearLines
  exact foldl_m _ (fun _ _ => by simp) _ _
theorem State.clearAll_m {c : SlCtx} {dstPad : Bool} {edst : Nat} {s : State} :
    ∀ {l : List (List (Option W64 × W64))} {t : State}, s.clearAll c dstPad edst l = .ok t → t.m = s.m
  | [], _, h => by cases h; rfl
  | x :: rest, t, h => by
    unfold State.clearAll at h
    split at h
    · cases h
    · split at h
      · cases h
      · next hr =>
        cases h
        rw [State.clearLines_m, State.clearAll_m hr]
@[simp] theorem SlSite.issue_m (w : SlSite) (s : State) (kind : XferKind) (esrc edst : Nat) (srcPad dstPad : Bool)
    (elems : List (Option W64 × W64)) :
    (w.issue s kind esrc edst srcPad dstPad elems).m = s.m := rfl
@[simp] theorem SlSite.issueNext_mem (w : SlSite) (s : State) (m : XMode) (a b : SlDescr) :
    (w.issueNext s m a b).m.mem = s.m.mem := by
  unfold SlSite.issueNext
  split
  · rfl
  · split
    · rfl
    · split
      · next h =>
        split at h
        · exact SlSite.checkBook_mem (.inr h)
        · cases h
      · next h =>
        simp only [SlSite.upd_m, SlSite.issue_m]
        split at h
        · exact SlSite.checkBook_mem (.inl h)
        · cases h; rfl
@[simp] theorem SlSite.startXfers_mem (w : SlSite) (s : State) (m : XMode) (a b : SlDescr)
    (l : List (List (Option W64 × W64))) : (w.startXfers s m a b l).m.mem = s.m.mem := by
  unfold SlSite.startXfers
  split
  · simp
  · next h => simp [State.clearAll_m h]
@[simp] theorem SlSite.amax_m (w : SlSite) (s : State) (slotNo : Nat) (vs : List FVal) : (w.amax s slotNo vs).m = s.m := by
  unfold SlSite.amax; split <;> rfl
@[simp] theorem SlSite.amaxOfKind_m (w : SlSite) (s : State) (kind : XferKind) (l : List (List Byte × W64)) :
    (w.amaxOfKind s kind l).m = s.m := by
  unfold SlSite.amaxOfKind; split <;> simp
@[simp] theorem SlSite.performArrive_m (w : SlSite) (s : State) (i : Nat) (pc : W64) (addr n : Nat) :
    (w.performArrive s i pc addr n).m = s.m := by
  unfold SlSite.performArrive; split <;> simp

/-! ### Faults -/

@[simp] theorem State.logEvent_m (s : State) (e : LogEntry) : (s.logEvent e).m = s.m := rfl
@[simp] theorem State.dropLines_mem (s : State) (ctx core : Nat) (mine : Nat → Bool) (alone : Bool) :
    (s.dropLines ctx core mine alone).m.mem = s.m.mem := by
  unfold State.dropLines
  exact foldl_mem _ (fun _ _ => by simp) _ _
@[simp] theorem State.cancelEngines_m (s : State) (nest : Nat) : (s.cancelEngines nest).m = s.m := rfl

/-! ### Engine -/

theorem Site.withDesc_mem {w : Site} {s : State} {a : BitVec 8} {check : List W64 → Option Bad}
    {f : State → List W64 → State} (hf : ∀ s1 d, s1.m.mem = s.m.mem → (f s1 d).m.mem = s.m.mem) :
    (w.withDesc s a check f).m.mem = s.m.mem := by
  unfold Site.withDesc
  dsimp only
  split
  · rfl
  · split
    · simp
    · split
      · simp
      · split
        · simp
        · exact hf _ _ (by simp)
@[simp] theorem State.postEngine_m (s : State) (e : EngineWord) : (s.postEngine e).2.m = s.m := by
  unfold State.postEngine State.fresh
  exact foldl_m (fun (s' : State) (x : Nat × Nat) => s'.padClear x.1 [x.2]) (fun _ _ => rfl) _ _
/-- A collective is posted, or its word faults in the state before it. -/
theorem Site.postColl_m_or (w : Site) (s0 s : State) (kind : EngineKind) (d : List W64) (slot : W32) :
    (w.postColl s0 s kind d slot).m.mem = s.m.mem ∨ (w.postColl s0 s kind d slot).m.mem = s0.m.mem := by
  unfold Site.postColl
  dsimp only
  split
  · exact .inr (by simp)
  · exact .inl (by simp)
@[simp] theorem State.engineTouch_mem (s : State) (basin : Nat) (e : EngineWord) (pad : Bool) (a n : Nat) :
    (s.engineTouch basin e pad a n).m.mem = s.m.mem := by
  unfold State.engineTouch; (repeat' split) <;> simp
@[simp] theorem State.touchIndices_mem (s : State) (e : EngineWord) : (s.touchIndices e).m.mem = s.m.mem := by
  simp [State.touchIndices]
@[simp] theorem State.engineDone_m (s : State) (id : Nat) (ok : Bool) (amax : W32) : (s.engineDone id ok amax).m = s.m := rfl
@[simp] theorem State.dropEngine_m (s : State) (id : Nat) (e : EngineWord) : (s.dropEngine id e).m = s.m := by
  simp [State.dropEngine]
@[simp] theorem State.engineAmax_m (s : State) (e : EngineWord) (ok : Bool) : (s.engineAmax e ok).m = s.m := by
  simp [State.engineAmax]
@[simp] theorem State.dropCount_m (s : State) (id : Nat) (e : EngineWord) : (s.dropCount id e).m = s.m := rfl

/-! ### FloatWords -/

@[simp] theorem Site.fbin_m (w : Site) (s : State) (f : FBin) (op : FpMode → RM → W32 → W32 → W32 → FRes) :
    (w.fbin s f op).m = s.m := by simp [Site.fbin]
@[simp] theorem Site.fminmax_m (w : Site) (s : State) (f : Bin) (big : Bool) : (w.fminmax s f big).m = s.m := by
  simp [Site.fminmax]
@[simp] theorem Site.flong_m (w : Site) (s : State) (i : Instr) (la : BitVec 4) (g : Guard) (d : BitVec 8) (rm : RM)
    (f : Nat → W32 → FRes) : (w.flong s i la g d rm f).m = s.m := by
  unfold Site.flong
  dsimp only
  split
  · exact w.reportNan_m _ _ rfl
  · exact w.reportNan_m _ _ rfl
@[simp] theorem Site.flongR_m (w : Site) (s : State) (i : Instr) (f : FLongR) (op : FVal → FVal) :
    (w.flongR s i f op).m = s.m := by simp [Site.flongR]
@[simp] theorem Site.ftrans_m (w : Site) (s : State) (i : Instr) (f : FLong) (op : W32 → Bool → Bool → FRes) :
    (w.ftrans s i f op).m = s.m := by simp [Site.ftrans]

/-! ### Halves -/

@[simp] theorem Site.pair_m (w : Site) (s : State) (op1 : HOp) (f : PairF) : (w.pair s op1 f).m = s.m := by simp [Site.pair]

/-! ### Sched -/

@[simp] theorem State.putSlice_m (s : State) (part : Nat) (x : Slice) : (s.putSlice part x).m = s.m := rfl
@[simp] theorem State.startSlice_m (s : State) (part : Nat) (x : Slice) : (s.startSlice part x).m = s.m := by
  unfold State.startSlice
  dsimp only
  rw [foldl_m _ (fun _ _ => by simp), State.putSlice_m]
@[simp] theorem State.visitVd_m (s : State) (vd : Nat) : (s.visitVd vd).m = s.m := rfl
theorem visitFrom_m (part : Nat) : ∀ (fuel : Nat) (s : State), (visitFrom part fuel s).1.m = s.m
  | 0, _ => rfl
  | fuel + 1, s => by
    unfold visitFrom
    dsimp only
    split
    · rfl
    · (repeat' split) <;> rw [visitFrom_m] <;> simp

/-! ### Preempt -/

@[simp] theorem State.saveTeam_m (s : State) (t : Nat) (tm : Team) : (s.saveTeam t tm).m = s.m := rfl
@[simp] theorem State.evictPinned_m (need : Nat) :
    ∀ (fuel core ctx : Nat) (s : State), (State.evictPinned need fuel core ctx s).m = s.m
  | 0, _, _, _ => rfl
  | fuel + 1, core, ctx, s => by
    unfold State.evictPinned
    split
    · rfl
    · split
      · rw [State.evictPinned_m, State.evictCopy_m]
      · rfl
@[simp] theorem State.evictCopies_m (s : State) (core ctx : Nat) : (s.evictCopies core ctx).m = s.m := by
  simp only [State.evictCopies, State.evictPinned_m, State.updCore_m]
  exact foldl_m _ (fun _ _ => by simp) _ _
@[simp] theorem State.endSlice_m (s : State) (part : Nat) (x : Slice) : (s.endSlice part x).m = s.m := by simp [State.endSlice]
@[simp] theorem State.trySliceEnd_m (s : State) (part : Nat) : (s.trySliceEnd part).m = s.m := by
  unfold State.trySliceEnd; split <;> simp
@[simp] theorem State.resumePacket_m (s : State) (core : Nat) (x : Nat × SlCtx) : (s.resumePacket core x).m = s.m := by
  unfold State.resumePacket; dsimp only; (repeat' split) <;> simp

/-! ### Queues -/

@[simp] theorem State.dropPacket_m (s : State) (q id : Nat) : (s.dropPacket q id).m = s.m := rfl
@[simp] theorem State.updFailing_m (s : State) (q : Nat) (f : Failing → Failing) : (s.updFailing q f).m = s.m := rfl

@[simp] theorem State.addFailing_m (s : State) (q : Nat) (f : Failing) : (s.addFailing q f).m = s.m := rfl

@[simp] theorem State.asked_mem (s e : State) : (s.asked e).m.mem = s.m.mem := rfl
@[simp] theorem State.launch_m (s : State) (q id : Nat) (b : List Byte) (gangPkt : Bool) (parts : List Nat) :
    (s.launch q id b gangPkt parts).1.m = s.m := by
  unfold State.launch State.fresh
  dsimp only
  (repeat' split) <;> simp
@[simp] theorem State.flights_m (s s0 : State) (q : Nat) : (s.flights s0 q).m = s.m := by
  unfold State.flights
  refine foldl_m _ (fun s' p => ?_) _ _
  (repeat' split) <;> simp

/-! ### Package -/

@[simp] theorem State.updRegions_m (s : State) (basin : Nat) (f : Regions → Regions) : (s.updRegions basin f).m = s.m := rfl
@[simp] theorem State.setChan_m (s : State) (ch : Nat) (c : SdChannel) : (s.setChan ch c).m = s.m := rfl
@[simp] theorem State.cmdDone_m (s : State) (ctx status : Nat) : (s.cmdDone ctx status).m = s.m := rfl
@[simp] theorem State.cmdBusy_m (s : State) : s.cmdBusy.m = s.m := rfl
@[simp] theorem State.createCtx_m (s : State) (ctx : Nat) : (s.createCtx ctx).m = s.m := by simp [State.createCtx]
@[simp] theorem State.freeResidencies_m (s : State) (ctx : Nat) : (s.freeResidencies ctx).m = s.m := rfl
@[simp] theorem State.destroyCtx_mem (s : State) (ctx : Nat) : (s.destroyCtx ctx).m.mem = s.m.mem := by simp [State.destroyCtx]
@[simp] theorem State.writeCmd_mem (s : State) (value : W64) : (s.writeCmd value).m.mem = s.m.mem := by
  unfold State.writeCmd; split <;> simp
@[simp] theorem State.writeVd_m (s : State) (vd : Nat) (cfg : W64) (policy : W32) : (s.writeVd vd cfg policy).m = s.m := by
  simp [State.writeVd]
@[simp] theorem State.updRange_m (s : State) (ten basin n : Nat) (f : RangeRegs → RangeRegs) :
    (s.updRange ten basin n f).m = s.m := by simp [State.updRange]
@[simp] theorem State.updFree_m (s : State) (ctx : Nat) (f : Ctx → Ctx) : (s.updFree ctx f).m = s.m := by simp [State.updFree]
@[simp] theorem State.updKey_m (s : State) (k : Nat) (f : KeySlot → KeySlot) : (s.updKey k f).m = s.m := by
  unfold State.updKey; split <;> rfl
@[simp] theorem State.setComm_m (s : State) (vd comm : Nat) (packages : List Nat) (rank timeout : Nat) :
    (s.setComm vd comm packages rank timeout).m = s.m := by simp [State.setComm]

/-! ### Management -/

@[simp] theorem State.answer_m (s : State) (r : HostReply) : (s.answer r).m = s.m := rfl
theorem State.hostCollapse_mem {s t : State} {act : Action} {l : List (Phys × Nat)} (h : s.hostCollapse act l = some t) :
    t.m.mem = s.m.mem := by
  unfold State.hostCollapse at h
  split at h
  · cases h
  · cases h
    exact foldl_mem _ (fun _ _ => by simp) _ _
@[simp] theorem State.hostLoad_mem (s : State) (addr n : Nat) (hold : Bool) : (s.hostLoad addr n hold).m.mem = s.m.mem := by
  simp [State.hostLoad]

end Sys2Proof.Machine

/-! PROOFS. Outcomes that keep the canonical form of memory. -/

namespace Sys2Proof.Machine

/-- An outcome keeps memory canonical: from a state whose memory is canonical, the next state's memory is too. -/
def KeepsMem (s : State) (o : Host.Outcome State Fault Refusal) : Prop :=
  s.m.mem.wf = true → ∀ t, o = .next t → t.m.mem.wf = true

@[simp] theorem keepsMem_next {s t : State} : KeepsMem s (.next t) ↔ (s.m.mem.wf = true → t.m.mem.wf = true) := by
  simp [KeepsMem]

/-- A step that changes nothing. -/
theorem keepsMem_same (s : State) : KeepsMem s (.next s) := keepsMem_next.2 id

@[simp] theorem keepsMem_fault (s : State) (r : Fault) : KeepsMem s (.fault r) := by
  simp [KeepsMem]

/-- A word of a group keeps memory canonical when its state for the group does. -/
theorem keepsMem_onSite {s : State} {f : Site → State} (h : ∀ w, s.m.mem.wf = true → (f w).m.mem.wf = true) :
    KeepsMem s (onSite s f) := by
  unfold onSite
  split
  · exact keepsMem_next.2 (h _)
  · exact keepsMem_fault _ _

theorem keepsMem_onMem {s : State} {f : Site → State} (h : ∀ w, s.m.mem.wf = true → (f w).m.mem.wf = true) :
    KeepsMem s (onMem s f) :=
  keepsMem_onSite fun w hs => by
    split
    · exact hs
    · exact h w hs

theorem keepsMem_onSluice {s : State} {f : SlSite → State} (h : ∀ w, s.m.mem.wf = true → (f w).m.mem.wf = true) :
    KeepsMem s (onSluice s f) := by
  unfold onSluice
  split
  · exact keepsMem_next.2 (h _)
  · exact keepsMem_fault _ _

/-- An operation that changes no byte keeps memory canonical. -/
theorem wf_of_mem {s t : State} (h : t.m.mem = s.m.mem) (hs : s.m.mem.wf = true) : t.m.mem.wf = true := by rwa [h]

theorem wf_of_m {s t : State} (h : t.m = s.m) (hs : s.m.mem.wf = true) : t.m.mem.wf = true := by rwa [h]

end Sys2Proof.Machine

namespace Sys2Proof.Machine

/-! ### Answers of two kinds -/

/-- Both the state that goes on and the state that a step ends in early have their memory in canonical form. -/
def EitherWf (r : Except State State) : Prop := ∀ t, r = .ok t ∨ r = .error t → t.m.mem.wf = true

@[simp] theorem eitherWf_ok {t : State} : EitherWf (.ok t) ↔ t.m.mem.wf = true := by
  simp [EitherWf]

@[simp] theorem eitherWf_error {t : State} : EitherWf (.error t) ↔ t.m.mem.wf = true := by
  simp [EitherWf]

theorem EitherWf.ok {r : Except State State} {t : State} (hr : EitherWf r) (h : r = .ok t) : t.m.mem.wf = true :=
  hr t (.inl h)

theorem EitherWf.error {r : Except State State} {t : State} (hr : EitherWf r) (h : r = .error t) : t.m.mem.wf = true :=
  hr t (.inr h)

/-! ### Releases, loads, stores and atomics of a core -/

theorem Site.writeBack_wf (w : Site) {s : State} (test : Nat → Bool) (every : Bool) (h : s.m.mem.wf = true) :
    EitherWf (w.writeBack s test every) :=
  fun _ ht => wf_of_mem (Site.writeBack_mem ht) h

theorem Site.releaseAt_wf (w : Site) {s : State} (sc : Nat) (h : s.m.mem.wf = true) : EitherWf (w.releaseAt s sc) := by
  unfold Site.releaseAt
  split
  · simpa using h
  · have hw := w.writeBack_wf (fun _ => true) false h
    split
    · next he => simpa using hw.error he
    · next s1 hs1 =>
      have h1 := hw.ok hs1
      split
      · split
        · next hn => simpa using wf_of_mem (State.needHost_mem hn) h1
        · simpa using State.drainPath_wf _ _ h1
      · simpa using h1

/-- A word that orders its accesses releases first; a plain one goes on from the state as it is. -/
theorem releaseIf_wf (w : Site) {s : State} (c : Bool) (sc : Nat) (h : s.m.mem.wf = true) :
    EitherWf (if c = true then w.releaseAt s sc else .ok s) := by
  split
  · exact w.releaseAt_wf sc h
  · simpa using h

theorem acquireIf_wf {s : State} (c : Bool) (core sc : Nat) (h : s.m.mem.wf = true) :
    (if c = true then s.acquire core sc else s).m.mem.wf = true := by
  split
  · exact State.acquire_wf _ _ h
  · exact h

theorem Site.load_wf (w : Site) {s : State} (i : Instr) (la : BitVec 4) (lanes : List Nat) (uni as : Bool) (a : BitVec 8)
    (off : BitVec 13) (n : Nat) (scope : Scope) (ord : MemOrd) (d : BitVec 8) (h : s.m.mem.wf = true) :
    (w.load s i la lanes uni as a off n scope ord d).m.mem.wf = true := by
  unfold Site.load
  dsimp only
  split
  · simpa using h
  · split
    · simpa using h
    · split
      · exact h
      · refine w.clip_wf _ h (acquireIf_wf _ _ _ ?_)
        simp only [Site.noteHeld_m, Site.post_m]
        rw [foldl_mem _ (fun s' ph => by split <;> simp)]
        split <;> simpa using h

theorem execLd_keepsMem (f : LoadF) (s : State) : KeepsMem s (execLd f s) :=
  keepsMem_onMem fun w h => w.load_wf _ _ _ _ _ _ _ _ _ _ _ h

theorem execLdu_keepsMem (f : LduF) (s : State) : KeepsMem s (execLdu f s) :=
  keepsMem_onMem fun w h => w.load_wf _ _ _ _ _ _ _ _ _ _ _ h

theorem execLds_keepsMem (f : LoadF) (s : State) : KeepsMem s (execLds f s) := by
  refine keepsMem_onMem fun w h => ?_
  split
  · simpa using h
  · split
    · simpa using h
    · exact acquireIf_wf _ _ _ (by simpa using h)

/-- The stores of a word, one lane after another. -/
theorem storeLanes_wf (w : Site) (through : Bool) (b : Nat × Phys → List Byte) (l : List (Nat × Phys)) {s : State}
    (h : s.m.mem.wf = true) :
    (l.foldl (fun s' x =>
      if through then s'.throughStore w.core w.ctx x.2 (b x) w.writer
      else s'.coreStore w.core w.ctx x.2 (b x) w.writer) s).m.mem.wf = true := by
  refine foldl_wf _ (fun s' x hs => ?_) _ _ h
  split
  · exact State.throughStore_wf _ _ _ _ _ hs
  · exact State.coreStore_wf _ _ _ _ _ hs

theorem execSt_keepsMem (f : StoreF) (s : State) : KeepsMem s (execSt f s) := by
  refine keepsMem_onMem fun w h => ?_
  dsimp only
  split
  · simpa using h
  · split
    · split <;> simpa using h
    · split
      · next hc => exact wf_of_mem (State.collapseWait_mem hc) h
      · split
        · simpa using h
        · split
          · exact h
          · split
            · next he =>
              split at he
              · exact (w.releaseAt_wf _ h).error he
              · split at he
                · exact (w.writeBack_wf _ _ h).error he
                · cases he
            · next s1 hs1 =>
              have h1 : s1.m.mem.wf = true := by
                split at hs1
                · exact (w.releaseAt_wf _ h).ok hs1
                · split at hs1
                  · exact (w.writeBack_wf _ _ h).ok hs1
                  · cases hs1; exact h
              refine w.clip_wf _ h ?_
              simp only [Site.commit_m, State.recordHolder_mem]
              exact storeLanes_wf w _ (fun x => w.storeData f.b f.sz.bytes x.1) _ h1

theorem execSts_keepsMem (f : StoreF) (s : State) : KeepsMem s (execSts f s) := by
  refine keepsMem_onMem fun w h => ?_
  dsimp only
  split
  · simpa using h
  · split
    · simpa using h
    · split
      · simpa using h
      · have hr := releaseIf_wf w (f.ord == .rel) f.scope.code h
        split
        · next he => exact hr.error he
        · next hs1 =>
          simp only [Site.commit_m]
          rw [foldl_mem _ (fun s' x => by simp)]
          exact hr.ok hs1

theorem State.atomAt_wf {s : State} (core ctx : Nat) (by_ : Writer) (op : AOp) (n : Nat) (ph : Phys) (b cmp : Nat)
    (h : s.m.mem.wf = true) : (s.atomAt core ctx by_ op n ph b cmp).1.m.mem.wf = true :=
  State.landBytes_wf _ _ _ (State.atomPrepare_wf _ _ (by simpa using h))

theorem State.runAtoms_wf (core ctx : Nat) (by_ : Writer) (op : AOp) (n d : Nat) :
    ∀ (l : List AtomLane) {s : State}, s.m.mem.wf = true → (State.runAtoms core ctx by_ op n d l s).1.m.mem.wf = true
  | [], _, h => h
  | x :: rest, s, h => by
    unfold State.runAtoms
    split
    · exact h
    · exact State.runAtoms_wf core ctx by_ op n d rest (State.atomAt_wf _ _ _ _ _ _ _ _ h)

theorem execAtom_keepsMem (f : AtomF) (s : State) : KeepsMem s (execAtom f s) := by
  refine keepsMem_onMem fun w h => ?_
  dsimp only
  split
  · simpa using h
  · split
    · next hc => exact wf_of_mem (State.collapseWait_mem hc) h
    · split
      · simpa using h
      · split
        · exact h
        · split
          · exact h
          · split
            · next hn => exact wf_of_mem (State.needHost_mem hn) h
            · have hr := releaseIf_wf w (ordRel f.ord) (w.scopeRun s f.scope) h
              split
              · next he => exact hr.error he
              · next hs1 =>
                split
                · next he => exact (w.writeBack_wf _ _ (hr.ok hs1)).error he
                · next hs2 =>
                  have h2 := (w.writeBack_wf _ _ (hr.ok hs1)).ok hs2
                  have h3 := fun l => State.runAtoms_wf w.core w.ctx w.writer f.op f.sz.bytes f.d.toNat l h2
                  split
                  · exact w.clip_wf _ h (acquireIf_wf _ _ _ (by simpa using h3 _))
                  · exact w.clip_wf _ h (by simpa using h3 _)

/-- The atomics of a word on scratchpad change no byte of memory. -/
theorem padAtomics_mem (w : Site) (f : AtomF) (l : List (Nat × Nat × Nat)) (n : Nat) :
    ∀ (st : State × List RegWrite), (l.foldl (fun (st : State × List RegWrite) x =>
      let old := bytesToNat (st.1.padSeen x.2.1 x.2.2 n)
      let new := atomNew f.op n old (w.operand f.b n x.1) (w.operand f.d n x.1)
      ((st.1.padWrite x.2.1 x.2.2 (natToBytes n new) w.writer).spoil x.2.1 x.2.2 n,
        st.2 ++ loadWrites false f.d.toNat n x.1 (natToBytes n old))) st).1.m.mem = st.1.m.mem := by
  induction l with
  | nil => exact fun _ => rfl
  | cons x l ih => intro st; rw [List.foldl_cons, ih]; simp

theorem execAtoms_keepsMem (f : AtomF) (s : State) : KeepsMem s (execAtoms f s) := by
  refine keepsMem_onMem fun w h => ?_
  dsimp only
  split
  · simpa using h
  · split
    · simpa using h
    · split
      · next he => exact (releaseIf_wf w _ _ h).error he
      · next hs1 =>
        refine acquireIf_wf _ _ _ ?_
        simp only [Site.post_m]
        rw [padAtomics_mem]
        exact (releaseIf_wf w _ _ h).ok hs1

/-! ### Cache control, waits and barriers -/

theorem State.cctlLine_wf {s : State} (core : Nat) (op : CctlOp) (ph : Phys) (h : s.m.mem.wf = true) :
    (s.cctlLine core op ph).m.mem.wf = true := by
  have hw := State.drainPath_wf .core (fun e => e.line == lineOf ph.pa)
    (wf_of_mem (State.wbWhere_mem s core (· == l1Key (lineOf ph.pa) ph.key)) h)
  unfold State.cctlLine
  cases op with
  | wb => simpa using hw
  | inv => simpa using State.drainPath_wf .core (fun e => e.line == lineOf ph.pa) (wf_of_mem (State.eraseL1_mem s core _) h)
  | wbinv => simpa using hw

theorem execCctl_keepsMem (f : CctlF) (s : State) : KeepsMem s (execCctl f s) := by
  refine keepsMem_onMem fun w h => ?_
  dsimp only
  split
  · simpa using h
  · split
    · next hn => exact wf_of_mem (State.needHost_mem hn) h
    · split
      · next he =>
        split at he
        · cases he
        · exact (w.writeBack_wf _ _ h).error he
      · next s1 hs1 =>
        have h1 : s1.m.mem.wf = true := by
          split at hs1
          · cases hs1; exact h
          · exact (w.writeBack_wf _ _ h).ok hs1
        simp only [Site.commit_m]
        exact foldl_wf _ (fun _ ph hs => State.cctlLine_wf _ _ ph hs) _ _ h1

theorem execMwait_keepsMem (f : MwaitF) (s : State) : KeepsMem s (execMwait f s) := by
  refine keepsMem_onMem fun w h => ?_
  dsimp only
  split
  · simpa using h
  · split
    · exact h
    · split
      · exact State.acquire_wf _ _ (by simpa using h)
      · simpa using h

theorem Site.barrier_wf (w : Site) {s : State} (k : BarKind) (h : s.m.mem.wf = true) :
    (w.barrier s k).m.mem.wf = true := by
  unfold Site.barrier
  split
  · simpa using h
  · split
    · next he => exact (w.releaseAt_wf _ h).error he
    · next hs1 => simpa using (w.releaseAt_wf _ h).ok hs1

theorem execNbar_keepsMem (s : State) : KeepsMem s (execNbar s) := by
  refine keepsMem_onMem fun w h => ?_
  split
  · simpa using h
  · split
    · exact w.barrier_wf _ h
    · simpa using h

theorem State.barComplete_wf {s : State} (t : Nat) (tm : Team) (k : BarKind) (h : s.m.mem.wf = true) :
    (s.barComplete t tm k).m.mem.wf = true := by
  unfold State.barComplete
  dsimp only
  split
  · split
    · cases (s.barSlots (s.barTeams t tm k) k _).head? with
      | none => exact h
      | some w => simpa using h
    · refine foldl_wf _ (fun _ c hs => State.acquire_wf c _ hs) _ _ ?_
      rw [foldl_mem _ (fun s' t => by simp)]
      split
      · rw [foldl_mem _ (fun s' c => by simp)]
        exact h
      · exact h
  · exact h

theorem execBarrierComplete_keepsMem (team : Nat) (s : State) : KeepsMem s (execBarrierComplete team s) := by
  unfold execBarrierComplete
  split
  · exact keepsMem_next.2 fun h => foldl_wf _ (fun _ k hs => State.barComplete_wf _ _ k hs) _ _ h
  · exact keepsMem_same s

/-! ### Fences and signals -/

theorem execFence_keepsMem (f : FenceF) (s : State) : KeepsMem s (execFence f s) := by
  refine keepsMem_onMem fun w h => ?_
  dsimp only
  split
  · exact h
  · split
    · next he => exact (w.releaseAt_wf _ h).error he
    · next hs1 =>
      have h1 := (w.releaseAt_wf _ h).ok hs1
      split
      · simpa using h1
      · exact w.clip_wf _ h (by simpa using State.acquire_wf _ _ h1)

/-- Draining some paths of every write that they hold. -/
theorem drainPaths_wf (test : Path → IngressEntry → Bool) (ps : List Path) {s : State} (h : s.m.mem.wf = true) :
    (ps.foldl (fun s' p => s'.drainPath p (test p)) s).m.mem.wf = true :=
  foldl_wf _ (fun _ p hs => State.drainPath_wf p _ hs) _ _ h

theorem execXfence_keepsMem (f : XfenceF) (s : State) : KeepsMem s (execXfence f s) := by
  refine keepsMem_onMem fun w h => ?_
  dsimp only
  split
  · next he =>
    split at he
    · exact (w.writeBack_wf _ _ h).error he
    · cases he
  · next s1 hs1 =>
    have h1 : s1.m.mem.wf = true := by
      split at hs1
      · exact (w.writeBack_wf _ _ h).ok hs1
      · cases hs1; exact h
    split
    · next hn => exact wf_of_mem (State.needHost_mem hn) h1
    · have h2 := drainPaths_wf (fun _ _ => true) (pathsOf f.src) h1
      split <;> simpa using h2

theorem State.signalAt_wf {s : State} (core ctx : Nat) (ph : Phys) (op : SigKind) (b : W64) (by_ : Writer)
    (h : s.m.mem.wf = true) : (s.signalAt core ctx ph op b by_).m.mem.wf = true :=
  State.landBytes_wf _ _ _ (State.atomPrepare_wf _ _ (by simpa using h))

theorem execSigop_keepsMem (f : SigopF) (s : State) : KeepsMem s (execSigop f s) := by
  refine keepsMem_onMem fun w h => ?_
  dsimp only
  split
  · simpa using h
  · split
    · next hc => exact wf_of_mem (State.collapseWait_mem hc) h
    · split
      · next hn => exact wf_of_mem (State.needHost_mem hn) h
      · split
        · next he => exact (w.releaseAt_wf _ h).error he
        · next hs1 =>
          have h1 := (w.releaseAt_wf _ h).ok hs1
          split
          · simpa using h1
          · exact w.clip_wf _ h (by simpa using State.signalAt_wf _ _ _ _ _ _ h1)

/-! ### Steps of a core -/

theorem Site.monAgain_wf (w : Site) {s : State} (p : Pending) (m m' : Monitor) (h : s.m.mem.wf = true) :
    (w.monAgain s p m m').m.mem.wf = true := by
  unfold Site.monAgain
  split
  · simpa using h
  · split
    · exact h
    · dsimp only
      split
      · exact State.acquire_wf _ _ (by simpa using h)
      · simpa using h

theorem execMwaitWake_keepsMem (team grp : Nat) (slot : Bool) (s : State) : KeepsMem s (execMwaitWake team grp slot s) := by
  unfold execMwaitWake
  split
  · split
    · exact keepsMem_next.2 (Site.monAgain_wf _ _ _ _)
    · exact keepsMem_same s
  · exact keepsMem_same s

theorem execMwaitTimeout_keepsMem (team grp : Nat) (slot : Bool) (s : State) :
    KeepsMem s (execMwaitTimeout team grp slot s) := by
  unfold execMwaitTimeout
  split
  · split
    · exact keepsMem_next.2 (Site.monAgain_wf _ _ _ _)
    · exact keepsMem_same s
  · exact keepsMem_same s

theorem execMwaitHostPoll_keepsMem (team grp : Nat) (slot : Bool) (s : State) :
    KeepsMem s (execMwaitHostPoll team grp slot s) := by
  unfold execMwaitHostPoll
  split
  · split
    · exact keepsMem_next.2 (Site.monAgain_wf _ _ _ _)
    · exact keepsMem_same s
  · exact keepsMem_same s

theorem execIngressDrain_keepsMem (basin slice path : Nat) (s : State) : KeepsMem s (execIngressDrain basin slice path s) := by
  unfold execIngressDrain
  dsimp only
  split
  · split
    · simp
    · exact keepsMem_next.2 fun h => State.leave_wf _ h
  · exact keepsMem_same s

theorem Site.performHeld_wf (w : Site) {s : State} (x : HeldStore) (h : s.m.mem.wf = true) :
    (w.performHeld s x).m.mem.wf = true := by
  unfold Site.performHeld
  split
  · simpa using h
  · exact State.coreStore_wf _ _ _ _ _ h

theorem Site.commitWindow_wf (w : Site) {s : State} (win : SpecWindow) (h : s.m.mem.wf = true) :
    (w.commitWindow s win).m.mem.wf = true := by
  unfold Site.commitWindow
  dsimp only
  rw [foldl_mem _ (fun s' x => by simp)]
  exact foldl_wf _ (fun _ x hs => w.performHeld_wf x hs) _ _ h

theorem execSpecWindowCommit_keepsMem (team grp : Nat) (s : State) : KeepsMem s (execSpecWindowCommit team grp s) := by
  unfold execSpecWindowCommit
  split
  · exact keepsMem_same s
  · split
    · simp
    · next w0 _ =>
      extract_lets sc traps s1
      have h1 : s.m.mem.wf = true → s1.m.mem.wf = true := State.acquire_wf w0.core sc
      split
      · exact keepsMem_next.2 h1
      · split
        · exact keepsMem_next.2 h1
        · split
          · extract_lets s2
            have h2 : s.m.mem.wf = true → s2.m.mem.wf = true := h1
            split
            · split
              · exact keepsMem_next.2 fun h => Site.trap_wf _ _ (h2 h) (h2 h)
              · exact keepsMem_next.2 h2
            · exact keepsMem_next.2 h2
          · exact keepsMem_next.2 fun h => Site.commitWindow_wf _ _ (h1 h)

theorem State.performAll_wf {s : State} (act : Action) (h : s.m.mem.wf = true) : EitherWf (s.performAll act) := by
  unfold State.performAll
  split
  · next hn => simpa using wf_of_mem (State.needHost_mem hn) h
  · simpa using drainPaths_wf (fun _ _ => true) devicePaths h

theorem State.endShoot_wf {s : State} (ctx lo hi : Nat) (act : Action) {f : State → State}
    (hf : ∀ t, t.m.mem.wf = true → (f t).m.mem.wf = true) (h : s.m.mem.wf = true) :
    (s.endShoot ctx lo hi act f).m.mem.wf = true := by
  unfold State.endShoot
  split
  · exact h
  · split
    · next he => exact (State.performAll_wf act h).error he
    · next hs1 => exact hf _ (by simpa using (State.performAll_wf act h).ok hs1)

theorem State.copyFrames_wf {s : State} (key src dst pages : Nat) (h : s.m.mem.wf = true) :
    (s.copyFrames key src dst pages).m.mem.wf = true :=
  foldl_wf _ (fun _ _ hs => State.writeHome_wf _ _ _ _ hs) _ _ h

theorem execReplicaPlacement_keepsMem (ctx page : Nat) (pool : PoolFrame) (s : State) :
    KeepsMem s (execReplicaPlacement ctx page pool s) := by
  unfold execReplicaPlacement
  dsimp only
  split
  · split
    · split
      · next hn => exact keepsMem_next.2 (wf_of_mem (State.needHost_mem hn))
      · exact keepsMem_next.2 fun h => State.copyFrames_wf _ _ _ _ h
    · exact keepsMem_same s
  · exact keepsMem_same s

theorem State.clearRepl_wf {s : State} (at_ : Nat) (h : s.m.mem.wf = true) : (s.clearRepl at_).m.mem.wf = true := by
  unfold State.clearRepl
  exact State.land_wf _ _ _ _ _ h

theorem execCollapseEvent_keepsMem (ctx page : Nat) (s : State) : KeepsMem s (execCollapseEvent ctx page s) := by
  unfold execCollapseEvent
  split
  · exact keepsMem_same s
  · dsimp only
    split
    · next hn => exact keepsMem_next.2 (wf_of_mem (State.needHost_mem hn))
    · next c _ _ _ =>
      have hl : s.m.mem.wf = true → ((s.replEntries c).foldl State.clearRepl s).m.mem.wf = true :=
        foldl_wf _ (fun _ a hs => State.clearRepl_wf a hs) _ _
      exact keepsMem_next.2 fun h => by simpa using hl h

theorem execCollapseRelease_keepsMem (ctx page : Nat) (s : State) : KeepsMem s (execCollapseRelease ctx page s) := by
  unfold execCollapseRelease
  split
  · exact keepsMem_same s
  · refine keepsMem_next.2 (State.endShoot_wf _ _ _ _ fun t ht => ?_)
    dsimp only
    rw [foldl_mem _ (fun s' a => by simp)]
    exact ht

/-! ### Atomics of the host -/

theorem State.hostAtomOk_wf {s : State} (team grp : Nat) (tm : Team) (p : Pending) (x : HostAtomic) (by_ : Writer)
    (h : s.m.mem.wf = true) : (s.hostAtomOk team grp tm p x by_).m.mem.wf = true := by
  unfold State.hostAtomOk
  dsimp only
  have h2 := State.runAtoms_wf tm.core tm.ctx by_ x.op x.bytes x.d x.rest (State.landBytes_wf x.cur.ph
    (natToBytes x.bytes (atomNew x.op x.bytes (bytesToNat (readBytes (s.homeByte x.cur.key) x.cur.phys x.bytes)) x.cur.operand
      x.cur.compare)) by_ h)
  split
  · simpa using h2
  · split
    · exact State.acquire_wf _ _ (by simpa using h2)
    · simpa using h2

theorem execHostAtomicCompletion_keepsMem (team grp : Nat) (slot ok : Bool) (s : State) :
    KeepsMem s (execHostAtomicCompletion team grp slot ok s) := by
  unfold execHostAtomicCompletion
  split
  · exact keepsMem_same s
  · split
    · exact keepsMem_same s
    · split
      · split
        · split
          · split
            · next hn => exact keepsMem_next.2 (wf_of_mem (State.needHost_mem hn))
            · exact keepsMem_next.2 (State.hostAtomOk_wf _ _ _ _ _ _)
          · simp
        · exact keepsMem_same s
      · split
        · split
          · exact keepsMem_next.2 fun h => Site.clip_wf _ _ h (by simpa using State.landBytes_wf _ _ _ h)
          · simp
        · exact keepsMem_same s

end Sys2Proof.Machine

namespace Sys2Proof.Machine

/-! ### Bytes in pieces -/

/-- A fold that hands each piece its share of the bytes keeps memory canonical when the write of one piece does. -/
theorem pieces_wf {α : Type} (put : State → α → List Byte → State) (size : α → Nat)
    (hput : ∀ s x b, s.m.mem.wf = true → (put s x b).m.mem.wf = true) :
    ∀ (l : List α) (st : State × List Byte), st.1.m.mem.wf = true →
      (l.foldl (fun (st : State × List Byte) x => (put st.1 x (st.2.take (size x)), st.2.drop (size x))) st).1.m.mem.wf = true
  | [], _, h => h
  | x :: l, st, h => pieces_wf put size hput l _ (hput st.1 x _ h)

theorem State.writePieces_wf {s : State} (p : Path) (ctx : Nat) (engine : Option Nat) (l : List (Phys × Nat)) (b : List Byte)
    (h : s.m.mem.wf = true) : (s.writePieces p ctx engine l b).m.mem.wf = true :=
  pieces_wf (fun s (x : Phys × Nat) b => s.pathStore p ctx x.1 b engine) (·.2)
    (fun _ _ _ hs => State.pathStore_wf _ _ _ _ _ hs) l (s, b) h

theorem State.fwPut_wf {s : State} (l : List (Phys × Nat)) (b : List Byte) (h : s.m.mem.wf = true) :
    (s.fwPut l b).m.mem.wf = true :=
  pieces_wf (fun s (x : Phys × Nat) b => s.landBytes x.1 b none) (·.2)
    (fun _ _ _ hs => State.landBytes_wf _ _ _ hs) l (s, b) h

theorem State.hostPut_wf {s : State} (l : List (Phys × Nat)) (b : List Byte) (h : s.m.mem.wf = true) :
    (s.hostPut l b).m.mem.wf = true := by
  unfold State.hostPut
  refine pieces_wf (fun s (x : Phys × Nat) b =>
    if x.1.host then s.landBytes x.1 b none else s.push .host (s.entryOf x.1 b none none)) (·.2) (fun s x b hs => ?_) l (s, b) h
  split
  · exact State.landBytes_wf _ _ _ hs
  · simpa using hs

/-! ### Starts of teams -/

theorem State.startTeam_wf {s : State} (id : Nat) (x : Nest) (p : ReadyPoint) (core : Nat) (h : s.m.mem.wf = true) :
    (s.startTeam id x p core).2.m.mem.wf = true := by
  unfold State.startTeam State.fresh
  exact State.acquire_wf _ _ (by simpa using h)

/-- The teams of a unit start one after another. -/
theorem startTeams_wf (id : Nat) (x : Nest) : ∀ (l : List (ReadyPoint × Nat)) (st : List (Nat × Nat) × State),
    st.2.m.mem.wf = true →
    (l.foldl (fun (st : List (Nat × Nat) × State) pc =>
      let (n, s') := st.2.startTeam id x pc.1 pc.2
      (st.1 ++ [(pc.1.teamIdx, n)], s')) st).2.m.mem.wf = true
  | [], _, h => h
  | pc :: l, _, h => startTeams_wf id x l _ (State.startTeam_wf id x pc.1 pc.2 h)

theorem State.startUnit_wf {s : State} (id : Nat) (x : Nest) (ps : List ReadyPoint) (cores : List Nat)
    (h : s.m.mem.wf = true) : (s.startUnit id x ps cores).m.mem.wf = true := by
  have hr := startTeams_wf id x (ps.zip cores) ([], s) h
  unfold State.startUnit
  dsimp only
  split
  · rw [foldl_mem _ (fun s' e => by simp)]
    exact hr
  · exact hr

theorem State.startAll_wf {s : State} (id : Nat) (x : Nest) (pl : Plan) (h : s.m.mem.wf = true) :
    (s.startAll id x pl).m.mem.wf = true := by
  unfold State.startAll
  exact foldl_wf _ (fun _ _ hs => State.startUnit_wf _ _ _ _ hs) _ _ h

theorem execTeamStart_keepsMem (core : Nat) (s : State) : KeepsMem s (execTeamStart core s) := by
  unfold execTeamStart
  dsimp only
  split
  · exact keepsMem_next.2 fun h => State.startUnit_wf _ _ _ _ h
  · exact keepsMem_same s

theorem execClusterStart_keepsMem (core : Nat) (s : State) : KeepsMem s (execClusterStart core s) := by
  unfold execClusterStart
  extract_lets go reserved
  have hgo : ∀ s' e x before t, s'.m.mem.wf = true → go s' e x before = some t → t.m.mem.wf = true := by
    intro s' e x before t hs ht
    simp only [go] at ht
    split at ht
    · split at ht
      · cases ht; exact State.startUnit_wf _ _ _ _ hs
      · cases ht
    · cases ht
  have hres : ∀ t, s.m.mem.wf = true → reserved = some t → t.m.mem.wf = true := by
    intro t h ht
    simp only [reserved] at ht
    split at ht
    · split at ht
      · split at ht
        · exact hgo _ _ _ _ _ (by exact h) ht
        · cases ht
      · cases ht
    · cases ht
  clear_value reserved
  split
  · next t => exact keepsMem_next.2 fun h => hres t h rfl
  · next pick _ =>
    refine keepsMem_next.2 fun h => ?_
    cases hp : pick with
    | none => exact h
    | some t =>
      obtain ⟨key, _, hk⟩ := List.exists_of_findSome?_eq_some hp
      split at hk
      · split at hk
        · exact hgo _ _ _ _ _ (by exact h) hk
        · cases hk
      · cases hk

theorem execPersistentStart_keepsMem (nest : Nat) (s : State) : KeepsMem s (execPersistentStart nest s) := by
  unfold execPersistentStart
  dsimp only
  split
  · split
    · exact keepsMem_same s
    · split
      · split
        · simp
        · exact keepsMem_same s
      · split
        · exact keepsMem_next.2 fun h => State.startAll_wf _ _ _ h
        · exact keepsMem_same s
  · exact keepsMem_same s

theorem execGangCommit_keepsMem (gang : Nat) (s : State) : KeepsMem s (execGangCommit gang s) := by
  unfold execGangCommit State.fresh
  dsimp only
  split
  · split
    · exact keepsMem_next.2 fun h => State.startAll_wf _ _ _ (by exact h)
    · exact keepsMem_same s
  · exact keepsMem_same s

theorem execPointRetire_keepsMem (team : Nat) (s : State) : KeepsMem s (execPointRetire team s) := by
  unfold execPointRetire
  dsimp only
  split
  · next t _ =>
    split
    · split
      · have hw : s.m.mem.wf = true → (s.wbCore t.core).m.mem.wf = true := wf_of_mem (by simp)
        split
        · next hn => exact keepsMem_next.2 fun h => wf_of_mem (State.needHost_mem hn) (hw h)
        · split
          · exact keepsMem_next.2 hw
          · have hd := fun h => drainPaths_wf (fun _ _ => true) retirePaths (hw h)
            split
            · exact keepsMem_next.2 fun h => by simpa using hd h
            · exact keepsMem_next.2 fun h => by simpa using hd h
      · exact keepsMem_same s
    · exact keepsMem_same s
  · exact keepsMem_same s

/-! ### Sluice processors -/

theorem State.writeWait_mem {s t : State} {ctx : Nat} {p : Path} {act : Action} {l : List Phys}
    (h : s.writeWait ctx p act l = some t) : t.m.mem = s.m.mem := by
  unfold State.writeWait at h
  split at h
  · next hc => cases h; exact State.collapseWait_mem hc
  · split at h
    · rw [State.awaitRoom_m h]
    · cases h

theorem SlSite.wordAt_mem {w : SlSite} {s t : State} {pc a : W64} (h : w.wordAt s pc a = .error t) : t.m.mem = s.m.mem := by
  unfold SlSite.wordAt at h
  split at h
  · next hw => cases h; exact State.awaitWalk_mem hw
  · cases h; simp
  · split at h
    · next hc => cases h; exact State.collapseWait_mem hc
    · cases h

theorem SlSite.writeElem_wf (w : SlSite) {s : State} (src : List Nat) (x : List Byte × Sum (Nat × Nat) Phys)
    (h : s.m.mem.wf = true) : (w.writeElem s src x).m.mem.wf = true := by
  unfold SlSite.writeElem
  dsimp only
  split
  · simpa using h
  · exact State.pathStore_wf _ _ _ _ _ h

theorem SlSite.performXfer_wf (w : SlSite) {s : State} (i : Nat) (pc : W64) (kind : XferKind) (esrc edst : Nat)
    (srcPad dstPad : Bool) (elems : List (Option W64 × W64)) (lines : List (Nat × Nat)) (h : s.m.mem.wf = true) :
    (w.performXfer s i pc kind esrc edst srcPad dstPad elems lines).m.mem.wf = true := by
  unfold SlSite.performXfer
  dsimp only
  split
  · next hw => exact wf_of_mem (State.awaitWalk_mem hw) h
  · simpa using h
  · split
    · simpa using h
    · split
      · simpa using h
      · split
        · next hw => exact wf_of_mem (State.writeWait_mem hw) h
        · simp only [SlSite.upd_m, SlSite.amaxOfKind_m]
          rw [foldl_mem _ (fun s' x => by simp)]
          exact foldl_wf _ (fun _ x hs => w.writeElem_wf _ x hs) _ _ (by simpa using h)

theorem SlSite.performStamp_wf (w : SlSite) {s : State} (i : Nat) (pc a v : W64) (h : s.m.mem.wf = true) :
    (w.performStamp s i pc a v).m.mem.wf = true := by
  unfold SlSite.performStamp
  split
  · next he => exact wf_of_mem (SlSite.wordAt_mem he) h
  · split
    · next hn =>
      split at hn
      · cases hn
      · exact wf_of_mem (State.needHost_mem hn) h
    · simp only [SlSite.upd_m]
      exact State.shortStore_wf _ _ _ _ (by simpa using h)

theorem SlSite.performSignal_wf (w : SlSite) {s : State} (i : Nat) (pc : W64) (op : SigKind) (a b : W64)
    (h : s.m.mem.wf = true) : (w.performSignal s i pc op a b).m.mem.wf = true := by
  unfold SlSite.performSignal
  split
  · next he => exact wf_of_mem (SlSite.wordAt_mem he) h
  · split
    · next hn => exact wf_of_mem (State.needHost_mem hn) h
    · have hd := State.drainPath_wf .sluice (fun _ => true) h
      dsimp only
      split
      · simpa using hd
      · simp only [SlSite.upd_m]
        exact State.landBytes_wf _ _ _ (by simpa using hd)

theorem execTransferPerform_keepsMem (core sctx : Nat) (s : State) : KeepsMem s (execTransferPerform core sctx s) := by
  unfold execTransferPerform
  split
  · split
    · exact keepsMem_same s
    · split
      · exact keepsMem_next.2 (SlSite.performXfer_wf _ _ _ _ _ _ _ _ _ _)
      · simp
      · exact keepsMem_next.2 (SlSite.performStamp_wf _ _ _ _ _)
      · exact keepsMem_next.2 (SlSite.performSignal_wf _ _ _ _ _ _)
      · exact keepsMem_same s
  · exact keepsMem_same s

/-! ### Fault records and aborts -/

theorem State.pieceWaits_mem {s t : State} {ctx : Nat} {act : Action} {l : List (Phys × Nat)}
    (h : s.pieceWaits ctx act l = some t) : t.m.mem = s.m.mem := by
  unfold State.pieceWaits at h
  split at h
  · next hc => cases h; exact State.collapseWait_mem hc
  · exact State.needHost_mem h

theorem State.writeRecord_wf {s : State} (act : Action) (ctx nest : Nat) (fi : FaultInfo) (multi : Bool)
    (h : s.m.mem.wf = true) : EitherWf (s.writeRecord act ctx nest fi multi) := by
  unfold State.writeRecord
  dsimp only
  split
  · split
    · next hw => exact eitherWf_error.2 (wf_of_mem (State.pieceWaits_mem hw) h)
    · split
      · exact eitherWf_ok.2 (State.fwPut_wf _ _ h)
      · exact eitherWf_ok.2 (State.fwPut_wf _ _ h)
  · simpa using h

theorem State.settleHost_wf {s : State} (g : Group) (h : s.m.mem.wf = true) : (s.settleHost g).m.mem.wf = true := by
  unfold State.settleHost
  dsimp only
  refine foldl_wf _ (fun s' x hs => ?_) _ _ (foldl_wf _ (fun s' p hs => ?_) _ _ h)
  · split
    · split
      · exact State.landBytes_wf _ _ _ hs
      · exact hs
    · exact hs
  · split
    · split
      · exact State.landBytes_wf _ _ _ hs
      · exact hs
    · exact hs

theorem State.discard_wf {s : State} (nest : Nat) (x : Nest) (h : s.m.mem.wf = true) :
    (s.discard nest x).m.mem.wf = true := by
  unfold State.discard
  dsimp only
  rw [foldl_mem _ (fun s' c => by simp), foldl_mem _ (fun s' c => foldl_mem _ (fun s'' e => by simp) _ _)]
  exact foldl_wf _ (fun _ t hs => foldl_wf _ (fun _ g hg => State.settleHost_wf g hg) _ _ hs) _ _ h

theorem execNestAbort_keepsMem (nest : Nat) (s : State) : KeepsMem s (execNestAbort nest s) := by
  unfold execNestAbort
  split
  · split
    · split
      · split
        · next he => exact keepsMem_next.2 fun h => (State.writeRecord_wf _ _ _ _ _ h).error he
        · next hs1 =>
          exact keepsMem_next.2 fun h => by
            simpa using State.discard_wf nest _ ((State.writeRecord_wf _ _ _ _ _ h).ok hs1)
      · exact keepsMem_same s
    · exact keepsMem_same s
  · exact keepsMem_same s

end Sys2Proof.Machine

namespace Sys2Proof.Machine

/-! ### Basin engines -/

/-- An attempt of an engine keeps memory canonical: the state that it waits in or that it has written. -/
def Attempt.Wf : Attempt → Prop
  | .fail _ _ => True
  | .wait t => t.m.mem.wf = true
  | .done t => t.m.mem.wf = true

@[simp] theorem attemptWf_wait {t : State} : (Attempt.wait t).Wf ↔ t.m.mem.wf = true := Iff.rfl

@[simp] theorem attemptWf_done {t : State} : (Attempt.done t).Wf ↔ t.m.mem.wf = true := Iff.rfl

theorem EngineStop.attempt_wf (x : EngineStop) {s : State} (id : Nat) (e : EngineWord) (h : s.m.mem.wf = true) :
    (x.attempt s id e).Wf := by
  cases x with
  | bad c a => trivial
  | walk page => simpa [EngineStop.attempt] using h

theorem State.engineWait_wf {s : State} (id : Nat) (e : EngineWord) (phs : List Phys) {go : Attempt}
    (h : s.m.mem.wf = true) (hgo : go.Wf) : (s.engineWait id e phs go).Wf := by
  unfold State.engineWait
  split
  · next hw => exact wf_of_mem (State.writeWait_mem hw) h
  · exact hgo

theorem State.scramble_wf {s : State} (p : Path) (e : EngineWord) (a n : Nat) (h : s.m.mem.wf = true) :
    (s.scramble p e a n).m.mem.wf = true := by
  unfold State.scramble
  refine foldl_wf _ (fun s' x hs => ?_) _ _ h
  split
  · split
    · exact hs
    · exact State.pathStore_wf _ _ _ _ _ hs
  · exact hs

theorem State.scrambleAll_wf {s : State} (p : Path) (e : EngineWord) (l : List ((Nat × Nat) × (Nat × Nat)))
    (h : s.m.mem.wf = true) : (s.scrambleAll p e l).m.mem.wf = true := by
  unfold State.scrambleAll
  refine foldl_wf _ (fun s' x hs => ?_) _ _ h
  dsimp only
  split
  · exact hs
  · exact State.scramble_wf _ _ _ _ hs

theorem State.putPos_wf {s : State} (e : EngineWord) (x : PosAt) (b : List Byte) (h : s.m.mem.wf = true) :
    (s.putPos e x b).m.mem.wf = true := by
  cases x with
  | pad t off => simpa [State.putPos] using h
  | dev l => exact State.writePieces_wf _ _ _ l b h
  | gone => exact h

theorem State.runGather_wf {s : State} (id : Nat) (e : EngineWord) (h : s.m.mem.wf = true) : (s.runGather id e).Wf := by
  unfold State.runGather
  split
  · exact EngineStop.attempt_wf _ _ _ h
  · exact EngineStop.attempt_wf _ _ _ h
  · refine State.engineWait_wf _ _ _ h ?_
    simp only [attemptWf_done, State.engineDone_m]
    rw [foldl_mem _ (fun s' x => by simp)]
    refine foldl_wf _ (fun s' x hs => State.putPos_wf _ _ _ hs) _ _ ?_
    rw [foldl_mem _ (fun s' x => by simp)]
    exact h

theorem State.scatElem_wf {s : State} (nest op ctx : Nat) (ph : Phys) (x : Nat) (h : s.m.mem.wf = true) :
    (s.scatElem nest op ctx ph x).m.mem.wf = true := by
  unfold State.scatElem
  dsimp only
  split
  · exact State.leave_wf _ (by simpa using h)
  · simpa using h

theorem State.scatWrite_wf {s : State} (e : EngineWord) (l : List (Phys × Nat)) (xs : List Nat) (h : s.m.mem.wf = true) :
    (s.scatWrite e l xs).m.mem.wf = true := by
  unfold State.scatWrite
  split
  · exact State.writePieces_wf _ _ _ _ _ h
  · exact foldl_wf _ (fun _ _ hs => State.scatElem_wf _ _ _ _ _ hs) _ _ h

theorem State.runScatter_wf {s : State} (id : Nat) (e : EngineWord) (h : s.m.mem.wf = true) : (s.runScatter id e).Wf := by
  unfold State.runScatter
  split
  · exact EngineStop.attempt_wf _ _ _ h
  · exact h
  · dsimp only
    split
    · exact EngineStop.attempt_wf _ _ _ h
    · exact EngineStop.attempt_wf _ _ _ h
    · split
      · exact h
      · split
        · trivial
        · refine State.engineWait_wf _ _ _ h ?_
          simp only [attemptWf_done, State.engineDone_m]
          refine State.scrambleAll_wf _ _ _ (foldl_wf _ (fun _ _ hs => State.scatWrite_wf _ _ _ hs) _ _ ?_)
          rw [foldl_mem _ (fun s' x => by simp)]
          simpa using h

theorem State.runEsort_wf {s : State} (id : Nat) (e : EngineWord) (h : s.m.mem.wf = true) : (s.runEsort id e).Wf := by
  unfold State.runEsort
  dsimp only
  split
  · exact EngineStop.attempt_wf _ _ _ h
  · exact EngineStop.attempt_wf _ _ _ h
  · exact h
  · refine State.engineWait_wf _ _ _ h ?_
    simp only [attemptWf_done, State.engineDone_m]
    exact State.scrambleAll_wf _ _ _ (foldl_wf _ (fun _ _ hs => State.writePieces_wf _ _ _ _ _ hs) _ _ (by simpa using h))

theorem State.collError_wf {s : State} (id : Nat) (e : EngineWord) (ranks : Nat) (h : s.m.mem.wf = true) :
    (s.collError id e ranks).m.mem.wf = true := by
  unfold State.collError
  simp only [State.engineDone_m]
  exact foldl_wf _ (fun _ _ hs => State.scramble_wf _ _ _ _ hs) _ _ h

theorem State.runA2av_wf {s : State} (id : Nat) (e : EngineWord) (c : Comm) (h : s.m.mem.wf = true) :
    (s.runA2av id e c).Wf := by
  unfold State.runA2av
  extract_lets basin
  split
  · exact EngineStop.attempt_wf _ _ _ h
  · exact EngineStop.attempt_wf _ _ _ h
  · exact h
  · dsimp only
    refine State.engineWait_wf _ _ _ h ?_
    split
    · simp only [attemptWf_done, State.engineDone_m]
      exact State.writePieces_wf _ _ _ _ _ (by simpa using h)
    · split
      · exact EngineStop.attempt_wf _ _ _ h
      · exact EngineStop.attempt_wf _ _ _ h
      · exact h
      · refine State.engineWait_wf _ _ _ h ?_
        simp only [attemptWf_done, State.engineDone_m]
        refine State.writePieces_wf _ _ _ _ _ ?_
        simp only [State.engineTouch_mem]
        exact State.writePieces_wf _ _ _ _ _ (by simpa using h)

theorem State.runAredc_wf {s : State} (id : Nat) (e : EngineWord) (c : Comm) (h : s.m.mem.wf = true) :
    (s.runAredc id e c).Wf := by
  unfold State.runAredc
  dsimp only
  split
  · refine State.engineWait_wf _ _ _ h ?_
    simp only [attemptWf_done, State.engineDone_m]
    exact State.scrambleAll_wf _ _ _ (State.writePieces_wf _ _ _ _ _ (State.writePieces_wf _ _ _ _ _ (by simpa using h)))
  · exact EngineStop.attempt_wf _ _ _ h
  · exact EngineStop.attempt_wf _ _ _ h
  · exact EngineStop.attempt_wf _ _ _ h
  · exact EngineStop.attempt_wf _ _ _ h
  · exact h
  · exact h

theorem State.runColl_wf {s : State} (id : Nat) (e : EngineWord) (h : s.m.mem.wf = true) : (s.runColl id e).Wf := by
  unfold State.runColl
  split
  · split
    · exact h
    · split
      · exact State.collError_wf _ _ _ h
      · split
        · exact h
        · split
          · exact State.runA2av_wf _ _ _ h
          · exact State.runAredc_wf _ _ _ h
  · exact h

theorem State.stamp_wf {s : State} (id : Nat) (e : EngineWord) (ok : Bool) (h : s.m.mem.wf = true) :
    (s.stamp id e ok).Wf := by
  unfold State.stamp
  split
  · exact EngineStop.attempt_wf _ _ _ h
  · split
    · next hc => exact wf_of_mem (State.collapseWait_mem hc) h
    · exact h
    · split
      · next hn =>
        split at hn
        · cases hn
        · exact wf_of_mem (State.needHost_mem hn) h
      · simp only [attemptWf_done, State.dropEngine_m, State.engineAmax_m]
        exact State.shortStore_wf _ _ _ _ (by simpa using h)

theorem State.engineNext_wf {s : State} (id : Nat) (e : EngineWord) (h : s.m.mem.wf = true) : (s.engineNext id e).Wf := by
  unfold State.engineNext
  split
  · split
    · exact State.collError_wf _ _ _ h
    · exact State.stamp_wf _ _ _ h
  · exact State.runGather_wf _ _ h
  · split
    · split
      · exact EngineStop.attempt_wf _ _ _ h
      · exact h
    · exact State.runScatter_wf _ _ h
    · exact State.runEsort_wf _ _ h
    · exact State.runColl_wf _ _ h
    · exact State.runColl_wf _ _ h

theorem execEngineComplete_keepsMem (id : Nat) (s : State) : KeepsMem s (execEngineComplete id s) := by
  unfold execEngineComplete
  split
  · next e _ =>
    have hn : s.m.mem.wf = true → (s.engineNext id e).Wf := State.engineNext_wf id e
    split
    · next h1 => exact keepsMem_next.2 fun h => by simpa [h1] using hn h
    · next h1 => exact keepsMem_next.2 fun h => by simpa [h1] using hn h
    · exact keepsMem_same s
  · exact keepsMem_same s

theorem execEngineLateFault_keepsMem (id : Nat) (s : State) : KeepsMem s (execEngineLateFault id s) := by
  unfold execEngineLateFault
  split
  · next e _ =>
    have hn : s.m.mem.wf = true → (s.engineNext id e).Wf := State.engineNext_wf id e
    split
    · dsimp only
      split
      · simp
      · split
        · simp
        · next c a _ _ _ =>
          have hr := fun (h : s.m.mem.wf = true) => State.writeRecord_wf (s := (s.dropEngine id e).dropCount id e)
            (.event (.engineLateFault id)) e.ctx e.nest (e.faultInfo c a s.time) false (by simpa using h)
          split
          · next he => exact keepsMem_next.2 fun h => (hr h).ok he
          · next s2 he => exact keepsMem_next.2 fun h => (hr h).error (t := s2) he
    · next h1 => exact keepsMem_next.2 fun h => by simpa [h1] using hn h
    · exact keepsMem_same s
  · exact keepsMem_same s

theorem execCollectiveTimeout_keepsMem (id : Nat) (s : State) : KeepsMem s (execCollectiveTimeout id s) := by
  unfold execCollectiveTimeout
  split
  · split
    · split
      · exact keepsMem_next.2 fun h => State.collError_wf _ _ _ h
      · exact keepsMem_same s
    · exact keepsMem_same s
  · exact keepsMem_same s

theorem execLinkPathFailure_keepsMem (vd comm rank : Nat) (s : State) : KeepsMem s (execLinkPathFailure vd comm rank s) := by
  unfold execLinkPathFailure
  dsimp only
  split
  · split
    · split
      · exact keepsMem_next.2 fun h => State.collError_wf _ _ _ h
      · exact keepsMem_same s
    · exact keepsMem_same s
  · exact keepsMem_same s

/-! ### Completion writes and slices -/

theorem State.fwRelease_wf {s : State} (act : Action) (nest : Option Nat) (h : s.m.mem.wf = true) :
    EitherWf (s.fwRelease act nest) := by
  unfold State.fwRelease
  split
  · next hn => exact eitherWf_error.2 (wf_of_mem (State.needHost_mem hn) h)
  · exact eitherWf_ok.2 (drainPaths_wf (fun _ => engineOf nest) _ (drainPaths_wf (fun _ _ => true) retirePaths h))

theorem State.fwAcquire_wf {s : State} (scope : Nat) (h : s.m.mem.wf = true) : (s.fwAcquire scope).m.mem.wf = true := by
  unfold State.fwAcquire
  dsimp only
  rw [foldl_mem _ (fun s' c => by simp)]
  split
  · exact State.drainPath_wf _ _ h
  · exact h

/-- A signal of Fountainhead: the state that it goes on from, whether or not its address translates, or the state that waits. -/
theorem State.signalFw_wf {s : State} (act : Action) (ctx : Nat) (addr : W64) (f : W64 → W64) (h : s.m.mem.wf = true) :
    (∀ t b, s.signalFw act ctx addr f = .ok (t, b) → t.m.mem.wf = true) ∧
    (∀ t, s.signalFw act ctx addr f = .error t → t.m.mem.wf = true) := by
  unfold State.signalFw
  split
  · simpa using h
  · split
    · next hw => simpa using wf_of_mem (State.pieceWaits_mem hw) h
    · simpa using State.landBytes_wf _ _ none h

theorem State.queueError_wf {s : State} (act : Action) (q code idx : Nat) (h : s.m.mem.wf = true) :
    EitherWf (s.queueError act q code idx) := by
  unfold State.queueError
  dsimp only
  split
  · split
    · next hw => exact eitherWf_error.2 (wf_of_mem (State.pieceWaits_mem hw) h)
    · exact eitherWf_ok.2 (State.fwPut_wf _ _ (by simpa using h))
  · simpa using h

theorem State.performCompl_wf {s : State} (act : Action) (x : ComplWrite) (h : s.m.mem.wf = true) :
    EitherWf (s.performCompl act x) := by
  unfold State.performCompl
  split
  · next hn => exact eitherWf_error.2 (wf_of_mem (State.needHost_mem hn) h)
  · split
    · next he => exact eitherWf_error.2 ((State.fwRelease_wf _ _ h).error he)
    · next hs1 =>
      obtain ⟨hok, herr⟩ := State.signalFw_wf act x.ctx x.addr (complValue x.ok) ((State.fwRelease_wf _ _ h).ok hs1)
      split
      · next he => exact eitherWf_error.2 (herr _ he)
      · next hs2 => exact eitherWf_ok.2 (hok _ _ hs2)
      · next hs2 => split <;> simpa using hok _ _ hs2

theorem State.complete_wf {s : State} (act : Action) (vd : Nat) (x : ComplWrite) (h : s.m.mem.wf = true) :
    EitherWf (s.complete act vd x) := by
  unfold State.complete
  split
  · exact State.fwRelease_wf _ _ h
  · split
    · split <;> simpa using h
    · exact State.performCompl_wf _ _ h

theorem State.flushHeld_wf {s : State} (act : Action) (vd : Nat) (h : s.m.mem.wf = true) : EitherWf (s.flushHeld act vd) := by
  unfold State.flushHeld
  refine List.foldlRecOn _ _ (eitherWf_ok.2 h) fun st hst x _ => ?_
  split
  · exact hst
  · split
    · next he => exact eitherWf_error.2 ((State.performCompl_wf _ _ (eitherWf_ok.1 hst)).error he)
    · next hs2 => exact eitherWf_ok.2 (by simpa using (State.performCompl_wf _ _ (eitherWf_ok.1 hst)).ok hs2)

theorem State.flushThen_wf {s : State} (part vd : Nat) {f : State → State}
    (hf : ∀ t, t.m.mem.wf = true → (f t).m.mem.wf = true) (h : s.m.mem.wf = true) :
    (s.flushThen part vd f).m.mem.wf = true := by
  unfold State.flushThen
  split
  · next he => exact (State.flushHeld_wf _ _ h).error he
  · next hs1 => exact hf _ ((State.flushHeld_wf _ _ h).ok hs1)

theorem visitFrom_wf {part fuel : Nat} {s s1 : State} {v : Option Nat} (he : visitFrom part fuel s = (s1, v))
    (h : s.m.mem.wf = true) : s1.m.mem.wf = true := by
  have hv := wf_of_m (visitFrom_m part fuel s) h
  rwa [he] at hv

theorem execSliceStart_keepsMem (part : Nat) (s : State) : KeepsMem s (execSliceStart part s) := by
  unfold execSliceStart
  split
  · exact keepsMem_same s
  · split
    · exact keepsMem_next.2 (State.flushThen_wf _ _ fun t ht => by simpa using ht)
    · split
      · next s1 v he =>
        exact keepsMem_next.2 fun h => State.flushThen_wf _ _ (fun t ht => by simpa using ht) (visitFrom_wf he h)
      · next s1 he =>
        split
        · exact keepsMem_next.2 (visitFrom_wf he)
        · split
          · exact keepsMem_next.2 fun h => State.flushThen_wf _ _ (fun t ht => by simpa using ht) (visitFrom_wf he h)
          · exact keepsMem_next.2 (visitFrom_wf he)

/-! ### Pre-emption -/

theorem MemState.scramble_wf {m : MemState} (ranges : List (Nat × Nat)) (t : Nat) (h : m.mem.wf = true) :
    (m.scramble ranges t).mem.wf = true :=
  SMap.wf_filter _ h

theorem State.fwControl_wf {s : State} (l : List (Phys × Nat)) (h : s.m.mem.wf = true) : (s.fwControl l).m.mem.wf = true := by
  unfold State.fwControl
  split
  · exact h
  · exact MemState.scramble_wf _ _ h

theorem execContextSave_keepsMem (core : Nat) (s : State) : KeepsMem s (execContextSave core s) := by
  fun_cases execContextSave core s with
  | case1 ctx _ l own s1 hw => exact keepsMem_next.2 (wf_of_mem (State.pieceWaits_mem hw))
  | case2 ctx _ l own _ s1 s2 s3 s4 s5 =>
    refine keepsMem_next.2 fun h => ?_
    have h1 : s1.m.mem.wf = true := wf_of_mem ((State.setL1_mem _ _ _).trans (State.wbCore_mem s core)) h
    have h2 : s2.m.mem.wf = true := h1
    have h3 : s3.m.mem.wf = true := foldl_wf _ (fun _ _ hs => State.fwPut_wf _ _ hs) _ _ (State.fwControl_wf own h2)
    have h4 : s4.m.mem.wf = true := wf_of_m (foldl_m _ (fun s' t => by simp) _ _) h3
    have h5 : s5.m.mem.wf = true := by
      simp only [s5, State.updCore_m]
      split
      · exact wf_of_m (State.evictCopies_m _ _ _) h4
      · exact h4
    exact wf_of_mem (State.resplit_mem _ _) h5
  | case3 => exact keepsMem_same s

theorem State.resumeTeam_wf {s : State} (t : Nat) (tm : Team) (core : Nat) (h : s.m.mem.wf = true) :
    (s.resumeTeam t tm core).m.mem.wf = true := by
  unfold State.resumeTeam
  exact State.acquire_wf _ _ (by simpa using h)

/-- The states that an option may hold have canonical memory. -/
def OptionWf (o : Option State) : Prop := ∀ t, o = some t → t.m.mem.wf = true

theorem OptionWf.getD {o : Option State} {s : State} (ho : OptionWf o) (h : s.m.mem.wf = true) :
    (o.getD s).m.mem.wf = true := by
  cases o with
  | none => exact h
  | some t => exact ho t rfl

theorem optionWf_some {s : State} (h : s.m.mem.wf = true) : OptionWf (some s) := fun _ ht => by cases ht; exact h

theorem optionWf_none : OptionWf none := fun _ ht => nomatch ht

theorem OptionWf.bind {α : Type} {o : Option α} {f : α → Option State} (hf : ∀ a, o = some a → OptionWf (f a)) :
    OptionWf (o.bind f) := by
  cases o with
  | none => exact optionWf_none
  | some a => exact hf a rfl

theorem State.resumeOn_wf {s : State} (x : Nest) (before : Nat) (u : List (Nat × Team)) (cores : List Nat)
    (h : s.m.mem.wf = true) : OptionWf (s.resumeOn x before u cores) := by
  unfold State.resumeOn
  refine List.foldlRecOn _ _ (optionWf_some h) fun st hst y _ => ?_
  split
  · next s1 =>
    split
    · exact optionWf_some (State.resumeTeam_wf _ _ _ (hst s1 rfl))
    · exact optionWf_none
  · exact optionWf_none

theorem State.resumeUnit_wf {s : State} (x : Nest) (before : Nat) (u : List (Nat × Team)) (core : Nat)
    (h : s.m.mem.wf = true) : OptionWf (s.resumeUnit x before u core) :=
  OptionWf.bind fun _ _ => State.resumeOn_wf _ _ _ _ h

theorem State.resumeAll_wf {s : State} (x : Nest) (since : Nat) (pl : Plan) (units : List (List (Nat × Team)))
    (h : s.m.mem.wf = true) : OptionWf (s.resumeAll x since pl units) := by
  unfold State.resumeAll
  exact List.foldlRecOn _ _ (optionWf_some h) fun st hst u _ =>
    OptionWf.bind fun s1 h1 => OptionWf.bind fun _ _ => State.resumeOn_wf _ _ _ _ (hst s1 h1)

theorem State.resumePersistent_wf {s : State} (nest : Nat) (x : Nest) (units : List (List (Nat × Team)))
    (h : s.m.mem.wf = true) : (s.resumePersistent nest x units).m.mem.wf = true := by
  unfold State.resumePersistent
  split
  · split
    · next hs1 => simpa using State.resumeAll_wf _ _ _ _ h _ hs1
    · simpa using h
  · exact h

theorem State.resumeCluster_wf {s : State} (x : Nest) (nest : Nat) (u : List (Nat × Team)) (core : Nat)
    (h : s.m.mem.wf = true) : (s.resumeCluster x nest u core).m.mem.wf = true := by
  unfold State.resumeCluster
  dsimp only
  split
  · exact (State.resumeUnit_wf _ _ _ _ (by exact h)).getD h
  · split
    · split
      · exact (State.resumeOn_wf _ _ _ _ h).getD h
      · exact h
    · exact h

theorem execContextResume_keepsMem (team core : Nat) (s : State) : KeepsMem s (execContextResume team core s) := by
  unfold execContextResume
  split
  · split
    · dsimp only
      split
      · split
        · exact keepsMem_next.2 (State.resumePersistent_wf _ _ _)
        · refine keepsMem_next.2 fun h => ?_
          cases (s.savedUnits (s.companions team _)).head? with
          | none => exact h
          | some u =>
            dsimp only [Option.elim]
            split
            · exact State.resumeCluster_wf _ _ _ _ h
            · exact (State.resumeUnit_wf _ _ _ _ h).getD h
      · exact keepsMem_same s
    · exact keepsMem_same s
  · dsimp only
    split
    · exact keepsMem_next.2 (wf_of_m (foldl_m _ (fun s' x => by simp) _ _))
    · exact keepsMem_same s

end Sys2Proof.Machine

namespace Sys2Proof.Machine

/-! ### Queues and packets -/

theorem State.fwStore_wf {s : State} (act : Action) (ctx a : Nat) (b : List Byte) (h : s.m.mem.wf = true) :
    EitherWf (s.fwStore act ctx a b) := by
  unfold State.fwStore
  split
  · exact eitherWf_ok.2 h
  · split
    · next hw => exact eitherWf_error.2 (wf_of_mem (State.pieceWaits_mem hw) h)
    · exact eitherWf_ok.2 (State.fwPut_wf _ _ h)

theorem State.nextPacket_wf {s : State} (q : Nat) (h : s.m.mem.wf = true) : EitherWf (s.nextPacket q) := by
  unfold State.nextPacket
  dsimp only
  split
  · next hw => exact eitherWf_error.2 (wf_of_mem (State.pieceWaits_mem hw) h)
  · exact eitherWf_ok.2 (by simpa using State.fwPut_wf _ _ (State.fwPut_wf _ _ h))

theorem State.writeBlock_wf {s : State} (act : Action) (p : Packet) (h : s.m.mem.wf = true) :
    EitherWf (s.writeBlock act p) := by
  unfold State.writeBlock
  split
  · exact eitherWf_ok.2 h
  · exact State.fwStore_wf _ _ _ _ h

theorem State.failSignal_wf {s : State} (q : Nat) (f : Failing) (h : s.m.mem.wf = true) : EitherWf (s.failSignal q f) := by
  unfold State.failSignal
  dsimp only
  have hb : EitherWf ((f.id.bind fun id => s.flight? q id).elim (.ok s) fun p => s.writeBlock (laneStep q) p) := by
    cases f.id.bind fun id => s.flight? q id with
    | none => exact eitherWf_ok.2 h
    | some p => exact State.writeBlock_wf _ _ h
  split
  · next he => exact eitherWf_error.2 (hb.error he)
  · next hs1 =>
    split
    · exact eitherWf_ok.2 (hb.ok hs1)
    · exact State.complete_wf _ _ _ (hb.ok hs1)

theorem State.applyFailing_wf {s : State} (q : Nat) (f : Failing) (h : s.m.mem.wf = true) :
    EitherWf (s.applyFailing q f) := by
  have hsig : EitherWf (if f.signalled then .ok s else s.failSignal q f) := by
    split
    · exact eitherWf_ok.2 h
    · exact State.failSignal_wf _ _ h
  have hrec : ∀ t, t.m.mem.wf = true → EitherWf (match f.code with
      | some c => if f.recorded || (t.queue q).state != QState.active then .ok t else t.queueError (laneStep q) q c f.idx
      | none => .ok t) := by
    intro t ht
    split
    · split
      · exact eitherWf_ok.2 ht
      · exact State.queueError_wf _ _ _ _ ht
    · exact eitherWf_ok.2 ht
  fun_cases State.applyFailing s q f with
  | case1 e he => exact eitherWf_error.2 (hsig.error he)
  | case2 s1 hs1 s2 r e he => exact eitherWf_error.2 ((hrec s2 (hsig.ok (t := s1) hs1)).error he)
  | case3 s1 hs1 s2 r s3 hs3 s4 pop id _ =>
    exact eitherWf_ok.2 ((hrec s2 (hsig.ok (t := s1) hs1)).ok (t := s3) hs3)
  | case4 s1 hs1 s2 r s3 hs3 s4 _ e he =>
    have h4 : s4.m.mem.wf = true := (hrec s2 (hsig.ok (t := s1) hs1)).ok (t := s3) hs3
    exact eitherWf_error.2 ((State.nextPacket_wf q h4).error he)
  | case5 s1 hs1 s2 r s3 hs3 s4 pop _ s5 hs5 =>
    have h4 : s4.m.mem.wf = true := (hrec s2 (hsig.ok (t := s1) hs1)).ok (t := s3) hs3
    exact eitherWf_ok.2 ((State.nextPacket_wf q h4).ok (t := s5) hs5)

/-! What follows speaks of `MemoryCanonical` itself, so that no check of a proof has to unfold the steps of a lane. -/

theorem foldl_canonical {β : Type} (f : State → β → State) (hf : ∀ s b, MemoryCanonical s → MemoryCanonical (f s b)) :
    ∀ (l : List β) (s : State), MemoryCanonical s → MemoryCanonical (l.foldl f s) :=
  foldl_wf f hf

theorem State.settleLane_canonical :
    ∀ (fuel q : Nat) {s : State}, MemoryCanonical s → MemoryCanonical (State.settleLane fuel q s)
  | 0, _, _, h => h
  | fuel + 1, q, s, h => by
    unfold State.settleLane
    dsimp only
    split
    · split
      · next he => exact (State.applyFailing_wf _ _ h).error he
      · next hs1 => exact State.settleLane_canonical fuel q ((State.applyFailing_wf _ _ h).ok hs1)
    · split
      · split
        · exact State.settleLane_canonical fuel q h
        · exact h
      · exact h

theorem State.settle_canonical {s : State} (q : Nat) (h : MemoryCanonical s) : MemoryCanonical (s.settle q) :=
  State.settleLane_canonical _ _ h

theorem State.failHere_canonical {s : State} (q code : Nat) (compl : W64) (h : MemoryCanonical s) :
    MemoryCanonical (s.failHere q code compl) :=
  State.settle_canonical _ h

/-- What processing a packet gives keeps memory canonical: its work starts from a state that does. -/
def Started.Wf : Started → Prop
  | .fails _ => True
  | .waits _ => True
  | .work t _ _ _ => t.m.mem.wf = true

/-- Processing a packet keeps memory canonical, also where it must wait. -/
def StartWf : Except State Started → Prop
  | .ok x => x.Wf
  | .error t => t.m.mem.wf = true

theorem State.startNest_wf {s : State} (q id : Nat) (record : W64) (gangPkt : Bool) (parts : List Nat)
    (h : s.m.mem.wf = true) : (s.startNest q id record gangPkt parts).Wf := by
  unfold State.startNest
  dsimp only
  split
  · exact h
  · split
    · trivial
    · exact wf_of_m (State.launch_m _ _ _ _ _ _) h

theorem State.startPacket_wf {s : State} (s0 : State) (q id : Nat) (b : List Byte) (h : s.m.mem.wf = true) :
    StartWf (s.startPacket s0 q id b) := by
  have hsig := fun ctx => State.signalFw_wf (laneStep q) ctx (pktDword b 0x10) (pktSignal b) h
  fun_cases State.startPacket s s0 q id b with
  | case1 => trivial
  | case2 => exact h
  | case3 => exact h
  | case4 _ _ t ht => exact wf_of_mem (State.pieceWaits_mem ht) h
  | case5 _ _ _ t ht => exact (hsig _).2 t ht
  | case6 => trivial
  | case7 _ _ _ t ht => exact (hsig _).1 t true ht
  | case8 => exact State.startNest_wf _ _ _ _ _ h
  | case9 => trivial
  | case10 => exact State.startNest_wf _ _ _ _ _ h
  | case11 => trivial
  | case12 => trivial
  | case13 => trivial
  | case14 => exact h
  | case15 => exact h

theorem State.runPacket_canonical {s : State} (s0 : State) (q : Nat) (b : List Byte) (h : MemoryCanonical s) :
    MemoryCanonical (s.runPacket s0 q b) := by
  fun_cases State.runPacket s s0 q b with
  | case1 => exact State.failHere_canonical _ _ _ h
  | case2 => exact State.failHere_canonical _ _ _ h
  | case3 => exact State.failHere_canonical _ _ _ h
  | case4 => exact wf_of_mem (State.asked_mem _ _) h
  | case5 => exact State.failHere_canonical _ _ _ h
  | case6 => exact wf_of_m (State.updQueue_m _ _ _) h
  | case7 => exact wf_of_mem (State.asked_mem _ _) h
  | case8 x _ _ _ id s1 hf s2 w fs block hst s3 hs3 =>
    have h1 : s1.m.mem.wf = true := by
      have := State.fwAcquire_wf (s.fwScope x.vd (pktAcq b)) h
      rwa [← State.fresh_m, hf] at this
    have h2 : StartWf (s1.startPacket s0 q id b) := State.startPacket_wf s0 q id b h1
    rw [hst] at h2
    exact (State.nextPacket_wf q (wf_of_m (State.updQueue_m _ _ _) h2)).ok hs3

theorem State.lane_canonical {s : State} (s0 : State) (q : Nat) (h : MemoryCanonical s) : MemoryCanonical (s.lane s0 q) := by
  unfold State.lane
  split
  · exact h
  · split
    · exact State.failHere_canonical _ _ _ h
    · split
      · exact h
      · split
        · exact State.failHere_canonical _ _ _ h
        · exact State.runPacket_canonical _ _ _ h

theorem State.flights_canonical {s : State} (s0 : State) (q : Nat) (h : MemoryCanonical s) :
    MemoryCanonical (s.flights s0 q) :=
  wf_of_m (State.flights_m _ _ _) h

theorem execFountainheadStep_keepsMem (fh : Nat) (s : State) : KeepsMem s (execFountainheadStep fh s) := by
  unfold execFountainheadStep
  split
  · exact keepsMem_same s
  · exact keepsMem_next.2 fun h => foldl_canonical _ (fun _ q hs => State.lane_canonical s q hs) _ _
      (foldl_canonical _ (fun _ q hs => State.settle_canonical q (State.flights_canonical s q hs)) _ _ h)

theorem execNestLaunchDeferred_keepsMem (q : Nat) (s : State) : KeepsMem s (execNestLaunchDeferred q s) := by
  unfold execNestLaunchDeferred
  split
  · exact keepsMem_next.2 (State.lane_canonical s q)
  · exact keepsMem_same s

theorem execPacketComplete_keepsMem (q slotNo : Nat) (s : State) : KeepsMem s (execPacketComplete q slotNo s) := by
  fun_cases execPacketComplete q slotNo s with
  | case1 _ _ _ _ e he => exact keepsMem_next.2 fun h => (State.writeBlock_wf _ _ h).error he
  | case2 _ _ _ _ s1 hs1 e he =>
    exact keepsMem_next.2 fun h => (State.complete_wf _ _ _ ((State.writeBlock_wf _ _ h).ok hs1)).error he
  | case3 _ _ _ _ s1 hs1 s2 hs2 =>
    exact keepsMem_next.2 fun h => wf_of_m (State.dropPacket_m _ _ _)
      ((State.complete_wf _ _ _ ((State.writeBlock_wf _ _ h).ok hs1)).ok hs2)
  | case4 => exact keepsMem_same s
  | case5 => exact keepsMem_same s

theorem execSluicePacketFault_keepsMem (core sctx : Nat) (s : State) : KeepsMem s (execSluicePacketFault core sctx s) := by
  unfold execSluicePacketFault
  split
  · split
    · split
      · exact keepsMem_next.2 (wf_of_mem (State.asked_mem _ _))
      · next hs1 => exact keepsMem_next.2 fun h => by simpa using (State.writeRecord_wf _ _ _ _ _ h).ok hs1
    · exact keepsMem_same s
  · exact keepsMem_same s

theorem State.enableQueue_wf {s : State} (act : Action) (q : Nat) (h : s.m.mem.wf = true) :
    (s.enableQueue act q).m.mem.wf = true := by
  have hq := State.queueError_wf (s := s.updQueue q fun x => x.start s.time) act q 0x11 0 h
  unfold State.enableQueue
  dsimp only
  split
  · simpa using h
  · split
    · split
      · next hs2 => exact hq.ok hs2
      · exact h
    · simpa using h

theorem execQueueEnable_keepsMem (q : Nat) (ctx : BitVec 16) (vd : BitVec 7) (s : State) :
    KeepsMem s (execQueueEnable q ctx vd s) := by
  unfold execQueueEnable
  split
  · refine keepsMem_next.2 fun h => ?_
    split
    · exact h
    · exact State.enableQueue_wf _ _ (wf_of_m (State.updQueue_m _ _ _) h)
  · exact keepsMem_same s

theorem Site.nlaunchPut_wf (w : Site) {s : State} (f : NlaunchF) (q i : Nat) (hd slot : Phys) (h : s.m.mem.wf = true) :
    (w.nlaunchPut s f q i hd slot).m.mem.wf = true := by
  have hput : ∀ (ph : Phys) (b : List Byte) (t : State), t.m.mem.wf = true →
      (((t.l2Access (t.tenantOf w.ctx) ph).atomPrepare w.core ph).landBytes ph b w.writer).m.mem.wf = true :=
    fun ph b t ht => State.landBytes_wf _ _ _ (State.atomPrepare_wf _ _ (wf_of_mem (State.l2Access_mem _ _ _) ht))
  unfold Site.nlaunchPut
  dsimp only
  simp only [Site.commit_m, State.updQueue_m]
  exact hput _ _ _ (hput _ _ _ h)

theorem execNlaunch_keepsMem (f : NlaunchF) (s : State) : KeepsMem s (execNlaunch f s) := by
  refine keepsMem_onMem fun w h => ?_
  dsimp only
  split
  · next he => exact (w.releaseAt_wf _ h).error he
  · next s1 hs1 =>
    have h1 := (w.releaseAt_wf _ h).ok hs1
    split
    · simpa using h1
    · split
      · simpa using h
      · split
        · next ha => exact wf_of_mem (Site.admission_mem ha) h1
        · split
          · simpa using h1
          · split
            · simpa using h
            · split
              · next ha => exact wf_of_mem (Site.admission_mem ha) h1
              · split
                · next hw => exact wf_of_mem (State.pieceWaits_mem hw) h1
                · exact w.nlaunchPut_wf _ _ _ _ _ h1

/-! ### The package control space -/

theorem execRegionCommit_keepsMem (basin : Nat) (value : W64) (s : State) : KeepsMem s (execRegionCommit basin value s) := by
  unfold execRegionCommit
  split
  · exact keepsMem_same s
  · dsimp only
    split
    · simp
    · split
      · simp
      · exact keepsMem_next.2 fun h => MemState.scramble_wf _ _ h

theorem execShootdownComplete_keepsMem (ch : Nat) (s : State) : KeepsMem s (execShootdownComplete ch s) := by
  unfold execShootdownComplete
  dsimp only
  split
  · exact keepsMem_next.2 (State.endShoot_wf _ _ _ _ fun _ ht => wf_of_m (State.setChan_m _ _ _) ht)
  · exact keepsMem_same s

theorem execCtxDestroyComplete_keepsMem (ctx : Nat) (s : State) : KeepsMem s (execCtxDestroyComplete ctx s) := by
  unfold execCtxDestroyComplete
  split
  · exact keepsMem_next.2 (State.endShoot_wf _ _ _ _ fun _ ht => ht)
  · exact keepsMem_same s

/-! ### The host and the management controller -/

theorem execHostWrite_keepsMem (addr : Nat) (data : List Byte) (s : State) : KeepsMem s (execHostWrite addr data s) := by
  unfold execHostWrite
  dsimp only
  split
  · simp
  · split
    · next hc => exact keepsMem_next.2 (wf_of_mem (State.hostCollapse_mem hc))
    · next hr =>
      split at hr
      · exact keepsMem_next.2 (wf_of_m (State.awaitRoom_m hr))
      · cases hr
    · exact keepsMem_next.2 fun h => wf_of_m (State.answer_m _ _) (State.hostPut_wf _ _ h)

theorem execHostAtomicRequest_keepsMem (op : AOp) (addr n : Nat) (a b : W64) (s : State) :
    KeepsMem s (execHostAtomicRequest op addr n a b s) := by
  unfold execHostAtomicRequest
  split
  · simp
  · dsimp only
    split
    · next hc => exact keepsMem_next.2 (wf_of_mem (State.hostCollapse_mem hc))
    · exact keepsMem_next.2 fun h => wf_of_m (State.answer_m _ _) (State.landBytes_wf _ _ _ (State.drainPath_wf _ _ h))

/-- The writes to the lines of `l` leave the queues of the paths `ps`. -/
theorem drainLines_wf {β : Type} (ps : List Path) (l : List (Nat × β)) {s : State} (h : s.m.mem.wf = true) :
    (l.foldl (fun s' e => ps.foldl (fun s'' p => s''.drainPath p fun x => x.line == e.1) s') s).m.mem.wf = true :=
  foldl_wf _ (fun _ e hs => drainPaths_wf (fun _ x => x.line == e.1) ps hs) l _ h

theorem execBackInvalidationResponse_keepsMem (line : Nat) (s : State) :
    KeepsMem s (execBackInvalidationResponse line s) := by
  fun_cases execBackInvalidationResponse line s with
  | case1 _ s1 l s2 s3 =>
    have h3 (h : s2.m.mem.wf = true) : s3.m.mem.wf = true := drainLines_wf devicePaths l h
    exact keepsMem_next.2 h3
  | case2 => exact keepsMem_same s

/-- What a reset leaves of memory, the host window, is canonical. -/
theorem State.cleared_wf {s : State} (h : s.m.mem.wf = true) : s.cleared.m.mem.wf = true :=
  SMap.wf_filter _ h

theorem execDeviceReset_keepsMem (s : State) : KeepsMem s (execDeviceReset s) := keepsMem_next.2 State.cleared_wf

theorem execPowerLoss_keepsMem (s : State) : KeepsMem s (execPowerLoss s) := keepsMem_next.2 State.cleared_wf

end Sys2Proof.Machine

/-! PROOFS. The words and events that change no byte of memory, those whose case analysis takes more than the rules of the
operations. -/

namespace Sys2Proof.Machine

/-! ### Control and barriers -/

theorem execEndw_keepsMem (s : State) : KeepsMem s (execEndw s) :=
  keepsMem_onSite fun w => wf_of_m (w.endGroup_m rfl)

theorem execExitw_keepsMem (g : Guard) (s : State) : KeepsMem s (execExitw g s) := by
  refine keepsMem_onSite fun w => wf_of_m ?_
  dsimp only
  split
  · rfl
  · split
    · split
      · rfl
      · split
        · exact w.endGroup_m rfl
        · simp
    · simp

theorem execPref_keepsMem (f : PrefF) (s : State) : KeepsMem s (execPref f s) := by
  refine keepsMem_onMem fun w => wf_of_mem ?_
  dsimp only
  split
  · simp
  · rw [Site.commit_m]
    exact foldl_mem _ (fun _ _ => by simp) _ _

theorem execBar_keepsMem (s : State) : KeepsMem s (execBar s) := keepsMem_onMem fun w h => w.barrier_wf _ h

theorem execCbar_keepsMem (s : State) : KeepsMem s (execCbar s) := keepsMem_onMem fun w h => w.barrier_wf _ h

theorem execBarv_keepsMem (f : BarvF) (s : State) : KeepsMem s (execBarv f s) := by
  refine keepsMem_onMem fun w => wf_of_m (Site.onObject_m fun off => ?_)
  dsimp only
  split <;> simp

theorem execBinit_keepsMem (f : BinitF) (s : State) : KeepsMem s (execBinit f s) := by
  refine keepsMem_onMem fun w => wf_of_m (Site.onObject_m fun off => ?_)
  dsimp only
  split
  · simp
  · split <;> simp

theorem execBinv_keepsMem (f : SReg) (s : State) : KeepsMem s (execBinv f s) := by
  refine keepsMem_onMem fun w => wf_of_m (Site.onObject_m fun off => ?_)
  dsimp only
  split <;> simp

theorem execBwait_keepsMem (f : BwaitF) (s : State) : KeepsMem s (execBwait f s) := by
  refine keepsMem_onMem fun w => wf_of_m (Site.onObject_m fun off => ?_)
  dsimp only
  split <;> simp

/-! ### Translation -/

theorem State.tableReads_mem (ctx : Nat) (l : List Nat) (s : State) :
    (l.foldl (fun s' a => s'.tableRead ctx a) s).m.mem = s.m.mem := foldl_mem _ (fun _ _ => by simp) _ _

theorem execPageWalk_keepsMem (core ctx page : Nat) (s : State) : KeepsMem s (execPageWalk core ctx page s) := by
  fun_cases execPageWalk core ctx page s with
  | case1 => exact keepsMem_same s
  | case2 => exact keepsMem_same s
  | case3 x _ _ s1 s2 =>
    have h2 : s2.m.mem = s.m.mem := State.tableReads_mem _ _ s1
    exact keepsMem_next.2 (wf_of_mem (by simpa using h2))
  | case4 x _ _ s1 s2 =>
    have h2 : s2.m.mem = s.m.mem := State.tableReads_mem _ _ s1
    exact keepsMem_next.2 (wf_of_mem (by simpa using h2))

/-! ### Conversions -/

/-- A NaN is reported in a word that changes no byte. -/
theorem Site.reportNan_same (w : Site) {s0 s1 : State} (nanOut nanIn : Bool) (h : s1.m = s0.m) :
    (w.reportNan s0 s1 nanOut nanIn).m = s0.m := (w.reportNan_m _ _ h.symm).trans h

theorem execCvtd_keepsMem (f : CvtdF) (s : State) : KeepsMem s (execCvtd f s) := by
  refine keepsMem_onSite fun w => wf_of_m ?_
  dsimp only
  split
  · exact w.fault_m _ _ _
  · refine w.reportNan_same _ _ ?_
    split
    · rw [Site.amax_m, Site.commit_m]
    · exact w.commit_m _ _

theorem execCvtq_keepsMem (f : CvtqF) (s : State) : KeepsMem s (execCvtq f s) := by
  refine keepsMem_onSite fun w => wf_of_m ?_
  dsimp only
  split
  · exact w.fault_m _ _ _
  · exact w.reportNan_same _ _ (by rw [Site.amaxFor_m, Site.commit_m])

theorem execPack_keepsMem (f : PackF) (s : State) : KeepsMem s (execPack f s) := by
  refine keepsMem_onSite fun w => wf_of_m ?_
  dsimp only
  split
  · exact w.fault_m _ _ _
  · exact w.reportNan_same _ _ (by rw [Site.amaxFor_m, Site.commit_m])

/-! ### Traps -/

theorem execTrapw_keepsMem (f : TrapF) (s : State) : KeepsMem s (execTrapw f s) := by
  refine keepsMem_onSite fun w => wf_of_m ?_
  dsimp only
  split
  · simp
  · exact w.trap_m _ rfl

theorem execBkpt_keepsMem (f : TrapF) (s : State) : KeepsMem s (execBkpt f s) := by
  refine keepsMem_onSite fun w => wf_of_m ?_
  split
  · simp
  · exact w.trap_m _ rfl

/-! ### The array -/

theorem execMxRload_keepsMem (f : MxRloadF) (s : State) : KeepsMem s (execMxRload f s) := by
  refine keepsMem_onMem fun w => wf_of_m ?_
  extract_lets
  split
  · exact w.fault_m _ _ _
  split
  · exact w.fault_m _ _ _
  split
  · exact w.await_m _ _
  extract_lets
  split
  · exact w.fault_m _ _ _
  split
  · exact w.fault_m _ _ _
  split
  · exact w.fault_m _ _ _
  split
  · exact w.fault_m _ _ _
  split
  · exact w.fault_m _ _ _
  split
  · exact w.fault_m _ _ _
  split
  · exact w.fault_m _ _ _
  split
  · exact w.holdPost_m _ _
  extract_lets r1 s1 s2
  have h2 : s2.m = s1.m := by
    unfold s2
    split
    · rfl
    · exact foldl_m _ (fun _ _ => by simp) _ _
  simpa [s1] using h2

/-- The state in which a residency's copy has its room holds the bytes of the state before. -/
theorem State.roomFor_mem (s : State) (fuel core ctx handle n : Nat) :
    (State.makeRoom fuel core ctx handle n (s.updCore core fun c => c.dropCopy ctx handle)).m.mem = s.m.mem := by
  simp

theorem execResidencyFirstUse_keepsMem (core : Nat) (s : State) : KeepsMem s (execResidencyFirstUse core s) := by
  fun_cases execResidencyFirstUse core s with
  | case1 | case8 | case9 => exact keepsMem_same s
  | case2 => exact keepsMem_next.2 id
  | case3 | case4 => exact keepsMem_next.2 (wf_of_mem (s.roomFor_mem ..))
  | case5 _ _ _ _ _ _ _ _ _ s1 _ _ _ _ hw =>
    have h1 : s1.m.mem = s.m.mem := s.roomFor_mem ..
    exact keepsMem_next.2 (wf_of_mem ((State.awaitWalk_mem hw).trans h1))
  | case6 _ _ _ _ _ _ _ _ _ s1 =>
    have h1 : s1.m.mem = s.m.mem := s.roomFor_mem ..
    exact keepsMem_next.2 (wf_of_mem (by simpa using h1))
  | case7 _ _ _ _ _ _ _ _ _ s1 =>
    have h1 : s1.m.mem = s.m.mem := s.roomFor_mem ..
    exact keepsMem_next.2 (wf_of_mem (by simpa using h1))

theorem execArrayEntryStart_keepsMem (core : Nat) (s : State) : KeepsMem s (execArrayEntryStart core s) := by
  fun_cases execArrayEntryStart core s with
  | case1 | case3 | case5 | case13 => exact keepsMem_same s
  | case2 | case6 | case10 | case11 | case12 => exact keepsMem_next.2 id
  | case4 | case8 => exact keepsMem_next.2 (wf_of_m (State.headFault_m ..))
  | case7 => exact keepsMem_next.2 (wf_of_mem (State.awaitWalk_mem ‹_›))
  | case9 => exact keepsMem_next.2 (wf_of_mem (State.touch_mem ..))

/-! ### The Sluice -/

theorem execSlIdx_keepsMem (f : SlIdxF) (s : State) : KeepsMem s (execSlIdx f s) :=
  keepsMem_onSluice fun w => wf_of_mem (SlSite.read_mem fun _ _ => by simp)

theorem execSlSegnext_keepsMem (f : SlDA) (s : State) : KeepsMem s (execSlSegnext f s) := by
  refine keepsMem_onSluice fun w => wf_of_mem ?_
  split
  · simp
  · refine SlSite.read_mem fun p1 start => SlSite.read_mem fun p2 stop => ?_
    split <;> simp

theorem execSlCbload_keepsMem (f : SlDesc) (s : State) : KeepsMem s (execSlCbload f s) := by
  refine keepsMem_onSluice fun w => wf_of_mem ?_
  dsimp only
  split
  · simp
  split
  · rfl
  split
  · next hb => exact SlSite.loadBook_mem (.inr hb)
  · next hb => simpa using SlSite.loadBook_mem (.inl hb)

theorem execSlBmexp_keepsMem (f : SlBmexpF) (s : State) : KeepsMem s (execSlBmexp f s) := by
  refine keepsMem_onSluice fun w => wf_of_mem ?_
  dsimp only
  split
  · simp
  split
  · simp
  split
  · simp
  split
  · next hw => exact State.awaitWalk_mem hw
  split
  · simp
  split
  · rfl
  · simp

/-! ### Engines -/

/-- The posting of a collective changes no byte, in the state of the word or in the one it posts from. -/
theorem Site.postColl_mem (w : Site) {s0 s : State} (kind : EngineKind) (d : List W64) (slot : W32)
    (h : s.m.mem = s0.m.mem) : (w.postColl s0 s kind d slot).m.mem = s0.m.mem :=
  (w.postColl_m_or s0 s kind d slot).elim (·.trans h) id

theorem execA2av_keepsMem (f : SReg) (s : State) : KeepsMem s (execA2av f s) :=
  keepsMem_onMem fun w => wf_of_mem (Site.withDesc_mem fun _ _ => w.postColl_mem _ _ _)

theorem execAredc_keepsMem (f : SReg) (s : State) : KeepsMem s (execAredc f s) :=
  keepsMem_onMem fun w => wf_of_mem (Site.withDesc_mem fun _ _ => w.postColl_mem _ _ _)

theorem execEsort_keepsMem (f : SReg) (s : State) : KeepsMem s (execEsort f s) :=
  keepsMem_onMem fun w => wf_of_mem (Site.withDesc_mem fun _ _ h => by simpa using h)

theorem execScatter_keepsMem (f : SReg) (s : State) : KeepsMem s (execScatter f s) :=
  keepsMem_onMem fun w => wf_of_mem (Site.withDesc_mem fun _ _ h => by simpa using h)

theorem execGather_keepsMem (f : LaDA) (s : State) : KeepsMem s (execGather f s) :=
  keepsMem_onMem fun w => wf_of_mem (Site.withDesc_mem fun _ _ h => by simpa using h)

/-! ### Scheduling -/

theorem execStopRequest_keepsMem (core ctx : Nat) (s : State) : KeepsMem s (execStopRequest core ctx s) := by
  fun_cases execStopRequest core ctx s with
  | case1 x _ _ go s1 =>
    have h1 : s1.m = s.m := foldl_m _ (fun _ _ => by simp) _ _
    refine keepsMem_next.2 (wf_of_m (Eq.trans ?_ h1))
    exact foldl_m _ (fun _ _ => by simp) _ _
  | case2 => exact keepsMem_same s
  | case3 => exact keepsMem_same s

end Sys2Proof.Machine

/-! PROOFS. The words and events that change no byte of memory: a case per branch of the meaning, and the rules of
the operations in each. -/

namespace Sys2Proof.Machine

/-- A step whose state holds the same bytes. -/
theorem keepsMem_of_mem {s t : State} (h : t.m.mem = s.m.mem) : KeepsMem s (.next t) := keepsMem_next.2 (wf_of_mem h)

/-! ### Words of a group -/

theorem execRet_keepsMem (s : State) : KeepsMem s (execRet s) := by
  refine keepsMem_onSite fun w => wf_of_mem ?_
  split
  · rfl
  · split <;> simp

theorem execJoinw_keepsMem (s : State) : KeepsMem s (execJoinw s) := by
  refine keepsMem_onSite fun w => wf_of_mem ?_
  split <;> simp

theorem execMxDrain_keepsMem (f : SPairReg) (s : State) : KeepsMem s (execMxDrain f s) := by
  refine keepsMem_onMem fun w => wf_of_mem ?_
  dsimp only
  split
  · simp
  · split <;> simp

theorem execMxTopk_keepsMem (f : SPairReg) (s : State) : KeepsMem s (execMxTopk f s) := by
  refine keepsMem_onMem fun w => wf_of_mem ?_
  dsimp only
  split
  · simp
  split
  · simp
  · split <;> simp

theorem execMxZero_keepsMem (f : SPairReg) (s : State) : KeepsMem s (execMxZero f s) := by
  refine keepsMem_onMem fun w => wf_of_mem ?_
  split <;> simp

theorem execMxRalloc_keepsMem (f : LaDA) (s : State) : KeepsMem s (execMxRalloc f s) := by
  refine keepsMem_onMem fun w => wf_of_mem ?_
  dsimp only
  split
  · simp
  split
  · simp
  split
  · simp
  · split <;> simp

theorem execMxRpin_keepsMem (f : MxRpinF) (s : State) : KeepsMem s (execMxRpin f s) := by
  refine keepsMem_onMem fun w => wf_of_mem ?_
  split <;> simp

theorem execMxRevoke_keepsMem (f : SReg) (s : State) : KeepsMem s (execMxRevoke f s) := by
  refine keepsMem_onMem fun w => wf_of_mem ?_
  split
  · simp
  split
  · simp
  · split <;> simp

theorem execMxRqry_keepsMem (f : LaDA) (s : State) : KeepsMem s (execMxRqry f s) := by
  refine keepsMem_onMem fun w => wf_of_mem ?_
  split <;> simp

theorem execFork_keepsMem (f : ForkF) (s : State) : KeepsMem s (execFork f s) := by
  refine keepsMem_onMem fun w => wf_of_mem ?_
  dsimp only
  split
  · simp
  split
  · simp
  · split <;> simp

/-! ### Words of the Sluice -/

theorem execSlSetd_keepsMem (f : SlSetdF) (s : State) : KeepsMem s (execSlSetd f s) := by
  refine keepsMem_onSluice fun w => wf_of_mem ?_
  split <;> simp

theorem execSlArrive_keepsMem (f : SlArriveF) (s : State) : KeepsMem s (execSlArrive f s) := by
  refine keepsMem_onSluice fun w => wf_of_mem ?_
  dsimp only
  split
  · simp
  split
  · simp
  · split <;> simp

theorem execSlWait_keepsMem (f : SlWaitF) (s : State) : KeepsMem s (execSlWait f s) := by
  refine keepsMem_onSluice fun w => wf_of_mem ?_
  dsimp only
  split
  · simp
  split
  · simp
  · split <;> simp

/-! ### Events -/

theorem execLongLatencyResult_keepsMem (team grp id : Nat) (s : State) : KeepsMem s (execLongLatencyResult team grp id s) := by
  fun_cases execLongLatencyResult team grp id s <;> exact keepsMem_of_mem (by simp)

theorem execRejectedReissue_keepsMem (team grp : Nat) (slot : Bool) (s : State) : KeepsMem s (execRejectedReissue team grp slot s) := by
  fun_cases execRejectedReissue team grp slot s <;> exact keepsMem_of_mem (by simp)

theorem execRequestAged_keepsMem (team grp : Nat) (slot : Bool) (s : State) : KeepsMem s (execRequestAged team grp slot s) := by
  fun_cases execRequestAged team grp slot s <;> exact keepsMem_of_mem (by simp)

theorem execRendezvousServe_keepsMem (team slotNo : Nat) (s : State) : KeepsMem s (execRendezvousServe team slotNo s) := by
  fun_cases execRendezvousServe team slotNo s <;> exact keepsMem_of_mem (by simp)

theorem execItemqPushServed_keepsMem (team : Nat) (s : State) : KeepsMem s (execItemqPushServed team s) := by
  fun_cases execItemqPushServed team s <;> exact keepsMem_of_mem (by simp)

theorem execHolderPromotion_keepsMem (line : Nat) (s : State) : KeepsMem s (execHolderPromotion line s) := by
  unfold execHolderPromotion
  split
  · exact keepsMem_of_mem (State.wbCore_mem ..)
  · exact keepsMem_same s

theorem execDeferredReleaseWb_keepsMem (core line : Nat) (s : State) : KeepsMem s (execDeferredReleaseWb core line s) := by
  fun_cases execDeferredReleaseWb core line s <;> exact keepsMem_of_mem (by simp)

theorem execTrapEntry_keepsMem (team grp : Nat) (slot : Bool) (s : State) : KeepsMem s (execTrapEntry team grp slot s) := by
  fun_cases execTrapEntry team grp slot s <;> exact keepsMem_of_mem (by simp)

theorem execArrayOpComplete_keepsMem (core : Nat) (s : State) : KeepsMem s (execArrayOpComplete core s) := by
  fun_cases execArrayOpComplete core s <;> exact keepsMem_of_mem (by simp)

theorem execInstanceDiscard_keepsMem (core ctx handle : Nat) (s : State) : KeepsMem s (execInstanceDiscard core ctx handle s) := by
  fun_cases execInstanceDiscard core ctx handle s <;> exact keepsMem_of_mem (by simp)

theorem execPointRelease_keepsMem (nest : Nat) (s : State) : KeepsMem s (execPointRelease nest s) := by
  fun_cases execPointRelease nest s with
  | case1 _ _ _ _ _ _ _ _ _ _ _ _ _ _ n s1 hn =>
    have hs : s1 = s.fresh.2 := (congrArg Prod.snd hn).symm
    exact keepsMem_of_mem (by simp [hs])
  | case2 | case3 | case4 => exact keepsMem_same s

theorem execClusterReservation_keepsMem (basin part sub : Nat) (s : State) : KeepsMem s (execClusterReservation basin part sub s) := by
  fun_cases execClusterReservation basin part sub s <;> exact keepsMem_of_mem (by simp)

theorem execReservationAged_keepsMem (pg : Nat) (s : State) : KeepsMem s (execReservationAged pg s) := by
  fun_cases execReservationAged pg s <;> exact keepsMem_of_mem (by simp)

theorem execGangTimeout_keepsMem (gang : Nat) (s : State) : KeepsMem s (execGangTimeout gang s) := by
  fun_cases execGangTimeout gang s <;> exact keepsMem_of_mem (by simp)

theorem execBoundProposalApply_keepsMem (nest : Nat) (s : State) : KeepsMem s (execBoundProposalApply nest s) := by
  fun_cases execBoundProposalApply nest s <;> exact keepsMem_of_mem (by simp)

theorem execSluiceIndexLoadData_keepsMem (core sctx : Nat) (s : State) : KeepsMem s (execSluiceIndexLoadData core sctx s) := by
  fun_cases execSluiceIndexLoadData core sctx s <;> exact keepsMem_of_mem (by simp)

theorem execSluiceContextEnded_keepsMem (core sctx : Nat) (s : State) : KeepsMem s (execSluiceContextEnded core sctx s) := by
  fun_cases execSluiceContextEnded core sctx s <;> exact keepsMem_of_mem (by simp)

theorem execTeamHalt_keepsMem (team : Nat) (s : State) : KeepsMem s (execTeamHalt team s) := by
  fun_cases execTeamHalt team s <;> exact keepsMem_of_mem (by simp)

theorem execEccError_keepsMem (nest : Option Nat) (grp : Option (Nat × Nat)) (pc : W64) (addr : Nat) (s : State) :
    KeepsMem s (execEccError nest grp pc addr s) := by
  fun_cases execEccError nest grp pc addr s <;> exact keepsMem_of_mem (by simp)

theorem execGatherCountReturn_keepsMem (id : Nat) (s : State) : KeepsMem s (execGatherCountReturn id s) := by
  fun_cases execGatherCountReturn id s <;> exact keepsMem_of_mem (by simp)

theorem execCollectiveMessage_keepsMem (vd comm rank seq : Nat) (cmd : List Nat) (data : List Byte) (s : State) :
    KeepsMem s (execCollectiveMessage vd comm rank seq cmd data s) := by
  fun_cases execCollectiveMessage vd comm rank seq cmd data s <;> exact keepsMem_of_mem (by simp)

theorem execWeight0Preempt_keepsMem (part : Nat) (s : State) : KeepsMem s (execWeight0Preempt part s) := by
  fun_cases execWeight0Preempt part s <;> exact keepsMem_of_mem (by simp)

theorem execGroupStop_keepsMem (team grp : Nat) (s : State) : KeepsMem s (execGroupStop team grp s) := by
  fun_cases execGroupStop team grp s <;> exact keepsMem_of_mem (by simp)

theorem execForcedSave_keepsMem (team grp : Nat) (s : State) : KeepsMem s (execForcedSave team grp s) := by
  fun_cases execForcedSave team grp s <;> exact keepsMem_of_mem (by simp)

theorem execDrainEnd_keepsMem (core : Nat) (s : State) : KeepsMem s (execDrainEnd core s) := by
  unfold execDrainEnd
  dsimp only
  split
  · exact keepsMem_same s
  · split <;> exact keepsMem_of_mem (by simp)

theorem execDoorbellWrite_keepsMem (at_ : VfOffset) (value : W64) (s : State) : KeepsMem s (execDoorbellWrite at_ value s) := by
  fun_cases execDoorbellWrite at_ value s <;> exact keepsMem_of_mem (by simp)

theorem execWidxReconcile_keepsMem (q : Nat) (s : State) : KeepsMem s (execWidxReconcile q s) := by
  fun_cases execWidxReconcile q s <;> exact keepsMem_of_mem (by simp)

theorem execQueueDisable_keepsMem (ctl : QueueCtl) (s : State) : KeepsMem s (execQueueDisable ctl s) := by
  fun_cases execQueueDisable ctl s <;> exact keepsMem_of_mem (by simp)

theorem execRegionEntryWrite_keepsMem (basin entry reg : Nat) (value : W64) (s : State) :
    KeepsMem s (execRegionEntryWrite basin entry reg value s) := by
  fun_cases execRegionEntryWrite basin entry reg value s <;> exact keepsMem_of_mem (by simp)

theorem execRegionDrainEnd_keepsMem (basin : Nat) (s : State) : KeepsMem s (execRegionDrainEnd basin s) := by
  fun_cases execRegionDrainEnd basin s <;> exact keepsMem_of_mem (by simp)

theorem execShootdownStart_keepsMem (ch : Nat) (base ctl : W64) (s : State) : KeepsMem s (execShootdownStart ch base ctl s) := by
  fun_cases execShootdownStart ch base ctl s <;> exact keepsMem_of_mem (by simp)

theorem execPortWrite_keepsMem (port : Nat) (value : W64) (s : State) : KeepsMem s (execPortWrite port value s) := by
  fun_cases execPortWrite port value s <;> exact keepsMem_of_mem (by simp)

theorem execTenWaysWrite_keepsMem (ten basin : Nat) (value : W64) (s : State) :
    KeepsMem s (execTenWaysWrite ten basin value s) := by
  unfold execTenWaysWrite
  dsimp only
  split
  · exact keepsMem_same s
  · exact keepsMem_of_mem rfl

theorem execRegisterWrite_keepsMem (reg : CtlReg) (value : W64) (s : State) : KeepsMem s (execRegisterWrite reg value s) := by
  refine keepsMem_of_mem ?_
  cases reg with
  | tenMacros ten => dsimp only; split <;> rfl
  | sdBase ch => dsimp only; split <;> simp
  | qhdr q => dsimp only; split <;> simp
  | _ => simp

theorem execHostRead_keepsMem (x : HostSpace) (n : Nat) (hold : Bool) (s : State) : KeepsMem s (execHostRead x n hold s) := by
  refine keepsMem_of_mem ?_
  cases x <;> simp

theorem execAtsInvalidation_keepsMem (page : Nat) (s : State) : KeepsMem s (execAtsInvalidation page s) := by
  fun_cases execAtsInvalidation page s <;> exact keepsMem_of_mem (by simp)

theorem execSensorSample_keepsMem (rails : List Nat) (temps : Temps) (s : State) : KeepsMem s (execSensorSample rails temps s) := by
  fun_cases execSensorSample rails temps s <;> exact keepsMem_of_mem (by simp)

theorem execAttestationSign_keepsMem (_nonce : Nat) (s : State) : KeepsMem s (execAttestationSign _nonce s) := by
  fun_cases execAttestationSign _nonce s <;> exact keepsMem_of_mem (by simp)

end Sys2Proof.Machine

/-! PROOFS. Every instruction keeps memory canonical, and so does every step. -/

namespace Sys2Proof.Machine

/-- Every word and every event keeps memory canonical. The words that only write registers, slots and queues of their group or
context have their case here; the others have their own lemma. -/
theorem exec_keepsMem (i : Instr) (s : State) : KeepsMem s (exec i s) := by
  cases i with
  | and | andi | bfi | bfx | brev | clz | iabs | iadd | iaddi | imad | imax | imin | imul | imulh | ineg | isetp | isub | lea
  | mov | movi | not | or | ori | plop | popc | rot | sar | sel | shl | shr | xor | xori | fabs | fadd | fclass | fcos | fdiv
  | fdot2 | fexp2 | ffma | flog2 | fmax | fmin | fmul | fneg | frcp | frnd | frsq | fsetp | fsin | fsqrt | fsub | ftanh | hfma2
  | amaxrd | cvt | fmode | seed | unpk | bcast | ltile | redux | scan | shfl | vote | bra | brau | call | looph | mjoin | nop
  | rep | nbnd | nqry | srd | swr | tret | yieldw | halfIadd | halfIsub | halfAnd | halfOr | halfXor | halfShl | halfShr
  | halfSar | halfImin | halfImax | halfMov | halfImul | halfFadd | halfFsub | halfFmul | halfFmin | halfFmax =>
    exact keepsMem_onSite fun w => wf_of_mem (by simp)
  | xrecv | xsend | itemq | mxDist | mxRun | rdv =>
    exact keepsMem_onMem fun w => wf_of_mem (by simp)
  | slAdd | slBr | slCmp | slEnd | slLoop | slMad | slMov | slSignal | slStamp | slXfer =>
    exact keepsMem_onSluice fun w => wf_of_mem (by simp)
  | presenceBitSet | linkRetry | ctxCreate | ctxDestroy | vdCfgWrite | vdPolicyWrite | unsupportedHostRequest | firmwareUpdate
  | keyWrite =>
    exact keepsMem_of_mem (by simp)
  | cvtd f => exact execCvtd_keepsMem f s
  | cvtq f => exact execCvtq_keepsMem f s
  | pack f => exact execPack_keepsMem f s
  | endw => exact execEndw_keepsMem s
  | exitw f => exact execExitw_keepsMem f s
  | joinw => exact execJoinw_keepsMem s
  | ret => exact execRet_keepsMem s
  | atom f => exact execAtom_keepsMem f s
  | atoms f => exact execAtoms_keepsMem f s
  | cctl f => exact execCctl_keepsMem f s
  | ld f => exact execLd_keepsMem f s
  | lds f => exact execLds_keepsMem f s
  | ldu f => exact execLdu_keepsMem f s
  | mwait f => exact execMwait_keepsMem f s
  | pref f => exact execPref_keepsMem f s
  | st f => exact execSt_keepsMem f s
  | sts f => exact execSts_keepsMem f s
  | bar => exact execBar_keepsMem s
  | barv f => exact execBarv_keepsMem f s
  | binit f => exact execBinit_keepsMem f s
  | binv f => exact execBinv_keepsMem f s
  | bwait f => exact execBwait_keepsMem f s
  | cbar => exact execCbar_keepsMem s
  | fence f => exact execFence_keepsMem f s
  | nbar => exact execNbar_keepsMem s
  | sigop f => exact execSigop_keepsMem f s
  | xfence f => exact execXfence_keepsMem f s
  | nlaunch f => exact execNlaunch_keepsMem f s
  | mxDrain f => exact execMxDrain_keepsMem f s
  | mxRalloc f => exact execMxRalloc_keepsMem f s
  | mxRevoke f => exact execMxRevoke_keepsMem f s
  | mxRload f => exact execMxRload_keepsMem f s
  | mxRpin f => exact execMxRpin_keepsMem f s
  | mxRqry f => exact execMxRqry_keepsMem f s
  | mxTopk f => exact execMxTopk_keepsMem f s
  | mxZero f => exact execMxZero_keepsMem f s
  | fork f => exact execFork_keepsMem f s
  | a2av f => exact execA2av_keepsMem f s
  | aredc f => exact execAredc_keepsMem f s
  | esort f => exact execEsort_keepsMem f s
  | gather f => exact execGather_keepsMem f s
  | scatter f => exact execScatter_keepsMem f s
  | bkpt f => exact execBkpt_keepsMem f s
  | trapw f => exact execTrapw_keepsMem f s
  | slArrive f => exact execSlArrive_keepsMem f s
  | slBmexp f => exact execSlBmexp_keepsMem f s
  | slCbload f => exact execSlCbload_keepsMem f s
  | slIdx f => exact execSlIdx_keepsMem f s
  | slSegnext f => exact execSlSegnext_keepsMem f s
  | slSetd f => exact execSlSetd_keepsMem f s
  | slWait f => exact execSlWait_keepsMem f s
  | longLatencyResult team grp id => exact execLongLatencyResult_keepsMem team grp id s
  | rejectedReissue team grp slot => exact execRejectedReissue_keepsMem team grp slot s
  | requestAged team grp slot => exact execRequestAged_keepsMem team grp slot s
  | pageWalk core ctx page => exact execPageWalk_keepsMem core ctx page s
  | barrierComplete team => exact execBarrierComplete_keepsMem team s
  | rendezvousServe team slotNo => exact execRendezvousServe_keepsMem team slotNo s
  | itemqPushServed team => exact execItemqPushServed_keepsMem team s
  | mwaitWake team grp slot => exact execMwaitWake_keepsMem team grp slot s
  | mwaitTimeout team grp slot => exact execMwaitTimeout_keepsMem team grp slot s
  | mwaitHostPoll team grp slot => exact execMwaitHostPoll_keepsMem team grp slot s
  | holderPromotion line => exact execHolderPromotion_keepsMem line s
  | specWindowCommit team grp => exact execSpecWindowCommit_keepsMem team grp s
  | ingressDrain basin slice path => exact execIngressDrain_keepsMem basin slice path s
  | collapseEvent ctx page => exact execCollapseEvent_keepsMem ctx page s
  | collapseRelease ctx page => exact execCollapseRelease_keepsMem ctx page s
  | replicaPlacement ctx page pool => exact execReplicaPlacement_keepsMem ctx page pool s
  | teamStart core => exact execTeamStart_keepsMem core s
  | clusterStart core => exact execClusterStart_keepsMem core s
  | clusterReservation basin part sub => exact execClusterReservation_keepsMem basin part sub s
  | reservationAged pg => exact execReservationAged_keepsMem pg s
  | pointRelease nest => exact execPointRelease_keepsMem nest s
  | pointRetire team => exact execPointRetire_keepsMem team s
  | boundProposalApply nest => exact execBoundProposalApply_keepsMem nest s
  | nestLaunchDeferred q => exact execNestLaunchDeferred_keepsMem q s
  | persistentStart nest => exact execPersistentStart_keepsMem nest s
  | gangCommit gang => exact execGangCommit_keepsMem gang s
  | gangTimeout gang => exact execGangTimeout_keepsMem gang s
  | arrayEntryStart core => exact execArrayEntryStart_keepsMem core s
  | residencyFirstUse core => exact execResidencyFirstUse_keepsMem core s
  | arrayOpComplete core => exact execArrayOpComplete_keepsMem core s
  | instanceDiscard core ctx handle => exact execInstanceDiscard_keepsMem core ctx handle s
  | transferPerform core sctx => exact execTransferPerform_keepsMem core sctx s
  | sluiceContextEnded core sctx => exact execSluiceContextEnded_keepsMem core sctx s
  | engineComplete id => exact execEngineComplete_keepsMem id s
  | gatherCountReturn id => exact execGatherCountReturn_keepsMem id s
  | engineLateFault id => exact execEngineLateFault_keepsMem id s
  | collectiveMessage vd comm rank seq cmd data => exact execCollectiveMessage_keepsMem vd comm rank seq cmd data s
  | collectiveTimeout id => exact execCollectiveTimeout_keepsMem id s
  | linkPathFailure vd comm rank => exact execLinkPathFailure_keepsMem vd comm rank s
  | trapEntry team grp slot => exact execTrapEntry_keepsMem team grp slot s
  | teamHalt team => exact execTeamHalt_keepsMem team s
  | nestAbort nest => exact execNestAbort_keepsMem nest s
  | deferredReleaseWb core line => exact execDeferredReleaseWb_keepsMem core line s
  | eccError nest grp pc addr => exact execEccError_keepsMem nest grp pc addr s
  | stopRequest core ctx => exact execStopRequest_keepsMem core ctx s
  | groupStop team grp => exact execGroupStop_keepsMem team grp s
  | forcedSave team grp => exact execForcedSave_keepsMem team grp s
  | contextSave core => exact execContextSave_keepsMem core s
  | drainEnd core => exact execDrainEnd_keepsMem core s
  | contextResume team core => exact execContextResume_keepsMem team core s
  | sliceStart part => exact execSliceStart_keepsMem part s
  | weight0Preempt part => exact execWeight0Preempt_keepsMem part s
  | fountainheadStep fh => exact execFountainheadStep_keepsMem fh s
  | packetComplete q slotNo => exact execPacketComplete_keepsMem q slotNo s
  | sluicePacketFault core sctx => exact execSluicePacketFault_keepsMem core sctx s
  | doorbellWrite at_ value => exact execDoorbellWrite_keepsMem at_ value s
  | widxReconcile q => exact execWidxReconcile_keepsMem q s
  | queueEnable q ctx vd => exact execQueueEnable_keepsMem q ctx vd s
  | queueDisable ctl => exact execQueueDisable_keepsMem ctl s
  | regionEntryWrite basin entry reg value => exact execRegionEntryWrite_keepsMem basin entry reg value s
  | regionCommit basin value => exact execRegionCommit_keepsMem basin value s
  | regionDrainEnd basin => exact execRegionDrainEnd_keepsMem basin s
  | shootdownStart ch base ctl => exact execShootdownStart_keepsMem ch base ctl s
  | shootdownComplete ch => exact execShootdownComplete_keepsMem ch s
  | ctxDestroyComplete ctx => exact execCtxDestroyComplete_keepsMem ctx s
  | portWrite port value => exact execPortWrite_keepsMem port value s
  | tenWaysWrite ten basin value => exact execTenWaysWrite_keepsMem ten basin value s
  | registerWrite reg value => exact execRegisterWrite_keepsMem reg value s
  | hostWrite addr data => exact execHostWrite_keepsMem addr data s
  | hostRead x n hold => exact execHostRead_keepsMem x n hold s
  | hostAtomicRequest op addr n a b => exact execHostAtomicRequest_keepsMem op addr n a b s
  | hostAtomicCompletion team grp slot ok => exact execHostAtomicCompletion_keepsMem team grp slot ok s
  | atsInvalidation page => exact execAtsInvalidation_keepsMem page s
  | backInvalidationResponse line => exact execBackInvalidationResponse_keepsMem line s
  | sensorSample rails temps => exact execSensorSample_keepsMem rails temps s
  | deviceReset => exact execDeviceReset_keepsMem s
  | attestationSign nonce => exact execAttestationSign_keepsMem nonce s
  | sluiceIndexLoadData core sctx => exact execSluiceIndexLoadData_keepsMem core sctx s
  | powerLoss => exact execPowerLoss_keepsMem s

/-! ### What a step does before its word runs -/

/-- What an issuer has prepared holds memory as `s` does, whether its word runs or not. -/
def Prep.SameMem (s : State) : Prep → Prop
  | .hold t => t.m.mem = s.m.mem
  | .run _ t => t.m.mem = s.m.mem

@[simp] theorem Prep.sameMem_hold {s t : State} : (Prep.hold t).SameMem s ↔ t.m.mem = s.m.mem := Iff.rfl

@[simp] theorem Prep.sameMem_run {s t : State} {i : Instr} : (Prep.run i t).SameMem s ↔ t.m.mem = s.m.mem := Iff.rfl

theorem Site.letRun_sameMem (w : Site) (s : State) (i : Instr) : (w.letRun s i).SameMem s := by
  fun_cases Site.letRun w s i with
  | case5 _ _ _ _ t ht => exact Site.admission_mem ht
  | _ => simp

theorem Site.decodeWord_sameMem (w : Site) (s : State) (word : W64) : (w.decodeWord s word).SameMem s := by
  fun_cases Site.decodeWord w s word with
  | case4 => exact w.letRun_sameMem s _
  | _ => simp

theorem Site.prepare_sameMem (w : Site) (s : State) : (w.prepare s).SameMem s := by
  fun_cases Site.prepare w s with
  | case3 _ _ t ht => exact Site.admission_mem ht
  | case5 => exact w.decodeWord_sameMem s _
  | _ => simp

theorem SlSite.prepare_sameMem (w : SlSite) (s : State) : (w.prepare s).SameMem s := by
  fun_cases SlSite.prepare w s with
  | case2 _ t ht => exact State.awaitWalk_mem ht
  | _ => simp

theorem State.prepare_sameMem (s : State) (who : Issuer) : (s.prepare who).SameMem s := by
  fun_cases State.prepare s who with
  | case1 _ _ _ w => exact w.prepare_sameMem s
  | case3 _ _ w => exact w.prepare_sameMem s
  | _ => simp

/-! ### Steps -/

/-- A step that begins in a state with the same bytes keeps memory canonical. -/
theorem KeepsMem.from_mem {s s1 : State} {o : Host.Outcome State Fault Refusal} (h : s1.m.mem = s.m.mem)
    (ho : KeepsMem s1 o) : KeepsMem s o := fun hs => ho (wf_of_mem h hs)

theorem step_keepsMem (s : State) : KeepsMem s (step s) := by
  fun_cases step s with
  | case1 who _ t ht =>
    have h : t.m.mem = s.m.mem := by simpa [ht] using s.turn.prepare_sameMem who
    exact keepsMem_of_mem h
  | case2 who _ i t ht =>
    have h : t.m.mem = s.m.mem := by simpa [ht] using s.turn.prepare_sameMem who
    exact (exec_keepsMem i t).from_mem h
  | case3 | case4 => exact keepsMem_of_mem (by simp)
  | case5 i =>
    have h : ({ s.turn with cur := none } : State).m.mem = s.m.mem := rfl
    exact (exec_keepsMem i _).from_mem h
  | case6 | case7 => exact keepsMem_of_mem (by simp)

end Sys2Proof.Machine

namespace Sys2Proof

open Machine

/-- Settles O60: each instruction and each part of a step either changes no byte or changes memory by a write that keeps its
canonical form. -/
theorem memoryCanonicalKept : Obligations.MemoryCanonicalKept :=
  fun s t h hst => step_keepsMem s h t hst

end Sys2Proof
